-- ==== Sys2Proof/Word.lean ====
section
/-! DEFINITION. The word types of the model: registers are 64 bits (R5 and the register tables), memory is bytes. -/

namespace Sys2Proof

/-- A 64-bit register or lane. -/
abbrev Word := BitVec 64

/-- One byte of memory. -/
abbrev Byte := BitVec 8

end Sys2Proof
end

