-- ==== Sys2Proof/Syntax.lean ====
section
/-! DEFINITION. The commands of the block: one constructor of `Instr` per row of spec/opcode_table.json, in the
table's order, with the operands the outside (or the module's own engine) brings to that step. Identifiers are the
spec's physical names as numbers (R2): a core is `4 * site + n`, a fuller or channel is named inside its core,
endpoints are sites 0-71 and 72-75 for BD0-BD3 (R264). -/

namespace Sys2Proof

/-- Who makes a request (R24, R267 UNIT). -/
inductive Agent where
  /-- Core `4 * site + n` (UNIT 0-3). -/
  | core (core : Nat)
  /-- The milliner of a site (UNIT 4). -/
  | milliner (site : Nat)
  /-- The Hatband, which carries no partition (UNIT 5). -/
  | hatband
  /-- A PCIe function, 0 for PF0 (UNIT 6). -/
  | pcie (fn : Nat)
  /-- The Brimlink agent of a brim die acting for a partition (UNIT 7). -/
  | brimlink (die : Nat) (pt : Nat)
  deriving DecidableEq, Repr

/-- The atomic operations a bank performs (R105, R195). -/
inductive AmoOp where
  | add | swap | and | or | xor | max | min | maxu | minu
  /-- The saturating semaphore add of R101 and R105. -/
  | semAdd
  deriving DecidableEq, Repr

/-- Settings of a function's PCIe configuration space (R206, R221). -/
inductive CfgItem where
  | msixEnable | relaxedOrdering | powerState | aspmL1 | maxPayload | maxReadRequest | ecrcGenerate | ecrcCheck
  deriving DecidableEq, Repr

/-- Where a register access goes: a device address, BAR0 or BAR2 of a function (R209), or a setting of its configuration space. -/
inductive RegAddr where
  | da (da : Nat)
  | bar0 (fn : Nat) (off : Nat)
  | bar2 (fn : Nat) (off : Nat)
  | cfg (fn : Nat) (item : CfgItem)
  deriving DecidableEq, Repr

/-- What a read of host memory brings (R232). -/
inductive HostRead where
  | ok (bytes : List Byte)
  /-- 0 Unsupported Request, 1 Completer Abort, 2 timeout. -/
  | failed (cause : Nat)
  | poisoned
  deriving DecidableEq, Repr

/-- A mesh packet: the header of R267 and its data bytes. -/
structure MeshPkt where
  da     : Nat
  status : Nat := 0
  len    : Nat
  op     : Nat
  unit   : Nat
  tag    : Nat
  dst    : Nat
  src    : Nat
  spt    : Nat
  hb     : Bool
  mbz    : Nat := 0
  data   : List Byte := []
  deriving DecidableEq, Repr

/-- A Brimlink packet: the header of R241, the body and the 16-byte tag. -/
structure BlPkt where
  dst    : Nat
  src    : Nat
  dpt    : Nat
  spt    : Nat
  typ    : Nat
  nflit  : Nat
  ttl    : Nat
  epoch  : Nat
  mbz    : Nat := 0
  pn     : Nat
  fields : Nat
  body   : List Byte
  tag    : Nat
  deriving DecidableEq, Repr

/-- A Brimlink flit as received (R236): header, 120 payload bytes, and whether the FEC codeword was correctable. -/
structure BlFlit where
  header  : BitVec 64
  payload : List Byte
  fecOk   : Bool
  deriving DecidableEq, Repr

/-- A mesh flit as received (R265): the sideband word and 128 data bytes. -/
structure MeshFlit where
  sideband : BitVec 64
  data     : List Byte
  deriving DecidableEq, Repr

/-- A disturbance before a compare (R63): bits that a fault has inverted in one accumulator cell, or, where `own` names an array
of a gang whose sums meet another's, in that array's own partial sum. Columns count within the compared array's 128. -/
structure Upset where
  row  : Nat
  col  : Nat
  bits : BitVec 32
  own  : Option Nat := none
  deriving DecidableEq, Repr

/-- A site-addressed management request of the Hatband (R13, R267, before R187). -/
inductive MgmtReq where
  | read (off : Nat) (size : Nat)
  | write (off : Nat) (size : Nat) (val : Word)
  /-- A gather-reduce descriptor run on one fuller of a core of the site. -/
  | gatherReduce (core : Nat) (fuller : Nat) (desc : BitVec 512)
  /-- Clears a fuller fence after a test (R186). -/
  | clearFuller (core : Nat) (fuller : Nat)
  deriving DecidableEq, Repr

/-- How a milliner page is typed (R195): its region's attribute, or PBMT NC or IO. -/
inductive Pbmt where
  | pma | nc | io
  deriving DecidableEq, Repr

/-- An error that an access meets in a line of L1D or L2 (R199, R205). -/
inductive LineErr where
  | none | corrected | uncorrectable
  deriving DecidableEq, Repr

/-- The type of an access's page, and an error it meets in a cached line. -/
structure MilPage where
  pbmt : Pbmt := .pma
  err  : LineErr := .none
  deriving DecidableEq, Repr

/-- A physical address with the page it lies in. -/
structure MilAddr where
  pa   : Nat
  page : MilPage := {}
  deriving DecidableEq, Repr

/-- How a fetch goes: its page, and a parity error in L1I (R375). -/
structure MilFetch where
  parity : Bool := false
  page   : MilPage := {}
  deriving DecidableEq, Repr

/-- The predecessor set of a FENCE, as far as stores go: memory (W) and I/O (O). -/
structure FencePred where
  w : Bool
  o : Bool
  deriving DecidableEq, Repr

/-- The milliner's atomic instructions (R195). -/
inductive MilAmo where
  | amo (op : AmoOp)
  | lr
  | sc
  deriving DecidableEq, Repr

/-- The other milliner instructions of MILLINER_INSTR (R194). -/
inductive MilInstr where
  /-- A base integer instruction, as its 32-bit word. -/
  | word (w : BitVec 32)
  /-- A write of satp. -/
  | satp (v : Word)
  /-- An instruction of an extension the milliner does not implement. -/
  | unimplemented (w : BitVec 32)
  deriving DecidableEq, Repr

/-- A temperature sensor (R353). -/
inductive Sensor where
  | monitor (site : Nat) (i : Nat)
  | diode (site : Nat)
  | dram (site : Nat) (layer : Nat)
  | brimMonitor (die : Nat) (i : Nat)
  | brimDiode (die : Nat)
  deriving DecidableEq, Repr

/-- A power domain (R333): site 0-71 or 72-75, domain code 0-7, core within the site (code 0 only). -/
structure Domain where
  site : Nat
  code : Nat
  core : Nat := 0
  deriving DecidableEq, Repr

/-- Where an SPDM or PLDM message arrives (R399, R405). -/
inductive Transport where
  | doe (fn : Nat)
  | i3c
  | vdm
  | fleet (peer : Nat)
  deriving DecidableEq, Repr

/-- A unit found bad by a bring-up stage (R302, R303). -/
structure BadUnit where
  kind   : Nat
  cause  : Nat
  site   : Nat
  core   : Nat
  index  : Nat
  sub    : Nat := 0
  d0     : Nat := 0
  d1     : Nat := 0
  deriving DecidableEq, Repr

/-- What Fulling finds in one DRAM bank (R294, R295): the beats that fail a pass, as (row, beat column), and each further time
that the repair of a row or of a beat column fails the repeated test. -/
structure BankTest where
  site      : Nat
  core      : Nat
  chan      : Nat
  bank      : Nat
  beats     : List (Nat × Nat)
  rowsAgain : List Nat := []
  colsAgain : List Nat := []
  deriving DecidableEq, Repr

/-- What Fulling finds: units and informative entries, and the banks with failing beats. -/
structure FullFound where
  units : List BadUnit
  banks : List BankTest := []
  deriving DecidableEq, Repr

/-- The 318 commands of spec/opcode_table.json. -/
inductive Instr where
  /-- REGISTER_WRITE (R5) -/
  | registerWrite (by_ : Agent) (tgt : RegAddr) (size : Nat) (val : Word)
  /-- RATE_WINDOW_END (R429): of the die at an endpoint. -/
  | rateWindowEnd (die : Nat)
  /-- READ (R26) -/
  | read (by_ : Agent) (tag : Nat) (da : Nat) (len : Nat)
  /-- WRITE (R26) -/
  | write (by_ : Agent) (tag : Nat) (da : Nat) (data : List Byte)
  /-- ATOMIC (R26) -/
  | atomic (by_ : Agent) (tag : Nat) (da : Nat) (op : AmoOp) (size : Nat) (operand : Word)
  /-- RESPONSE (R267) -/
  | response (by_ : Agent) (tag : Nat)
  /-- MCAST (R401): packet `seq` of distribution `dist` arriving at a site. -/
  | mcast (site : Nat) (dist : Nat) (seq : Nat) (typ : Nat) (data : List Byte)
  /-- MGMT (R267) -/
  | mgmt (site : Nat) (req : MgmtReq)
  /-- MESH_FORWARD (R271) -/
  | meshForward (router : Nat) (pkt : MeshPkt)
  /-- SRAM_CE_WRITEBACK (R19) -/
  | sramCeWriteback (core : Nat)
  /-- SRAM_CLEAR_DONE (R22) -/
  | sramClearDone (core : Nat)
  /-- TAIL_WRITE (R94) -/
  | tailWrite (core : Nat) (q : Nat) (value : Nat)
  /-- RESUME (R100) -/
  | resume (core : Nat) (q : Nat) (sigFailed : Bool)
  /-- SKIP (R100) -/
  | skip (core : Nat) (q : Nat) (sigFailed : Bool)
  /-- RING_FETCH_DONE (R95) -/
  | ringFetchDone (core : Nat) (q : Nat)
  /-- COMMAND_COMPLETE (R104): of the running command at ring index `index`. -/
  | commandComplete (core : Nat) (q : Nat) (index : Nat)
  /-- WAIT_LIMIT_EXPIRY (R102) -/
  | waitLimitExpiry (core : Nat) (q : Nat)
  /-- NOP (R107) -/
  | nop (core : Nat) (q : Nat)
  /-- HALT (R107) -/
  | halt (core : Nat) (q : Nat)
  /-- MSG (R107) -/
  | msg (core : Nat) (q : Nat)
  /-- WREG (R107) -/
  | wreg (core : Nat) (q : Nat)
  /-- SEM_WAIT (R107) -/
  | semWait (core : Nat) (q : Nat)
  /-- SEM_SIG (R107) -/
  | semSig (core : Nat) (q : Nat)
  /-- SEM_SET (R107) -/
  | semSet (core : Nat) (q : Nat)
  /-- RSIG (R105) -/
  | rsig (core : Nat) (q : Nat)
  /-- FENCE (R105) -/
  | fence (core : Nat) (q : Nat)
  /-- BFENCE (R106) -/
  | bfence (core : Nat) (q : Nat)
  /-- HEAVY (R115) -/
  | heavy (core : Nat) (q : Nat)
  /-- LIGHT (R115) -/
  | light (core : Nat) (q : Nat)
  /-- RESERVATION_START (R351) -/
  | reservationStart (core : Nat)
  /-- RESERVATION_END (R115) -/
  | reservationEnd (core : Nat)
  /-- FORECAST_END (R365): 5 ms after the end of a reservation of this core. -/
  | forecastEnd (core : Nat)
  /-- SLOT_ADV (R86) -/
  | slotAdv (core : Nat) (q : Nat)
  /-- SEED_GO (R87) -/
  | seedGo (core : Nat) (slot : Nat)
  /-- GUARD_UPDATE_DONE (R86) -/
  | guardUpdateDone (core : Nat) (slot : Nat)
  /-- CRC (R107) -/
  | crc (core : Nat) (q : Nat)
  /-- CMP (R107) -/
  | cmp (core : Nat) (q : Nat)
  /-- COPY (R108) -/
  | copy (core : Nat)
  /-- FILL (R108) -/
  | fill (core : Nat)
  /-- XCOPY (R108) -/
  | xcopy (core : Nat)
  /-- FGO (R184) -/
  | fgo (core : Nat)
  /-- MMA (R55) -/
  | mma (core : Nat)
  /-- DRAIN (R56) -/
  | drain (core : Nat)
  /-- DISCARD (R56) -/
  | discard (core : Nat)
  /-- OPX (R66) -/
  | opx (core : Nat)
  /-- EWOP (R68) -/
  | ewop (core : Nat)
  /-- SEG_DOWN (R73) -/
  | segDown (core : Nat)
  /-- SEG_UP (R73) -/
  | segUp (core : Nat)
  /-- MVM (R69) -/
  | mvm (core : Nat)
  /-- CHAIN_STREAM_END (R85) -/
  | chainStreamEnd (core : Nat) (array : Nat) (bank : Nat)
  /-- DRAIN_COMPARE (R62) -/
  | drainCompare (core : Nat) (array : Nat) (bank : Nat) (upsets : List Upset)
  /-- DRAIN_COMMIT (R55) -/
  | drainCommit (core : Nat) (array : Nat) (bank : Nat)
  /-- ARRAY_INPLACE_COMPARE (R63) -/
  | arrayInplaceCompare (core : Nat) (array : Nat) (bank : Nat) (upsets : List Upset)
  /-- MV_BLOCK_CHECK (R71): `upsets` name row within the block and vector. -/
  | mvBlockCheck (core : Nat) (upsets : List Upset)
  /-- MV_INPLACE_COMPARE (R71): over the first `k` entries of the K range. -/
  | mvInplaceCompare (core : Nat) (k : Nat) (upsets : List Upset)
  /-- ADD (R113) -/
  | add (core : Nat)
  /-- MUL (R113) -/
  | mul (core : Nat)
  /-- AXPBY (R113) -/
  | axpby (core : Nat)
  /-- MAX (R113) -/
  | max (core : Nat)
  /-- EXP (R113) -/
  | exp (core : Nat)
  /-- RECIP (R113) -/
  | recip (core : Nat)
  /-- RSQRT (R113) -/
  | rsqrt (core : Nat)
  /-- ROWSUM (R113) -/
  | rowsum (core : Nat)
  /-- ROWMAX (R113) -/
  | rowmax (core : Nat)
  /-- RMSNORM (R113) -/
  | rmsnorm (core : Nat)
  /-- ROPE (R113) -/
  | rope (core : Nat)
  /-- GATE (R113) -/
  | gate (core : Nat)
  /-- CVT (R113) -/
  | cvt (core : Nat)
  /-- KV_APPEND (R133) -/
  | kvAppend (core : Nat)
  /-- ATT_WALK (R136) -/
  | attWalk (core : Nat)
  /-- ATT_MERGE (R141) -/
  | attMerge (core : Nat)
  /-- QUANT_CTRL_WRITE (R50) -/
  | quantCtrlWrite (core : Nat) (val : Word)
  /-- MSG_FIFO_POP (R107) -/
  | msgFifoPop (by_ : Agent) (core : Nat)
  /-- DRAM_READ (R154): bytes at a slice offset; `e1`, `e2` are the disturbances sensed on the first beat by the read
  and by its repetition. -/
  | dramRead (core : Nat) (off : Nat) (len : Nat) (requester : Nat) (e1 e2 : BitVec 272)
  /-- DRAM_WRITE (R155) -/
  | dramWrite (core : Nat) (off : Nat) (data : List Byte) (requester : Nat)
  /-- CE_WRITEBACK (R153) -/
  | ceWriteback (core : Nat) (pch : Nat)
  /-- REFRESH (R156) -/
  | refresh (core : Nat) (pch : Nat)
  /-- SCRUB_ROW (R158) -/
  | scrubRow (core : Nat) (pch : Nat)
  /-- RETRAIN_DUE (R159) -/
  | retrainDue (core : Nat) (pch : Nat)
  /-- RETRAIN_END (R160): whether a passing window was found. -/
  | retrainEnd (core : Nat) (pch : Nat) (pass : Bool)
  /-- CHANNEL_DEAD_DETECT (R166) -/
  | channelDeadDetect (core : Nat) (pch : Nat)
  /-- ROW_SOFT (R163): the word written to TILE.DRAM_REPAIR_CMD. -/
  | rowSoft (by_ : Agent) (site : Nat) (val : Word)
  /-- COL_SOFT (R163) -/
  | colSoft (by_ : Agent) (site : Nat) (val : Word)
  /-- ROW_FUSE (R163) -/
  | rowFuse (by_ : Agent) (site : Nat) (val : Word)
  /-- COL_FUSE (R163) -/
  | colFuse (by_ : Agent) (site : Nat) (val : Word)
  /-- QUERY (R163) -/
  | query (by_ : Agent) (site : Nat) (val : Word)
  /-- CLEAR_SOFT (R163) -/
  | clearSoft (by_ : Agent) (site : Nat) (val : Word)
  /-- SWAP (R165) -/
  | swap (by_ : Agent) (site : Nat) (val : Word)
  /-- RETURN (R168) -/
  | return_ (by_ : Agent) (site : Nat) (val : Word)
  /-- REPAIR_CMD_DONE (R163): `verifyOk` is the verify read of a burned fuse. -/
  | repairCmdDone (site : Nat) (verifyOk : Bool)
  /-- SWAP_COPY_END (R165) -/
  | swapCopyEnd (core : Nat)
  /-- SWAP_REMAP (R165) -/
  | swapRemap (core : Nat)
  /-- SPARE_POISON_FILL_END (R166) -/
  | sparePoisonFillEnd (core : Nat)
  /-- DRAM_INJECT (R170): the word written to TILE.DRAM_INJECT. -/
  | dramInject (by_ : Agent) (site : Nat) (val : Word)
  /-- FULLER_MEM_WRITE (R182): byte offset within the fuller's window (IMEM at 0, DMEM at 0x4000). -/
  | fullerMemWrite (by_ : Agent) (core : Nat) (n : Nat) (off : Nat) (size : Nat) (val : Word)
  /-- LOAD_DONE (R183) -/
  | loadDone (core : Nat) (n : Nat)
  /-- FULLER_STOP (R185) -/
  | fullerStop (core : Nat) (n : Nat)
  /-- FULLER_BASE_INSTR (R173) -/
  | fullerBaseInstr (core : Nat) (n : Nat)
  /-- FLK_BRD (R178) -/
  | flkBrd (core : Nat) (n : Nat)
  /-- FLK_BWR (R178) -/
  | flkBwr (core : Nat) (n : Nat)
  /-- FLK_WLD (R176) -/
  | flkWld (core : Nat) (n : Nat)
  /-- FLK_WST (R176) -/
  | flkWst (core : Nat) (n : Nat)
  /-- FLK_WOP (R176) -/
  | flkWop (core : Nat) (n : Nat)
  /-- FLK_CRC (R176) -/
  | flkCrc (core : Nat) (n : Nat)
  /-- FLK_SXF (R176) -/
  | flkSxf (core : Nat) (n : Nat)
  /-- FLK_MAP (R175) -/
  | flkMap (core : Nat) (n : Nat)
  /-- FLK_SYS_FENCE (R176) -/
  | flkSysFence (core : Nat) (n : Nat)
  /-- FLK_SYS_DONE (R185) -/
  | flkSysDone (core : Nat) (n : Nat)
  /-- FLK_SYS_PET (R186) -/
  | flkSysPet (core : Nat) (n : Nat)
  /-- FLK_SYS_IRQ (R176) -/
  | flkSysIrq (core : Nat) (n : Nat)
  /-- FLK_SYS_MBOX (R176) -/
  | flkSysMbox (core : Nat) (n : Nat)
  /-- FLK_SYS_PTST (R176) -/
  | flkSysPtst (core : Nat) (n : Nat)
  /-- GR_GATHER (R189) -/
  | grGather (core : Nat) (n : Nat)
  /-- GR_REDUCE (R189) -/
  | grReduce (core : Nat) (n : Nat)
  /-- GR_FILL (R189) -/
  | grFill (core : Nat) (n : Nat)
  /-- GR_CHECK (R189) -/
  | grCheck (core : Nat) (n : Nat)
  /-- FULLER_WDOG_EXPIRY (R186) -/
  | fullerWdogExpiry (core : Nat) (n : Nat)
  /-- FULLER_FENCE_TIMEOUT (R186) -/
  | fullerFenceTimeout (core : Nat) (n : Nat)
  /-- MIL_LOAD (R196): `ce` says that a cache error was corrected on the way. -/
  | milLoad (site : Nat) (rd : Nat) (pa : Nat) (size : Nat) (signed : Bool) (pbmt : Pbmt) (err : LineErr)
  /-- MIL_STORE (R196) -/
  | milStore (site : Nat) (pa : Nat) (size : Nat) (val : Word) (page : MilPage)
  /-- MIL_AMO (R195) -/
  | milAmo (site : Nat) (rd : Nat) (op : MilAmo) (pa : Nat) (size : Nat) (operand : Word) (page : MilPage)
  /-- MIL_FETCH (R375): `parity` is an L1I parity error on the line. -/
  | milFetch (site : Nat) (pa : Nat) (mode : MilFetch)
  /-- CBO_CLEAN (R198) -/
  | cboClean (site : Nat) (pa : MilAddr)
  /-- CBO_FLUSH (R198) -/
  | cboFlush (site : Nat) (pa : MilAddr)
  /-- CBO_INVAL (R198) -/
  | cboInval (site : Nat) (pa : MilAddr)
  /-- CBO_ZERO (R198) -/
  | cboZero (site : Nat) (pa : MilAddr)
  /-- MIL_FENCE (R198) -/
  | milFence (site : Nat) (pred : FencePred)
  /-- FENCE_I (R200) -/
  | fenceI (site : Nat)
  /-- SETEIPNUM (R201): file 0 machine, 1 supervisor, 2-4 guest. -/
  | seteipnum (by_ : Agent) (site : Nat) (file : Nat) (identity : Nat)
  /-- FUL_IRQ_POP (R202) -/
  | fulIrqPop (by_ : Agent) (site : Nat)
  /-- WDOG_PET (R204) -/
  | wdogPet (by_ : Agent) (site : Nat) (val : Nat)
  /-- MILLINER_WDOG_WARNING (R204) -/
  | millinerWdogWarning (site : Nat)
  /-- MILLINER_WDOG_EXPIRY (R204) -/
  | millinerWdogExpiry (site : Nat)
  /-- SQ_TAIL_DOORBELL (R213) -/
  | sqTailDoorbell (fn : Nat) (q : Nat) (val : Nat)
  /-- CQ_HEAD_DOORBELL (R213) -/
  | cqHeadDoorbell (fn : Nat) (q : Nat) (val : Nat)
  /-- RING_HEAD_DOORBELL (R218) -/
  | ringHeadDoorbell (fn : Nat) (ring : Nat) (val : Nat)
  /-- SQ_FETCH_DONE (R215): the 64-byte entry the host read brings. -/
  | sqFetchDone (fn : Nat) (sq : Nat) (entry : HostRead)
  /-- CREATE_CQ (R214) -/
  | createCq (fn : Nat) (sq : Nat)
  /-- DELETE_CQ (R214) -/
  | deleteCq (fn : Nat) (sq : Nat)
  /-- CREATE_SQ (R214) -/
  | createSq (fn : Nat) (sq : Nat)
  /-- DELETE_SQ (R214) -/
  | deleteSq (fn : Nat) (sq : Nat)
  /-- CREATE_RING (R214) -/
  | createRing (fn : Nat) (sq : Nat)
  /-- DELETE_RING (R223) -/
  | deleteRing (fn : Nat) (sq : Nat)
  /-- IDENTIFY (R223) -/
  | identify (fn : Nat) (sq : Nat)
  /-- GET_LOG (R223) -/
  | getLog (fn : Nat) (sq : Nat)
  /-- SET_CAP (R345) -/
  | setCap (fn : Nat) (sq : Nat)
  /-- PART_SERVE (R316) -/
  | partServe (fn : Nat) (sq : Nat)
  /-- PART_DRAIN (R316) -/
  | partDrain (fn : Nat) (sq : Nat)
  /-- PART_FENCE (R316) -/
  | partFence (fn : Nat) (sq : Nat)
  /-- PART_RESET (R321) -/
  | partReset (fn : Nat) (sq : Nat)
  /-- PART_REBLOCK (R324): the partial image the host read brings. -/
  | partReblock (fn : Nat) (sq : Nat) (image : HostRead)
  /-- MOD_DRAIN (R317) -/
  | modDrain (fn : Nat) (sq : Nat)
  /-- LOAD (R223) -/
  | load (fn : Nat) (sq : Nat) (data : HostRead)
  /-- READ_OUT (R223) -/
  | readOut (fn : Nat) (sq : Nat)
  /-- ADAPTER_LOAD (R225) -/
  | adapterLoad (fn : Nat) (sq : Nat) (data : HostRead)
  /-- ADAPTER_LOAD_DONE (R225) -/
  | adapterLoadDone (pt : Nat) (adapter : Nat)
  /-- SUBMIT (R224) -/
  | submit (fn : Nat) (sq : Nat) (prompt : HostRead)
  /-- CANCEL (R223) -/
  | cancel (fn : Nat) (sq : Nat)
  /-- KV_SEND (R254) -/
  | kvSend (fn : Nat) (sq : Nat)
  /-- KV_RECV (R254) -/
  | kvRecv (fn : Nat) (sq : Nat) (token : HostRead)
  /-- REFILL (R255) -/
  | refill (fn : Nat) (sq : Nat)
  /-- TOKEN_RING_WRITE (R218): KIND 0 TOKEN, 1 END, 2 LOST, with VALUE. -/
  | tokenRingWrite (pt : Nat) (handle : Nat) (kind : Nat) (value : Nat)
  /-- COAL_US_EXPIRY (R222) -/
  | coalUsExpiry (fn : Nat) (isRing : Bool) (id : Nat)
  /-- PULL_READ (R219) -/
  | pullRead (fn : Nat) (ring : Nat) (size : Nat)
  /-- APERTURE_ACCESS (R210): `data` empty for a read of `len` bytes. -/
  | apertureAccess (fn : Nat) (write : Bool) (off : Nat) (len : Nat) (data : List Byte)
  /-- FN_CTL_WRITE (R231) -/
  | fnCtlWrite (fn : Nat) (val : Word)
  /-- FUNCTION_LEVEL_RESET (R228) -/
  | functionLevelReset (fn : Nat)
  /-- FLR_COMPLETE (R228) -/
  | flrComplete (fn : Nat)
  /-- PERST_ASSERT (R229) -/
  | perstAssert
  /-- PERST_DEASSERT (R301): whether the host's REFCLK is present (R419). -/
  | perstDeassert (refclk : Bool)
  /-- HOT_RESET (R229) -/
  | hotReset
  /-- LINK_DOWN (R229): pull entries popped whose completion was lost, as (function, ring, STREAM). -/
  | linkDown (lost : List (Nat × Nat × Nat))
  /-- LINK_UP (R301): width and speed reached. -/
  | linkUp (width : Nat) (speed : Nat)
  /-- BL_PARTNER_DETECT (R235) -/
  | blPartnerDetect (port : Nat)
  /-- BL_PORT_QUALIFIED (R235): lanes that failed qualification. -/
  | blPortQualified (port : Nat) (badLanes : BitVec 17)
  /-- BL_FLIT_RX (R237) -/
  | blFlitRx (port : Nat) (flit : BlFlit)
  /-- BL_RETRAIN_END (R238): lanes that failed the retrain. -/
  | blRetrainEnd (port : Nat) (badLanes : BitVec 17)
  /-- BL_LANE_FAIL (R239) -/
  | blLaneFail (port : Nat) (lane : Nat)
  /-- BL_PORT_RESUME (R240) -/
  | blPortResume (port : Nat)
  /-- BL_PORT_FENCE (R234) -/
  | blPortFence (by_ : Agent) (port : Nat)
  /-- BL_PORT_UNFENCE (R234) -/
  | blPortUnfence (by_ : Agent) (port : Nat)
  /-- BL_FORWARD (R245): a packet arriving on a port. -/
  | blForward (port : Nat) (pkt : BlPkt)
  /-- BL_CREDIT_WAIT_EXPIRY (R249) -/
  | blCreditWaitExpiry (port : Nat) (vc : Nat)
  /-- SEND_DOORBELL (R252) -/
  | sendDoorbell (by_ : Agent) (die : Nat) (pt : Nat) (val : Word)
  /-- RECV_DOORBELL (R252) -/
  | recvDoorbell (by_ : Agent) (die : Nat) (pt : Nat) (val : Word)
  /-- COLL_DOORBELL (R258) -/
  | collDoorbell (by_ : Agent) (die : Nat) (pt : Nat) (val : Word)
  /-- OPEN (R252) -/
  | open_ (pkt : BlPkt)
  /-- ACCEPT (R252) -/
  | accept (pkt : BlPkt)
  /-- REJECT (R253) -/
  | reject (pkt : BlPkt)
  /-- DATA (R252) -/
  | data (pkt : BlPkt)
  /-- CLOSE (R252) -/
  | close (pkt : BlPkt)
  /-- MISSING (R252) -/
  | missing (pkt : BlPkt)
  /-- DONE (R252) -/
  | done (pkt : BlPkt)
  /-- ABORT (R253) -/
  | abort (pkt : BlPkt)
  /-- REFILL_REQ (R255) -/
  | refillReq (pkt : BlPkt)
  /-- COLL (R262) -/
  | coll (pkt : BlPkt)
  /-- BL_MGMT (R242) -/
  | blMgmt (pkt : BlPkt)
  /-- OPEN_RETRY_TIMER (R252): of a send, by its send number. -/
  | openRetryTimer (xfer : Nat)
  /-- OPEN_TIMEOUT (R253) -/
  | openTimeout (xfer : Nat)
  /-- XFER_INACTIVITY_TIMEOUT (R253) -/
  | xferInactivityTimeout (xfer : Nat)
  /-- COLL_DEADLINE (R259) -/
  | collDeadline (group : Nat)
  /-- COLL_LOST_TIMEOUT (R261): the silent child. -/
  | collLostTimeout (group : Nat) (child : Nat)
  /-- FLEET_SESSION_SETUP (R410): the set-up with a peer ends, with the peer's chain verdict and Hatband firmware SVN. -/
  | fleetSessionSetup (peer : Nat) (chainOk : Bool) (svn : Nat)
  /-- FLEET_SESSION_TIMEOUT (R410) -/
  | fleetSessionTimeout (peer : Nat)
  /-- EPOCH_GRACE_END (R411) -/
  | epochGraceEnd (peer : Nat)
  /-- MESH_FLIT_RX (R266): at endpoint and link number. -/
  | meshFlitRx (endpoint : Nat) (link : Nat) (flit : MeshFlit)
  /-- MESH_LINK_RESUME (R273): wires found failed, data (by group and wire) and sideband, per direction. -/
  | meshLinkResume (endpoint : Nat) (link : Nat) (txBad rxBad : List (Nat × Nat)) (sbBad : Nat) (peerLevel : Nat)
  /-- MESH_LINK_DOWN (R274) -/
  | meshLinkDown (endpoint : Nat) (link : Nat)
  /-- MESH_TABLE_SWITCH (R274): the new tables, as (router, endpoint, route word). -/
  | meshTableSwitch (tables : List (Nat × Nat × Word))
  /-- MESH_LINK_FENCE (R274) -/
  | meshLinkFence (by_ : Agent) (endpoint : Nat) (link : Nat)
  /-- PLL_LOSS_OF_LOCK (R280) -/
  | pllLossOfLock (endpoint : Nat)
  /-- REFCLK_MISSING (R280) -/
  | refclkMissing (die : Nat)
  /-- ACLK_WAKE (R285) -/
  | aclkWake (core : Nat)
  /-- CROSSING_OVERRUN (R286): `core` none when both sides are tile-wide; `link` for a mesh link. -/
  | crossingOverrun (site : Nat) (core : Option Nat) (link : Option Nat)
  /-- INPUT_RISE_40V (R422) -/
  | inputRise40v
  /-- MOD_EN_RISE (R422) -/
  | modEnRise
  /-- MOD_EN_FALL (R423) -/
  | modEnFall
  /-- FIRST_STAGE_OPEN (R423) -/
  | firstStageOpen
  /-- INPUT_BELOW_30V (R422) -/
  | inputBelow30v
  /-- INPUT_SAG (R330): whether BD0's VBRIM_L fell below 0.60 V. -/
  | inputSag (vbrimLost : Bool)
  /-- CARDING_DONE (R292): BD0 firmware verified, REFCLK at BD0, BD0 PLL lock, standby good, and sites found bad. -/
  | cardingDone (fwOk refclkOk pllOk standbyOk : Bool) (bad : List BadUnit)
  /-- BATTING_FLOW_TIMEOUT (R293): flow seen in mL/min. -/
  | battingFlowTimeout (flow : Nat)
  /-- BATTING_DONE (R293): bricks good and phases or rails found bad. -/
  | battingDone (bricks : BitVec 5) (bad : List BadUnit)
  /-- RETENTION_HOLD_END (R294) -/
  | retentionHoldEnd
  /-- FULLING_DONE (R294): management path lost to every site, units and repairs found. -/
  | fullingDone (pathLost : Bool) (bad : FullFound)
  /-- BLOCKING_DONE (R298): a site that stopped answering, if any. -/
  | blockingDone (silent : Option Nat)
  /-- SIZING_DONE (R299): meter calibrated, BD0 diode calibrated, uncalibrated cores and broken monitors. -/
  | sizingDone (meterOk diodeOk : Bool) (bad : List BadUnit)
  /-- FINISHING_DONE (R300) -/
  | finishingDone
  /-- LINK_TRAIN_TIMEOUT (R301) -/
  | linkTrainTimeout
  /-- RESTART (R309): the word written to HB.BOOT_CTL. -/
  | restart (by_ : Agent) (val : Word)
  /-- RESTART_WAIT_END (R309) -/
  | restartWaitEnd
  /-- SITE_BRINGUP_DONE (R324): status of the bring-up (0 OK) of a re-block's sites, and the site that failed. -/
  | siteBringupDone (pt : Nat) (status : Nat) (badSite : Nat)
  /-- FENCE_CORE (R312): the word written to TILE.RESET_CTL. -/
  | fenceCore (by_ : Agent) (site : Nat) (cmask : Nat)
  /-- RESET_CORE (R319) -/
  | resetCore (by_ : Agent) (site : Nat) (cmask : Nat)
  /-- UNFENCE_CORE (R315) -/
  | unfenceCore (by_ : Agent) (site : Nat) (cmask : Nat)
  /-- TEST_CORE (R327) -/
  | testCore (by_ : Agent) (site : Nat) (cmask : Nat)
  /-- FENCE_TILE (R312) -/
  | fenceTile (by_ : Agent) (site : Nat)
  /-- RESET_TILE (R319) -/
  | resetTile (by_ : Agent) (site : Nat)
  /-- UNFENCE_TILE (R315) -/
  | unfenceTile (by_ : Agent) (site : Nat)
  /-- TEST_TILE (R327) -/
  | testTile (by_ : Agent) (site : Nat)
  /-- TEST_DONE (R327): cores that passed. -/
  | testDone (site : Nat) (passed : Nat) (milOk : Bool)
  /-- RESET_DRAIN_END (R319) -/
  | resetDrainEnd (site : Nat)
  /-- BRICK_POLL (R332) -/
  | brickPoll (good : BitVec 5)
  /-- PHASE_LOSS (R335): commanded and measured current in mA. -/
  | phaseLoss (dom : Domain) (phase : Nat) (commanded measured : Nat)
  /-- OVERVOLTAGE_DETECT (R337) -/
  | overvoltageDetect (dom : Domain) (mv : Nat)
  /-- ISOLATION_CHECK (R337) -/
  | isolationCheck (dom : Domain) (mv : Nat)
  /-- VSENSE_CHECK (R334): eight readings in mV; the bit of a sensor is set when the 60 mV difference lasted 1 ms. -/
  | vsenseCheck (core : Nat) (readings : List Nat) (lasted : BitVec 8)
  /-- CORE_PWR_ON (R340) -/
  | corePwrOn (by_ : Agent) (site : Nat) (core : Nat)
  /-- CORE_PWR_RETAIN (R340) -/
  | corePwrRetain (by_ : Agent) (site : Nat) (core : Nat)
  /-- CORE_PWR_OFF (R340) -/
  | corePwrOff (by_ : Agent) (site : Nat) (core : Nat)
  /-- ADMISSION_HEADROOM (R341) -/
  | admissionHeadroom (dom : Domain)
  /-- ADMISSION_TIMEOUT (R341): the row plane's measured current in mA. -/
  | admissionTimeout (dom : Domain)
  /-- RAMP_DONE (R341) -/
  | rampDone (dom : Domain)
  /-- VOLTAGE_MOVE_DONE (R339) -/
  | voltageMoveDone (core : Nat)
  /-- DROOP_ONSET (R342): depth in per cent below the set point, cycles stretched, and the share of the millisecond. -/
  | droopOnset (core : Nat) (depth : Nat) (cycles : Nat) (sharePermille : Nat)
  /-- ESTIMATOR_INTERVAL (R349) -/
  | estimatorInterval (core : Nat)
  /-- GAIN_CALIBRATION (R344): telemetry and estimate sums over 64 µs, and whether a bound was held for 1 ms. -/
  | gainCalibration (core : Nat) (telemetry estimate : Nat) (held : Bool)
  /-- ETA_REFIT (R344): the meter (W, 10 mV) and the sum of all domain telemetry (W). -/
  | etaRefit (meterW : Nat) (meterV : Nat) (domainW : Nat)
  /-- CAP_EVALUATION (R347): the other domains' power by site and the brim domains' power, in mW. -/
  | capEvaluation (otherMw : List (Nat × Nat)) (brimMw : Nat)
  /-- RUNG_UP (R347) -/
  | rungUp
  /-- TEMP_SAMPLE (R357): a reading in 1/16 °C. -/
  | tempSample (sensor : Sensor) (t : Int)
  /-- TRIP_ENABLE_OPEN (R360) -/
  | tripEnableOpen
  /-- SENSOR_MISSING (R354) -/
  | sensorMissing (sensor : Sensor)
  /-- FLOW_UPDATE (R361) -/
  | flowUpdate
  /-- FLOW_PULSE_TIMEOUT (R363) -/
  | flowPulseTimeout
  /-- SLOPE_EVALUATION (R363) -/
  | slopeEvaluation
  /-- COOLANT_TRIP_CHECK (R363) -/
  | coolantTripCheck
  /-- THERMISTOR_SAMPLE (R364): inlet and outlet in 1/16 °C; none when missing for 100 ms. -/
  | thermistorSample (inlet outlet : Option Int)
  /-- LIMIT_UPDATE (R358) -/
  | limitUpdate
  /-- CYCLE_SAMPLE (R367) -/
  | cycleSample
  /-- CYCLE_FLASH_WRITE (R367) -/
  | cycleFlashWrite
  /-- EVENT_DELIVERY (R380) -/
  | eventDelivery
  /-- HATBAND_WDOG_EXPIRY (R375): cause 0 fetch error, 1 watchdog. -/
  | hatbandWdogExpiry (cause : Nat)
  /-- HATBAND_MIRROR (R433) -/
  | hatbandMirror
  /-- GET_VERSION (R405) -/
  | getVersion (t : Transport)
  /-- GET_CAPABILITIES (R405) -/
  | getCapabilities (t : Transport)
  /-- NEGOTIATE_ALGORITHMS (R405): whether the requester offers the four algorithms of R405. -/
  | negotiateAlgorithms (t : Transport) (offersAll : Bool)
  /-- GET_DIGESTS (R405) -/
  | getDigests (t : Transport)
  /-- GET_CERTIFICATE (R405) -/
  | getCertificate (t : Transport) (slot : Nat)
  /-- CHALLENGE (R405) -/
  | challenge (t : Transport) (slot : Nat) (nonce : BitVec 256)
  /-- GET_MEASUREMENTS (R406) -/
  | getMeasurements (t : Transport) (index : Nat)
  /-- MEASUREMENT_READY (R407) -/
  | measurementReady (pt : Nat)
  /-- KEY_EXCHANGE (R405) -/
  | keyExchange (t : Transport) (secret : BitVec 256)
  /-- FINISH (R405): whether the requester's verify data (and, where required, its signature) hold. -/
  | finish (t : Transport) (ok : Bool)
  /-- KEY_UPDATE (R405) -/
  | keyUpdate (t : Transport)
  /-- HEARTBEAT (R405) -/
  | heartbeat (t : Transport)
  /-- END_SESSION (R405) -/
  | endSession (t : Transport)
  /-- VENDOR_DEFINED_REQUEST (R405) -/
  | vendorDefinedRequest (t : Transport) (body : List Byte)
  /-- E2E_ON (R409) -/
  | e2eOn (fn : Nat)
  /-- KEY_PROG (R408) -/
  | keyProg (fn : Nat) (keySet : Nat) (key : BitVec 256)
  /-- K_SET_GO (R408) -/
  | kSetGo (fn : Nat) (keySet : Nat)
  /-- K_SET_STOP (R408) -/
  | kSetStop (fn : Nat) (keySet : Nat)
  /-- QUERY_DEVICE_IDENTIFIERS (R399) -/
  | queryDeviceIdentifiers (t : Transport)
  /-- GET_FIRMWARE_PARAMETERS (R399) -/
  | getFirmwareParameters (t : Transport)
  /-- REQUEST_UPDATE (R399) -/
  | requestUpdate (t : Transport)
  /-- PASS_COMPONENT_TABLE (R399): component identifiers 1-5. -/
  | passComponentTable (t : Transport) (components : List Nat)
  /-- UPDATE_COMPONENT (R399): component identifier and size in bytes. -/
  | updateComponent (t : Transport) (component : Nat) (size : Nat)
  /-- REQUEST_FIRMWARE_DATA (R399): the bytes the answer delivers. -/
  | requestFirmwareData (t : Transport) (bytes : List Byte)
  /-- ACTIVATE_FIRMWARE (R400) -/
  | activateFirmware (t : Transport) (selfContained : Bool)
  /-- GET_STATUS (R399) -/
  | getStatus (t : Transport)
  /-- CANCEL_UPDATE_COMPONENT (R399) -/
  | cancelUpdateComponent (t : Transport)
  /-- CANCEL_UPDATE (R399) -/
  | cancelUpdate (t : Transport)
  /-- CONFIRM (R397) -/
  | confirm (by_ : Agent)
  /-- REVERT (R396) -/
  | revert (by_ : Agent)
  /-- OWNER_ENROLL (R388): over a transport, slot 2-3 and the hash. -/
  | ownerEnroll (t : Transport) (slot : Nat) (hash : BitVec 512)
  /-- REVOCATION_ORDER (R389): a TYPE 5 image. -/
  | revocationOrder (image : List Byte)
  /-- ROLL_CALL (R402) -/
  | rollCall
  /-- DIST_HASH_DONE (R402): the agent of a site. -/
  | distHashDone (site : Nat)
  /-- FULLER_CLAIM_TIMEOUT (R401) -/
  | fullerClaimTimeout (core : Nat) (n : Nat)
  /-- DIST_COMMIT (R403) -/
  | distCommit
  /-- REGISTER_READ_CLEAR (R6): `late` is what the hardware adds in the same cycle. -/
  | registerReadClear (by_ : Agent) (tgt : RegAddr) (size : Nat)
  /-- MILLINER_INSTR (R194) -/
  | millinerInstr (site : Nat) (op : MilInstr)
  /-- VF_ENABLE (R207) -/
  | vfEnable (numVfs : Nat) (enable : Bool)
  /-- MSIX_UNMASK (R221) -/
  | msixUnmask (fn : Nat) (vector : Nat)
  /-- MANAGEMENT_CAP_WRITE (R345): over MCTP, in W. -/
  | managementCapWrite (watts : Nat)
  /-- BRIM_DIE_FENCE (R326) -/
  | brimDieFence (die : Nat)
  /-- FLOW_PULSE (R361) -/
  | flowPulse
  /-- FIRST_STAGE_LATCH_CLEAR (R422) -/
  | firstStageLatchClear
  deriving DecidableEq, Repr

end Sys2Proof
end

