-- ==== Sys2Proof/Decode.lean ====
section
/-! DEFINITION. The command a table word spells. No row of spec/opcode_table.json gives bits: the block's commands are
events and register accesses, not encoded words (the 128-bit commands of 06 are data the sequencer reads in SRAM,
`Sys2Proof.Machine.trapCause` and the fields beside it). Every word is therefore refused. -/

namespace Sys2Proof

/-- The command whose bits are `w`: none, since the table gives no row bits. -/
def decodeTableWord (_nbits _w : Nat) : Option Instr := none

end Sys2Proof
end

