-- ==== Sys2Proof/Config.lean ====
section
/-! DEFINITION. What the manual leaves open (free values, opaque: nothing can evaluate them) and the functions it
names without defining (cryptography, exp). Each constant is named in a row of the assumption log. -/

namespace Sys2Proof.Config

/-- The free values of the model (log 4): entry `k` is the value the k-th open choice takes. The model draws the
next one with its own counter `State.freeCtr`; no rule constrains it. -/
opaque freeNat (k : Nat) : Nat

/-- Which of the three outcomes of R152 an error pattern beyond the code's guarantees has (log 13):
0 detected, 1 miscorrected, otherwise undetected. -/
opaque eccBeyond (mask : BitVec 272) : Nat

/-- The data a miscorrected beat returns (R152, log 13). -/
opaque eccMiscorrect (data : BitVec 256) (mask : BitVec 272) : BitVec 256

/-- SHA-512 (R387, R390, R406): a fixed function the spec names and does not define (log 14). -/
opaque sha512 (bytes : List Byte) : BitVec 512

/-- ECDSA P-521 verification of an image header's signature (R390, R391, log 14). -/
opaque ecdsaOk (pubkey : List Byte) (signed : List Byte) (sig : List Byte) : Bool

/-- The hashes of Strelzon's root keys ROOT0 and ROOT1, programmed at manufacture (R387, log 14). -/
opaque root (k : Nat) : BitVec 512

/-- The measurement of BD0's boot ROM (R406, log 14). -/
opaque bootRom : BitVec 512

/-- HKDF-Expand of a secret with a label (R409, R410, log 14). -/
opaque hkdf (secret : BitVec 256) (label : Nat) (len : Nat) : BitVec 256

/-- AES-256 of one block, for the keystream of R409 (log 14). -/
opaque aesBlock (key : BitVec 256) (block : BitVec 128) : BitVec 128

/-- AES-256-GCM decryption of a SUBMIT prompt (R409): the plaintext when the tag holds (log 14). -/
opaque gcmOpen (key : BitVec 256) (iv : List Byte) (aad : List Byte) (ct : List Byte) (tag : List Byte) :
    Option (List Byte)

/-- AES-256-GCM of a Brimlink packet under a session key (R243): the sealed body and the tag (log 14). -/
opaque blSeal (key : BitVec 256) (salt : Nat) (pn : Nat) (header : Nat) (plain : List Byte) : List Byte × Nat

/-- The plaintext of a Brimlink packet's body when its tag holds (R243, log 14). -/
opaque blOpen (key : BitVec 256) (salt : Nat) (pn : Nat) (header : Nat) (body : List Byte) (tag : Nat) :
    Option (List Byte)

/-- A SPDM or PLDM message body that DSP0274 or DSP0267 defines and the spec does not (R399, R405, log 15). -/
opaque protocolBody (kind : Nat) (k : Nat) : List Byte

/-- The activity estimate of a core in units of 0.125 A: the weights of R343 come from Sizing and are not stated
(log 16). -/
opaque estimate (core : Nat) (k : Nat) : Nat

/-- The conversion efficiency in force before the first refit (R344), above 800, in units of 1/1,000 (log 16). -/
opaque etaFirst : Nat

/-- The content of an IDENTIFY page (R223): its layout is not stated (log 17). -/
opaque identifyPage (page : Nat) (fn : Nat) (k : Nat) : List Byte

/-- The data bytes of an idle or NAK flit (R236, R265): its layout is not stated (log 116). -/
opaque flitFill (seq i : Nat) : Byte

/-- The levels a page 3 of IDENTIFY reports, laid out (R278): its layout is not stated (log 17). -/
opaque levelPage (levels : List Nat) : List Byte

/-- The bytes of a LOAD are a kernel or near-bank program that names FMT 0xC or 0xD (R32): how a kernel is told from other bytes is
not stated (log 119). -/
opaque namesE8 (bytes : List Byte) : Bool

/-- The result of a standard RISC-V instruction of RVA23 beyond the base integer set (R194, log 18). -/
opaque rvResult (instr : BitVec 32) (a b : Word) : Word

/-- Power-up contents that software can see before any rule defines them are zero: one constant, so that the choice
stands in one place (log 2). -/
def resetFill : Nat := 0

/-- Records held by a function buffer (R381). -/
def fnBufferSize : Nat := 1024
/-- Records held by the module log (R381). -/
def moduleLogSize : Nat := 16384
/-- Records held by a milliner ring (R381). -/
def milRingSize : Nat := 64
/-- Records held by the flash store (R380). -/
def flashStoreSize : Nat := 4096
/-- Entries a full token ring may hold back (R218). -/
def ringHoldMax : Nat := 256

end Sys2Proof.Config
end

