-- ==== Sys2Proof/Machine/Regs.lean ====
section
/-! DEFINITION. The register tables of the spec as data: every register with its window, offsets, reset domain and fields
(bits, access code of R5, reset value), and the bit-field arithmetic over 64-bit words. A field whose reset is F or H (R7)
has 0 here until the fuses or the Hatblock image load it (log 2). -/

namespace Sys2Proof.Machine

/-- The registers of the spec, one constructor per register table (and the three registers the spec gives in prose). -/
inductive Reg where
  /-- CORE.CH_REMAP0, CORE.CH_REMAP1 (spec chapter 02, domain MODULE) -/
  | CH_REMAP
  /-- CORE.SRAM_STAT (spec chapter 02, domain CORE) -/
  | SRAM_STAT
  /-- TILE.FW_MAP0 – TILE.FW_MAP3 (spec chapter 02, domain MODULE) -/
  | FW_MAP
  /-- TILE.FW_STAT (spec chapter 02, domain MODULE) -/
  | FW_STAT
  /-- CORE.QUANT_CTRL (spec chapter 03, domain CORE) -/
  | QUANT_CTRL
  /-- CORE.FMT_STAT (spec chapter 03, domain CORE) -/
  | FMT_STAT
  /-- CORE.ARRAY_MAP (spec chapter 04, domain MODULE) -/
  | ARRAY_MAP
  /-- CORE.ARRAY_CFG (spec chapter 04, domain CORE) -/
  | ARRAY_CFG
  /-- CORE.ARRAY_STAT (spec chapter 04, domain CORE) -/
  | ARRAY_STAT
  /-- CORE.ARRAY_BANK (spec chapter 04, domain CORE) -/
  | ARRAY_BANK
  /-- CORE.GUARD_CFG0 – CORE.GUARD_CFG63 (spec chapter 05, domain CORE) -/
  | GUARD_CFG
  /-- CORE.GUARD_HIST0 – CORE.GUARD_HIST63 (spec chapter 05, domain CORE) -/
  | GUARD_HIST
  /-- CORE.GUARD_CTRL (spec chapter 05, domain CORE) -/
  | GUARD_CTRL
  /-- CORE.GUARD_SEED (spec chapter 05, domain CORE) -/
  | GUARD_SEED
  /-- CORE.GUARD_SKEW (spec chapter 05, domain CORE) -/
  | GUARD_SKEW
  /-- CORE.GUARD_STAT0 – CORE.GUARD_STAT63 (spec chapter 05, domain CORE) -/
  | GUARD_STAT
  /-- CORE.QCFG0 – CORE.QCFG3 (spec chapter 06, domain CORE) -/
  | QCFG
  /-- CORE.QPTR0 – CORE.QPTR3 (spec chapter 06, domain CORE) -/
  | QPTR
  /-- CORE.QCTL0 – CORE.QCTL3 (spec chapter 06, domain CORE) -/
  | QCTL
  /-- CORE.QSTAT0 – CORE.QSTAT3 (spec chapter 06, domain CORE) -/
  | QSTAT
  /-- CORE.SEQ_CFG (spec chapter 06, domain CORE) -/
  | SEQ_CFG
  /-- CORE.SEQ_STAT (spec chapter 06, domain CORE) -/
  | SEQ_STAT
  /-- CORE.MSG_FIFO (spec chapter 06, domain CORE) -/
  | MSG_FIFO
  /-- CORE.ATT_STAT (spec chapter 07, domain CORE) -/
  | ATT_STAT
  /-- CORE.ATT_LAST (spec chapter 07, domain CORE) -/
  | ATT_LAST
  /-- CORE.ATT_WORK (spec chapter 07, domain CORE) -/
  | ATT_WORK
  /-- CORE.DRAM_STAT (spec chapter 08, domain MODULE) -/
  | DRAM_STAT
  /-- CORE.DRAM_CH_STAT0 – CORE.DRAM_CH_STAT16 (spec chapter 08, domain MODULE) -/
  | DRAM_CH_STAT
  /-- TILE.DRAM_CFG (spec chapter 08, domain MODULE) -/
  | DRAM_CFG
  /-- TILE.DRAM_INJECT (spec chapter 08, domain MODULE) -/
  | DRAM_INJECT
  /-- TILE.DRAM_REPAIR_CMD (spec chapter 08, domain MODULE) -/
  | DRAM_REPAIR_CMD
  /-- TILE.DRAM_REPAIR_STAT (spec chapter 08, domain MODULE) -/
  | DRAM_REPAIR_STAT
  /-- CORE.FUL_CFG (spec chapter 09, domain CORE) -/
  | FUL_CFG
  /-- CORE.FUL_CTL0 – CORE.FUL_CTL33 (spec chapter 09, domain CORE) -/
  | FUL_CTL
  /-- CORE.FUL_STAT0 – CORE.FUL_STAT33 (spec chapter 09, domain CORE) -/
  | FUL_STAT
  /-- MIL.ID (spec chapter 10, domain MODULE) -/
  | MIL_ID
  /-- MIL.WDOG (spec chapter 10, domain TILE) -/
  | MIL_WDOG
  /-- MIL.ERR_INFO (spec chapter 10, domain TILE) -/
  | MIL_ERR_INFO
  /-- MIL.FUL_IRQ (spec chapter 10, domain TILE) -/
  | MIL_FUL_IRQ
  /-- HIF.FN_CTL (spec chapter 11, domain MODULE) -/
  | FN_CTL
  /-- HIF.FN_STAT (spec chapter 11, domain MODULE) -/
  | FN_STAT
  /-- HIF.ASQ, HIF.ACQ (spec chapter 11, domain MODULE) -/
  | ASQ_ACQ
  /-- HIF.AQ_SIZE (spec chapter 11, domain MODULE) -/
  | AQ_SIZE
  /-- HIF.APERTURE (spec chapter 11, domain MODULE) -/
  | APERTURE
  /-- HIF.ERR_STAT (spec chapter 11, domain MODULE) -/
  | HIF_ERR_STAT
  /-- BL.SELF (spec chapter 12, domain MODULE) -/
  | BL_SELF
  /-- BL.PORT_CFG0 – BL.PORT_CFG15 (spec chapter 12, domain MODULE) -/
  | PORT_CFG
  /-- BL.PORT_STAT0 – BL.PORT_STAT15 (spec chapter 12, domain MODULE) -/
  | PORT_STAT
  /-- BL.ROUTE0 – BL.ROUTE4095 (spec chapter 12, domain MODULE) -/
  | BL_ROUTE
  /-- BL.ALLOW0 – BL.ALLOW7 (spec chapter 12, domain MODULE) -/
  | BL_ALLOW
  /-- BL.GRP_CFG0 – BL.GRP_CFG63 (spec chapter 12, domain MODULE) -/
  | GRP_CFG
  /-- BL.GRP_KIDS0 – BL.GRP_KIDS63 (spec chapter 12, domain MODULE) -/
  | GRP_KIDS
  /-- BL.GRP_STAT0 – BL.GRP_STAT63 (spec chapter 12, domain MODULE) -/
  | GRP_STAT
  /-- BL.SEC_STAT (spec chapter 12, domain MODULE) -/
  | SEC_STAT
  /-- TILE.MESH_LINK0 – TILE.MESH_LINK3 (spec chapter 13, domain MODULE) -/
  | MESH_LINK
  /-- TILE.ROUTE0 – TILE.ROUTE75 (spec chapter 13, domain MODULE) -/
  | ROUTE
  /-- TILE.DIE_ID (spec chapter 13, domain POWER) -/
  | DIE_ID
  /-- TILE.CLK_STAT (spec chapter 13, domain MODULE) -/
  | CLK_STAT
  /-- HB.BOOT_STAGE (spec chapter 14, domain POWER) -/
  | BOOT_STAGE
  /-- HB.BOOT_TIME (spec chapter 14, domain POWER) -/
  | BOOT_TIME
  /-- HB.BOOT_CTL (spec chapter 14, domain POWER) -/
  | BOOT_CTL
  /-- TILE.RESET_CTL (spec chapter 15, domain MODULE) -/
  | RESET_CTL
  /-- TILE.RESET_STAT (spec chapter 15, domain MODULE) -/
  | RESET_STAT
  /-- TILE.CORE_PWR (spec chapter 16, domain MODULE) -/
  | CORE_PWR
  /-- TILE.PWR_CAP (spec chapter 16, domain MODULE) -/
  | PWR_CAP
  /-- TILE.CORE_PWR_STAT0 – TILE.CORE_PWR_STAT3 (spec chapter 16, domain MODULE) -/
  | CORE_PWR_STAT
  /-- TILE.DOM_STAT (spec chapter 16, domain MODULE) -/
  | DOM_STAT
  /-- HB.MOD_CAP (spec chapter 16, domain MODULE) -/
  | MOD_CAP
  /-- HB.PT_CAP0 – HB.PT_CAP7 (spec chapter 16, domain MODULE) -/
  | PT_CAP
  /-- HB.PWR_MEAS (spec chapter 16, domain MODULE) -/
  | PWR_MEAS
  /-- TILE.THERM_STAT (spec chapter 17, domain MODULE) -/
  | THERM_STAT
  /-- HB.COOL_CFG (spec chapter 17, domain MODULE) -/
  | COOL_CFG
  /-- HB.COOL_STAT (spec chapter 17, domain MODULE) -/
  | COOL_STAT
  /-- HB.THERM_LIMITS (spec chapter 17, domain MODULE) -/
  | THERM_LIMITS
  /-- HB.TRIP_LAST (spec chapter 17, domain POWER) -/
  | TRIP_LAST
  /-- HB.EVT_STAT (spec chapter 18, domain POWER) -/
  | EVT_STAT
  /-- MIL.EVT_CFG (spec chapter 18, domain TILE) -/
  | MIL_EVT_CFG
  /-- MIL.EVT_PTR (spec chapter 18, domain TILE) -/
  | MIL_EVT_PTR
  /-- HIF.EVT_CFG (spec chapter 18, domain MODULE) -/
  | HIF_EVT_CFG
  /-- HB.FUSE_STAT (spec chapter 19, domain POWER) -/
  | FUSE_STAT
  /-- HB.SLOT_STAT (spec chapter 19, domain POWER) -/
  | SLOT_STAT
  /-- HB.UPD_CTL (spec chapter 19, domain MODULE) -/
  | UPD_CTL
  /-- HB.DIST_STAT (spec chapter 19, domain MODULE) -/
  | DIST_STAT
  /-- TILE.FW_LAST (02, after TILE.FW_STAT) (spec chapter 02, domain MODULE) -/
  | FW_LAST
  /-- HIF.ERR_DA (11, after HIF.ERR_STAT) (spec chapter 11, domain MODULE) -/
  | HIF_ERR_DA
  /-- TILE.MCAST_MASK (13, after TILE.ROUTE) (spec chapter 13, domain MODULE) -/
  | MCAST_MASK
  deriving DecidableEq, Repr

/-- The reset domains of R7, narrowest first: `core` 0, `tile` 1, `partition` 2, `module` 3, `power` 4. -/
inductive ResetDomain where
  | core | tile | partition | module | power
  deriving DecidableEq, Repr

/-- The access codes of R5. -/
inductive Access where
  | ro | rw | w1c | w1s | rc | wo
  deriving DecidableEq, Repr

/-- A named field of a register: its register and bits [hi:lo]. -/
structure Fld where
  reg : Reg
  hi  : Nat
  lo  : Nat
  deriving DecidableEq, Repr

/-- One field row of a register table. Bits named by no row are RSV. -/
structure FieldRow where
  hi     : Nat
  lo     : Nat
  access : Access
  reset  : Nat
  deriving DecidableEq, Repr

/-- The windows of R23 and R209 a register lies in. -/
inductive Window where
  /-- Core window (R23). -/
  | core
  /-- Milliner window. -/
  | mil
  /-- Tile common window. -/
  | tile
  /-- Window of every brim die. -/
  | bd
  /-- Brim-die window, four ports a die (12). -/
  | bdport
  /-- BD0 window only. -/
  | bd0
  /-- Active Hatband's registers, at +0x800_0000 of its die's window (R23). -/
  | hb
  /-- BAR0 of a function (R209). -/
  | bar0
  deriving DecidableEq, Repr

/-- Where registers of one table lie: copy `i` (i < count) at `base + stride * i`, index `mul * i + add`. -/
structure RegLoc where
  reg    : Reg
  win    : Window
  base   : Nat
  stride : Nat
  count  : Nat
  mul    : Nat
  add    : Nat
  deriving DecidableEq, Repr

/-- A number for each register, for keys. -/
def Reg.num : Reg → Nat
  | .CH_REMAP => 0
  | .SRAM_STAT => 1
  | .FW_MAP => 2
  | .FW_STAT => 3
  | .QUANT_CTRL => 4
  | .FMT_STAT => 5
  | .ARRAY_MAP => 6
  | .ARRAY_CFG => 7
  | .ARRAY_STAT => 8
  | .ARRAY_BANK => 9
  | .GUARD_CFG => 10
  | .GUARD_HIST => 11
  | .GUARD_CTRL => 12
  | .GUARD_SEED => 13
  | .GUARD_SKEW => 14
  | .GUARD_STAT => 15
  | .QCFG => 16
  | .QPTR => 17
  | .QCTL => 18
  | .QSTAT => 19
  | .SEQ_CFG => 20
  | .SEQ_STAT => 21
  | .MSG_FIFO => 22
  | .ATT_STAT => 23
  | .ATT_LAST => 24
  | .ATT_WORK => 25
  | .DRAM_STAT => 26
  | .DRAM_CH_STAT => 27
  | .DRAM_CFG => 28
  | .DRAM_INJECT => 29
  | .DRAM_REPAIR_CMD => 30
  | .DRAM_REPAIR_STAT => 31
  | .FUL_CFG => 32
  | .FUL_CTL => 33
  | .FUL_STAT => 34
  | .MIL_ID => 35
  | .MIL_WDOG => 36
  | .MIL_ERR_INFO => 37
  | .MIL_FUL_IRQ => 38
  | .FN_CTL => 39
  | .FN_STAT => 40
  | .ASQ_ACQ => 41
  | .AQ_SIZE => 42
  | .APERTURE => 43
  | .HIF_ERR_STAT => 44
  | .BL_SELF => 45
  | .PORT_CFG => 46
  | .PORT_STAT => 47
  | .BL_ROUTE => 48
  | .BL_ALLOW => 49
  | .GRP_CFG => 50
  | .GRP_KIDS => 51
  | .GRP_STAT => 52
  | .SEC_STAT => 53
  | .MESH_LINK => 54
  | .ROUTE => 55
  | .DIE_ID => 56
  | .CLK_STAT => 57
  | .BOOT_STAGE => 58
  | .BOOT_TIME => 59
  | .BOOT_CTL => 60
  | .RESET_CTL => 61
  | .RESET_STAT => 62
  | .CORE_PWR => 63
  | .PWR_CAP => 64
  | .CORE_PWR_STAT => 65
  | .DOM_STAT => 66
  | .MOD_CAP => 67
  | .PT_CAP => 68
  | .PWR_MEAS => 69
  | .THERM_STAT => 70
  | .COOL_CFG => 71
  | .COOL_STAT => 72
  | .THERM_LIMITS => 73
  | .TRIP_LAST => 74
  | .EVT_STAT => 75
  | .MIL_EVT_CFG => 76
  | .MIL_EVT_PTR => 77
  | .HIF_EVT_CFG => 78
  | .FUSE_STAT => 79
  | .SLOT_STAT => 80
  | .UPD_CTL => 81
  | .DIST_STAT => 82
  | .FW_LAST => 83
  | .HIF_ERR_DA => 84
  | .MCAST_MASK => 85

/-- The reset domain each register table states. -/
def Reg.domain : Reg → ResetDomain
  | .CH_REMAP => .module
  | .SRAM_STAT => .core
  | .FW_MAP => .module
  | .FW_STAT => .module
  | .QUANT_CTRL => .core
  | .FMT_STAT => .core
  | .ARRAY_MAP => .module
  | .ARRAY_CFG => .core
  | .ARRAY_STAT => .core
  | .ARRAY_BANK => .core
  | .GUARD_CFG => .core
  | .GUARD_HIST => .core
  | .GUARD_CTRL => .core
  | .GUARD_SEED => .core
  | .GUARD_SKEW => .core
  | .GUARD_STAT => .core
  | .QCFG => .core
  | .QPTR => .core
  | .QCTL => .core
  | .QSTAT => .core
  | .SEQ_CFG => .core
  | .SEQ_STAT => .core
  | .MSG_FIFO => .core
  | .ATT_STAT => .core
  | .ATT_LAST => .core
  | .ATT_WORK => .core
  | .DRAM_STAT => .module
  | .DRAM_CH_STAT => .module
  | .DRAM_CFG => .module
  | .DRAM_INJECT => .module
  | .DRAM_REPAIR_CMD => .module
  | .DRAM_REPAIR_STAT => .module
  | .FUL_CFG => .core
  | .FUL_CTL => .core
  | .FUL_STAT => .core
  | .MIL_ID => .module
  | .MIL_WDOG => .tile
  | .MIL_ERR_INFO => .tile
  | .MIL_FUL_IRQ => .tile
  | .FN_CTL => .module
  | .FN_STAT => .module
  | .ASQ_ACQ => .module
  | .AQ_SIZE => .module
  | .APERTURE => .module
  | .HIF_ERR_STAT => .module
  | .BL_SELF => .module
  | .PORT_CFG => .module
  | .PORT_STAT => .module
  | .BL_ROUTE => .module
  | .BL_ALLOW => .module
  | .GRP_CFG => .module
  | .GRP_KIDS => .module
  | .GRP_STAT => .module
  | .SEC_STAT => .module
  | .MESH_LINK => .module
  | .ROUTE => .module
  | .DIE_ID => .power
  | .CLK_STAT => .module
  | .BOOT_STAGE => .power
  | .BOOT_TIME => .power
  | .BOOT_CTL => .power
  | .RESET_CTL => .module
  | .RESET_STAT => .module
  | .CORE_PWR => .module
  | .PWR_CAP => .module
  | .CORE_PWR_STAT => .module
  | .DOM_STAT => .module
  | .MOD_CAP => .module
  | .PT_CAP => .module
  | .PWR_MEAS => .module
  | .THERM_STAT => .module
  | .COOL_CFG => .module
  | .COOL_STAT => .module
  | .THERM_LIMITS => .module
  | .TRIP_LAST => .power
  | .EVT_STAT => .power
  | .MIL_EVT_CFG => .tile
  | .MIL_EVT_PTR => .tile
  | .HIF_EVT_CFG => .module
  | .FUSE_STAT => .power
  | .SLOT_STAT => .power
  | .UPD_CTL => .module
  | .DIST_STAT => .module
  | .FW_LAST => .module
  | .HIF_ERR_DA => .module
  | .MCAST_MASK => .module

/-- The fields of each register (of word `idx % 8` for the eight words of CORE.GUARD_STATn). -/
def Reg.fields : Reg → Nat → List FieldRow
  | .CH_REMAP, _ => [⟨60, 56, .ro, 0⟩, ⟨52, 48, .ro, 0⟩, ⟨44, 40, .ro, 0⟩, ⟨36, 32, .ro, 0⟩, ⟨28, 24, .ro, 0⟩,
     ⟨20, 16, .ro, 0⟩, ⟨12, 8, .ro, 0⟩, ⟨4, 0, .ro, 0⟩]
  | .SRAM_STAT, _ => [⟨63, 48, .rc, 0⟩, ⟨47, 32, .rc, 0⟩, ⟨31, 8, .rc, 0⟩, ⟨7, 3, .ro, 0⟩, ⟨2, 2, .ro, 0⟩, ⟨1, 1, .ro, 0⟩]
  | .FW_MAP, _ => [⟨63, 63, .ro, 0⟩, ⟨59, 59, .ro, 0⟩, ⟨55, 55, .ro, 0⟩, ⟨51, 51, .ro, 0⟩, ⟨47, 47, .ro, 0⟩,
     ⟨43, 43, .ro, 0⟩, ⟨39, 39, .ro, 0⟩, ⟨35, 35, .ro, 0⟩, ⟨31, 31, .ro, 0⟩, ⟨27, 27, .ro, 0⟩,
     ⟨23, 23, .ro, 0⟩, ⟨19, 19, .ro, 0⟩, ⟨15, 15, .ro, 0⟩, ⟨11, 11, .ro, 0⟩, ⟨7, 7, .ro, 0⟩,
     ⟨3, 3, .ro, 0⟩, ⟨62, 60, .ro, 0⟩, ⟨58, 56, .ro, 0⟩, ⟨54, 52, .ro, 0⟩, ⟨50, 48, .ro, 0⟩,
     ⟨46, 44, .ro, 0⟩, ⟨42, 40, .ro, 0⟩, ⟨38, 36, .ro, 0⟩, ⟨34, 32, .ro, 0⟩, ⟨30, 28, .ro, 0⟩,
     ⟨26, 24, .ro, 0⟩, ⟨22, 20, .ro, 0⟩, ⟨18, 16, .ro, 0⟩, ⟨14, 12, .ro, 0⟩, ⟨10, 8, .ro, 0⟩,
     ⟨6, 4, .ro, 0⟩, ⟨2, 0, .ro, 0⟩]
  | .FW_STAT, _ => [⟨63, 32, .rc, 0⟩, ⟨28, 28, .ro, 0⟩, ⟨27, 25, .ro, 0⟩, ⟨24, 24, .ro, 0⟩]
  | .QUANT_CTRL, _ => [⟨63, 32, .rw, 1⟩, ⟨15, 14, .rw, 1⟩, ⟨13, 13, .rw, 0⟩, ⟨12, 12, .rw, 0⟩]
  | .FMT_STAT, _ => [⟨63, 48, .rc, 0⟩, ⟨47, 32, .rc, 0⟩, ⟨31, 16, .rc, 0⟩, ⟨15, 8, .rc, 0⟩]
  | .ARRAY_MAP, _ => [⟨44, 40, .ro, 0⟩, ⟨36, 36, .ro, 0⟩, ⟨34, 32, .ro, 0⟩, ⟨26, 24, .ro, 0⟩, ⟨18, 16, .ro, 0⟩,
     ⟨10, 8, .ro, 0⟩, ⟨2, 0, .ro, 0⟩]
  | .ARRAY_CFG, _ => [⟨12, 8, .rw, 12⟩, ⟨7, 4, .ro, 0⟩, ⟨1, 0, .ro, 0⟩]
  | .ARRAY_STAT, _ => [⟨63, 48, .rc, 0⟩, ⟨47, 32, .rc, 0⟩, ⟨31, 16, .rc, 0⟩, ⟨15, 8, .rc, 0⟩, ⟨7, 4, .ro, 15⟩]
  | .ARRAY_BANK, _ => [⟨31, 30, .ro, 0⟩, ⟨29, 28, .ro, 0⟩, ⟨27, 26, .ro, 0⟩, ⟨25, 24, .ro, 0⟩, ⟨23, 22, .ro, 0⟩,
     ⟨21, 20, .ro, 0⟩, ⟨19, 18, .ro, 0⟩, ⟨17, 16, .ro, 0⟩, ⟨15, 14, .ro, 0⟩, ⟨13, 12, .ro, 0⟩,
     ⟨11, 10, .ro, 0⟩, ⟨9, 8, .ro, 0⟩, ⟨7, 6, .ro, 0⟩, ⟨5, 4, .ro, 0⟩, ⟨3, 2, .ro, 0⟩, ⟨1, 0, .ro, 0⟩]
  | .GUARD_CFG, _ => [⟨63, 63, .wo, 0⟩, ⟨62, 59, .ro, 0⟩, ⟨58, 58, .ro, 0⟩, ⟨57, 42, .rw, 0xffff⟩, ⟨41, 31, .rw, 0⟩,
     ⟨30, 27, .rw, 6⟩, ⟨26, 23, .rw, 12⟩, ⟨22, 19, .rw, 3⟩, ⟨18, 17, .rw, 0⟩, ⟨16, 13, .rw, 8⟩,
     ⟨0, 0, .rw, 0⟩]
  | .GUARD_HIST, _ => [⟨22, 6, .rw, 0⟩]
  | .GUARD_CTRL, _ => [⟨2, 2, .rw, 1⟩, ⟨1, 1, .rw, 1⟩]
  | .GUARD_SEED, _ => [⟨31, 0, .rw, 0x3f800000⟩]
  | .GUARD_SKEW, _ => [⟨63, 48, .rc, 0⟩, ⟨47, 44, .ro, 0⟩, ⟨43, 40, .ro, 0⟩, ⟨39, 38, .ro, 0⟩, ⟨37, 36, .ro, 0⟩,
     ⟨35, 32, .ro, 0⟩, ⟨31, 0, .ro, 0⟩]
  | .GUARD_STAT, i =>
    match i % 8 with
    | 0 => [⟨63, 48, .rc, 0⟩, ⟨47, 32, .rc, 0⟩, ⟨31, 16, .rc, 0⟩]
    | 1 => [⟨63, 32, .rc, 0⟩, ⟨31, 0, .rc, 0⟩]
    | 2 => [⟨63, 32, .rc, 0⟩, ⟨31, 0, .rc, 0⟩]
    | 3 => [⟨63, 0, .rc, 0⟩]
    | _ => [⟨63, 32, .rc, 0⟩, ⟨31, 0, .rc, 0⟩]
  | .QCFG, _ => [⟨21, 5, .rw, 0⟩, ⟨4, 1, .rw, 0⟩, ⟨0, 0, .rw, 0⟩]
  | .QPTR, _ => [⟨31, 16, .rw, 0⟩, ⟨15, 0, .ro, 0⟩]
  | .QCTL, _ => [⟨2, 2, .wo, 0⟩, ⟨1, 1, .wo, 0⟩, ⟨0, 0, .wo, 0⟩]
  | .QSTAT, _ => [⟨63, 48, .rc, 0⟩, ⟨47, 32, .ro, 0⟩, ⟨31, 16, .ro, 0⟩, ⟨15, 8, .ro, 0⟩, ⟨7, 4, .ro, 0⟩, ⟨3, 3, .ro, 0⟩,
     ⟨2, 0, .ro, 0⟩]
  | .SEQ_CFG, _ => [⟨39, 24, .rw, 0⟩, ⟨16, 0, .rw, 0⟩]
  | .SEQ_STAT, _ => [⟨63, 32, .rc, 0⟩, ⟨31, 16, .rc, 0⟩, ⟨15, 0, .rc, 0⟩]
  | .MSG_FIFO, _ => [⟨63, 63, .rc, 0⟩, ⟨33, 32, .rc, 0⟩, ⟨31, 0, .rc, 0⟩]
  | .ATT_STAT, _ => [⟨63, 48, .rc, 0⟩, ⟨47, 32, .rc, 0⟩, ⟨31, 16, .rc, 0⟩, ⟨15, 8, .rc, 0⟩, ⟨7, 0, .rc, 0⟩]
  | .ATT_LAST, _ => [⟨63, 56, .ro, 0⟩, ⟨55, 54, .ro, 0⟩, ⟨53, 46, .ro, 0⟩, ⟨45, 30, .ro, 0⟩, ⟨24, 0, .ro, 0⟩]
  | .ATT_WORK, _ => [⟨63, 24, .rc, 0⟩, ⟨23, 0, .rc, 0⟩]
  | .DRAM_STAT, _ => [⟨63, 48, .rc, 0⟩, ⟨47, 32, .rc, 0⟩, ⟨31, 8, .rc, 0⟩, ⟨7, 6, .ro, 0⟩, ⟨3, 0, .ro, 0⟩]
  | .DRAM_CH_STAT, _ => [⟨63, 48, .rc, 0⟩, ⟨47, 40, .rc, 0⟩, ⟨39, 32, .rc, 0⟩, ⟨31, 28, .rc, 0⟩, ⟨27, 21, .ro, 127⟩,
     ⟨20, 17, .ro, 0⟩, ⟨16, 6, .ro, 0⟩, ⟨5, 3, .ro, 0⟩, ⟨2, 2, .ro, 0⟩, ⟨1, 1, .ro, 0⟩]
  | .DRAM_CFG, _ => [⟨47, 39, .rw, 100⟩, ⟨38, 34, .rw, 4⟩, ⟨33, 28, .rw, 16⟩, ⟨27, 24, .rw, 8⟩, ⟨23, 23, .rw, 0⟩]
  | .DRAM_INJECT, _ => [⟨63, 63, .w1s, 0⟩, ⟨62, 61, .rw, 0⟩, ⟨60, 59, .rw, 0⟩, ⟨58, 50, .rw, 0⟩, ⟨49, 41, .rw, 0⟩,
     ⟨40, 39, .ro, 0⟩, ⟨24, 0, .rw, 0⟩]
  | .DRAM_REPAIR_CMD, _ => [⟨63, 60, .wo, 0⟩, ⟨59, 58, .rw, 0⟩, ⟨57, 53, .rw, 0⟩, ⟨52, 49, .rw, 0⟩, ⟨48, 38, .rw, 0⟩,
     ⟨37, 32, .rw, 0⟩, ⟨31, 28, .rw, 0⟩, ⟨27, 27, .rw, 0⟩]
  | .DRAM_REPAIR_STAT, _ => [⟨63, 63, .ro, 0⟩, ⟨55, 48, .ro, 0⟩, ⟨47, 42, .ro, 0⟩, ⟨41, 38, .ro, 0⟩]
  | .FUL_CFG, _ => [⟨2, 0, .rw, 6⟩]
  | .FUL_CTL, _ => [⟨63, 32, .rw, 0⟩, ⟨31, 31, .w1s, 0⟩, ⟨16, 16, .w1s, 0⟩, ⟨0, 0, .wo, 0⟩]
  | .FUL_STAT, _ => [⟨63, 48, .rc, 0⟩, ⟨47, 40, .ro, 0⟩, ⟨39, 36, .ro, 0⟩, ⟨35, 22, .ro, 0⟩, ⟨18, 18, .ro, 0⟩,
     ⟨17, 17, .ro, 0⟩, ⟨2, 0, .ro, 0⟩]
  | .MIL_ID, _ => [⟨19, 19, .ro, 0⟩, ⟨18, 16, .ro, 0⟩, ⟨13, 8, .ro, 0⟩, ⟨7, 7, .ro, 0⟩, ⟨6, 0, .ro, 0⟩]
  | .MIL_WDOG, _ => [⟨39, 16, .ro, 0⟩, ⟨8, 8, .ro, 0⟩, ⟨7, 0, .wo, 0⟩]
  | .MIL_ERR_INFO, _ => [⟨63, 56, .ro, 0⟩, ⟨49, 48, .ro, 0⟩, ⟨47, 0, .ro, 0⟩]
  | .MIL_FUL_IRQ, _ => [⟨63, 63, .rc, 0⟩, ⟨39, 38, .rc, 0⟩, ⟨37, 32, .rc, 0⟩, ⟨31, 0, .rc, 0⟩]
  | .FN_CTL, _ => [⟨0, 0, .rw, 0⟩]
  | .FN_STAT, _ => [⟨23, 20, .ro, 0⟩, ⟨19, 19, .ro, 0⟩, ⟨18, 16, .ro, 0⟩, ⟨11, 11, .ro, 0⟩, ⟨10, 8, .ro, 0⟩, ⟨0, 0, .ro, 0⟩]
  | .ASQ_ACQ, _ => [⟨63, 6, .rw, 0⟩]
  | .AQ_SIZE, _ => [⟨27, 16, .rw, 0⟩, ⟨11, 0, .rw, 0⟩]
  | .APERTURE, _ => [⟨11, 0, .rw, 0⟩]
  | .HIF_ERR_STAT, _ => [⟨63, 48, .rc, 0⟩, ⟨47, 40, .rc, 0⟩, ⟨39, 32, .rc, 0⟩, ⟨31, 24, .rc, 0⟩, ⟨23, 16, .ro, 0⟩]
  | .BL_SELF, _ => [⟨19, 16, .ro, 1⟩, ⟨11, 0, .ro, 0⟩]
  | .PORT_CFG, _ => [⟨8, 8, .rw, 0⟩, ⟨7, 6, .rw, 0⟩, ⟨3, 2, .ro, 0⟩]
  | .PORT_STAT, _ => [⟨63, 48, .rc, 0⟩, ⟨47, 32, .rc, 0⟩, ⟨31, 15, .ro, 0⟩, ⟨14, 12, .rc, 0⟩, ⟨11, 11, .ro, 0⟩,
     ⟨10, 8, .ro, 0⟩, ⟨7, 4, .ro, 0⟩, ⟨2, 0, .ro, 0⟩]
  | .BL_ROUTE, _ => [⟨10, 10, .rw, 0⟩, ⟨9, 9, .rw, 0⟩, ⟨7, 4, .rw, 0⟩, ⟨3, 0, .rw, 0⟩]
  | .BL_ALLOW, _ => [⟨63, 0, .ro, 0⟩]
  | .GRP_CFG, _ => [⟨63, 63, .rw, 0⟩, ⟨62, 62, .rw, 0⟩, ⟨61, 61, .rw, 0⟩, ⟨60, 57, .rw, 0⟩, ⟨56, 54, .rw, 0⟩,
     ⟨53, 42, .rw, 0⟩, ⟨41, 30, .rw, 0⟩, ⟨29, 18, .rw, 0⟩, ⟨17, 8, .rw, 100⟩, ⟨7, 0, .rw, 100⟩]
  | .GRP_KIDS, _ => [⟨63, 48, .rw, 0⟩, ⟨47, 36, .rw, 0⟩, ⟨35, 24, .rw, 0⟩, ⟨23, 12, .rw, 0⟩, ⟨11, 0, .rw, 0⟩]
  | .GRP_STAT, _ => [⟨63, 48, .ro, 0⟩, ⟨47, 32, .rc, 0⟩, ⟨31, 16, .rc, 0⟩, ⟨15, 8, .ro, 0⟩, ⟨7, 0, .rc, 0⟩]
  | .SEC_STAT, _ => [⟨63, 32, .rc, 0⟩, ⟨31, 16, .rc, 0⟩, ⟨15, 0, .rc, 0⟩]
  | .MESH_LINK, _ => [⟨63, 48, .rc, 0⟩, ⟨47, 40, .rc, 0⟩, ⟨39, 32, .ro, 0⟩, ⟨31, 26, .ro, 0⟩, ⟨25, 24, .ro, 0⟩,
     ⟨16, 16, .rw, 0⟩, ⟨15, 12, .ro, 0⟩, ⟨11, 10, .ro, 0⟩, ⟨9, 8, .ro, 0⟩, ⟨2, 0, .ro, 0⟩]
  | .ROUTE, _ => [⟨17, 17, .ro, 0⟩, ⟨16, 16, .ro, 0⟩, ⟨11, 9, .ro, 0⟩, ⟨8, 6, .ro, 0⟩, ⟨5, 3, .ro, 0⟩, ⟨2, 0, .ro, 0⟩]
  | .DIE_ID, _ => [⟨63, 24, .ro, 0⟩, ⟨16, 16, .ro, 0⟩, ⟨15, 9, .ro, 0⟩, ⟨8, 8, .ro, 0⟩, ⟨6, 0, .ro, 0⟩]
  | .CLK_STAT, _ => [⟨63, 48, .rc, 0⟩, ⟨47, 16, .rc, 0⟩, ⟨15, 8, .ro, 0⟩, ⟨1, 1, .ro, 0⟩, ⟨0, 0, .ro, 0⟩]
  | .BOOT_STAGE, _ => [⟨63, 32, .ro, 0⟩, ⟨31, 24, .ro, 0⟩, ⟨23, 20, .ro, 0⟩, ⟨19, 16, .ro, 1⟩, ⟨15, 14, .ro, 0⟩,
     ⟨7, 0, .rc, 0⟩]
  | .BOOT_TIME, _ => [⟨31, 0, .ro, 0⟩]
  | .BOOT_CTL, _ => [⟨3, 1, .rw, 0⟩, ⟨0, 0, .wo, 0⟩]
  | .RESET_CTL, _ => [⟨63, 60, .wo, 0⟩, ⟨59, 56, .rw, 0⟩]
  | .RESET_STAT, _ => [⟨63, 63, .ro, 0⟩, ⟨55, 48, .ro, 0⟩, ⟨47, 40, .rc, 0⟩, ⟨39, 36, .ro, 0⟩, ⟨31, 28, .ro, 0⟩,
     ⟨24, 24, .ro, 0⟩, ⟨15, 12, .ro, 0⟩, ⟨11, 8, .ro, 0⟩, ⟨7, 4, .ro, 0⟩, ⟨3, 0, .ro, 0⟩]
  | .CORE_PWR, _ => [⟨13, 12, .rw, 0⟩, ⟨9, 8, .rw, 0⟩, ⟨5, 4, .rw, 0⟩, ⟨1, 0, .rw, 0⟩]
  | .PWR_CAP, _ => [⟨15, 0, .rw, 0⟩]
  | .CORE_PWR_STAT, _ => [⟨63, 56, .ro, 0⟩, ⟨55, 48, .ro, 0⟩, ⟨47, 43, .ro, 0⟩, ⟨42, 41, .ro, 0⟩, ⟨40, 39, .ro, 0⟩,
     ⟨38, 35, .ro, 0⟩, ⟨34, 33, .ro, 0⟩, ⟨32, 32, .ro, 0⟩, ⟨31, 31, .rc, 0⟩, ⟨30, 30, .ro, 0⟩,
     ⟨27, 24, .ro, 0⟩, ⟨15, 0, .ro, 4096⟩]
  | .DOM_STAT, _ => [⟨63, 48, .rc, 0⟩, ⟨15, 12, .ro, 0⟩, ⟨7, 0, .ro, 0⟩]
  | .MOD_CAP, _ => [⟨63, 48, .ro, 3000⟩, ⟨47, 32, .ro, 3000⟩, ⟨31, 16, .ro, 3000⟩, ⟨15, 0, .rw, 3000⟩]
  | .PT_CAP, _ => [⟨31, 16, .ro, 0⟩, ⟨15, 0, .ro, 0⟩]
  | .PWR_MEAS, _ => [⟨63, 48, .ro, 0⟩, ⟨47, 32, .ro, 0⟩, ⟨31, 22, .ro, 0⟩, ⟨4, 0, .ro, 0⟩]
  | .THERM_STAT, _ => [⟨63, 48, .ro, 0⟩, ⟨47, 32, .ro, 0⟩, ⟨31, 27, .ro, 0⟩, ⟨26, 23, .ro, 0⟩, ⟨22, 22, .ro, 0⟩,
     ⟨21, 21, .ro, 0⟩, ⟨18, 0, .ro, 0⟩]
  | .COOL_CFG, _ => [⟨63, 48, .rw, 3000⟩, ⟨47, 32, .rw, 600⟩, ⟨31, 31, .rw, 0⟩, ⟨30, 24, .rw, 98⟩, ⟨23, 16, .rw, 4⟩]
  | .COOL_STAT, _ => [⟨63, 48, .ro, 0⟩, ⟨47, 36, .ro, 0⟩, ⟨35, 24, .ro, 0⟩, ⟨23, 21, .ro, 0⟩, ⟨20, 20, .ro, 0⟩,
     ⟨19, 19, .ro, 0⟩, ⟨18, 17, .ro, 0⟩]
  | .THERM_LIMITS, _ => [⟨63, 48, .ro, 3000⟩, ⟨47, 32, .ro, 3000⟩, ⟨31, 16, .ro, 3000⟩, ⟨15, 0, .ro, 3000⟩]
  | .TRIP_LAST, _ => [⟨63, 32, .ro, 0⟩, ⟨31, 29, .ro, 0⟩, ⟨28, 22, .ro, 0⟩, ⟨21, 6, .ro, 0⟩]
  | .EVT_STAT, _ => [⟨63, 32, .ro, 0⟩, ⟨31, 16, .ro, 0⟩, ⟨0, 0, .ro, 0⟩]
  | .MIL_EVT_CFG, _ => [⟨9, 8, .rw, 0⟩, ⟨7, 0, .rw, 255⟩]
  | .MIL_EVT_PTR, _ => [⟨63, 48, .rc, 0⟩, ⟨13, 8, .ro, 0⟩, ⟨5, 0, .rw, 0⟩]
  | .HIF_EVT_CFG, _ => [⟨9, 8, .rw, 1⟩, ⟨7, 0, .rw, 255⟩]
  | .FUSE_STAT, _ => [⟨63, 60, .ro, 0⟩, ⟨59, 56, .ro, 0⟩, ⟨55, 55, .ro, 0⟩, ⟨27, 21, .ro, 0⟩, ⟨20, 14, .ro, 0⟩,
     ⟨13, 7, .ro, 0⟩, ⟨6, 0, .ro, 0⟩]
  | .SLOT_STAT, _ => [⟨63, 48, .ro, 0⟩, ⟨47, 32, .ro, 0⟩, ⟨15, 13, .ro, 0⟩, ⟨12, 10, .ro, 0⟩, ⟨3, 1, .ro, 0⟩, ⟨0, 0, .ro, 0⟩]
  | .UPD_CTL, _ => [⟨3, 3, .ro, 0⟩, ⟨2, 2, .wo, 0⟩, ⟨0, 0, .wo, 0⟩]
  | .DIST_STAT, _ => [⟨63, 48, .ro, 0⟩, ⟨47, 32, .ro, 0⟩, ⟨31, 24, .ro, 0⟩, ⟨23, 22, .ro, 0⟩, ⟨21, 19, .ro, 0⟩,
     ⟨18, 16, .ro, 0⟩]
  | .FW_LAST, _ => [⟨47, 0, .ro, 0⟩]
  | .HIF_ERR_DA, _ => [⟨47, 0, .ro, 0⟩]
  | .MCAST_MASK, _ => [⟨4, 0, .ro, 0⟩]

/-- Where every register lies (the offsets of the register tables). -/
def regLocs : List RegLoc :=
  [⟨.CH_REMAP, .core, 0x4000, 0x8, 2, 1, 0⟩,
   ⟨.SRAM_STAT, .core, 0x4100, 0x8, 1, 1, 0⟩,
   ⟨.FW_MAP, .tile, 0x1000, 0x8, 4, 1, 0⟩,
   ⟨.FW_STAT, .tile, 0x1020, 0x8, 1, 1, 0⟩,
   ⟨.QUANT_CTRL, .core, 0x4200, 0x8, 1, 1, 0⟩,
   ⟨.FMT_STAT, .core, 0x4208, 0x8, 1, 1, 0⟩,
   ⟨.ARRAY_MAP, .core, 0x5000, 0x8, 1, 1, 0⟩,
   ⟨.ARRAY_CFG, .core, 0x5008, 0x8, 1, 1, 0⟩,
   ⟨.ARRAY_STAT, .core, 0x5010, 0x8, 1, 1, 0⟩,
   ⟨.ARRAY_BANK, .core, 0x5018, 0x8, 1, 1, 0⟩,
   ⟨.GUARD_CFG, .core, 0x6000, 0x10, 64, 1, 0⟩,
   ⟨.GUARD_HIST, .core, 0x6008, 0x10, 64, 1, 0⟩] ++
  [⟨.GUARD_CTRL, .core, 0x6400, 0x8, 1, 1, 0⟩,
   ⟨.GUARD_SEED, .core, 0x6408, 0x8, 1, 1, 0⟩,
   ⟨.GUARD_SKEW, .core, 0x6410, 0x8, 1, 1, 0⟩,
   ⟨.GUARD_STAT, .core, 0x6800, 0x8, 512, 1, 0⟩,
   ⟨.QCFG, .core, 0x0, 0x20, 4, 1, 0⟩,
   ⟨.QPTR, .core, 0x8, 0x20, 4, 1, 0⟩,
   ⟨.QCTL, .core, 0x10, 0x20, 4, 1, 0⟩,
   ⟨.QSTAT, .core, 0x18, 0x20, 4, 1, 0⟩,
   ⟨.SEQ_CFG, .core, 0x80, 0x8, 1, 1, 0⟩,
   ⟨.SEQ_STAT, .core, 0x88, 0x8, 1, 1, 0⟩,
   ⟨.MSG_FIFO, .core, 0x90, 0x8, 1, 1, 0⟩,
   ⟨.ATT_STAT, .core, 0x7800, 0x8, 1, 1, 0⟩] ++
  [⟨.ATT_LAST, .core, 0x7808, 0x8, 1, 1, 0⟩,
   ⟨.ATT_WORK, .core, 0x7810, 0x8, 1, 1, 0⟩,
   ⟨.DRAM_STAT, .core, 0x8000, 0x8, 1, 1, 0⟩,
   ⟨.DRAM_CH_STAT, .core, 0x8100, 0x8, 17, 1, 0⟩,
   ⟨.DRAM_CFG, .tile, 0x2000, 0x8, 1, 1, 0⟩,
   ⟨.DRAM_INJECT, .tile, 0x2010, 0x8, 1, 1, 0⟩,
   ⟨.DRAM_REPAIR_CMD, .tile, 0x2100, 0x8, 1, 1, 0⟩,
   ⟨.DRAM_REPAIR_STAT, .tile, 0x2108, 0x8, 1, 1, 0⟩,
   ⟨.FUL_CFG, .core, 0x9000, 0x8, 1, 1, 0⟩,
   ⟨.FUL_CTL, .core, 0x9100, 0x10, 34, 1, 0⟩,
   ⟨.FUL_STAT, .core, 0x9108, 0x10, 34, 1, 0⟩,
   ⟨.MIL_ID, .mil, 0x200000, 0x8, 1, 1, 0⟩] ++
  [⟨.MIL_WDOG, .mil, 0x200008, 0x8, 1, 1, 0⟩,
   ⟨.MIL_ERR_INFO, .mil, 0x200010, 0x8, 1, 1, 0⟩,
   ⟨.MIL_FUL_IRQ, .mil, 0x200018, 0x8, 1, 1, 0⟩,
   ⟨.FN_CTL, .bar0, 0x0, 0x8, 1, 1, 0⟩,
   ⟨.FN_STAT, .bar0, 0x8, 0x8, 1, 1, 0⟩,
   ⟨.ASQ_ACQ, .bar0, 0x10, 0x8, 2, 1, 0⟩,
   ⟨.AQ_SIZE, .bar0, 0x20, 0x8, 1, 1, 0⟩,
   ⟨.APERTURE, .bar0, 0x28, 0x8, 1, 1, 0⟩,
   ⟨.HIF_ERR_STAT, .bar0, 0x30, 0x8, 1, 1, 0⟩,
   ⟨.BL_SELF, .bd, 0x0, 0x8, 1, 1, 0⟩,
   ⟨.PORT_CFG, .bdport, 0x100000, 0x100, 4, 1, 0⟩,
   ⟨.PORT_STAT, .bdport, 0x100008, 0x100, 4, 1, 0⟩] ++
  [⟨.BL_ROUTE, .bd0, 0x200000, 0x8, 4096, 1, 0⟩,
   ⟨.BL_ALLOW, .bd0, 0x280000, 0x8, 512, 1, 0⟩,
   ⟨.GRP_CFG, .bd0, 0x300000, 0x20, 64, 1, 0⟩,
   ⟨.GRP_KIDS, .bd0, 0x300008, 0x20, 64, 2, 0⟩,
   ⟨.GRP_KIDS, .bd0, 0x300010, 0x20, 64, 2, 1⟩,
   ⟨.GRP_STAT, .bd0, 0x300018, 0x20, 64, 1, 0⟩,
   ⟨.SEC_STAT, .bd0, 0x400000, 0x8, 1, 1, 0⟩,
   ⟨.MESH_LINK, .bd, 0x500000, 0x10, 9, 1, 0⟩,
   ⟨.MESH_LINK, .tile, 0x3000, 0x10, 4, 1, 0⟩,
   ⟨.ROUTE, .tile, 0x3400, 0x8, 76, 1, 0⟩,
   ⟨.DIE_ID, .tile, 0x3800, 0x8, 1, 1, 0⟩,
   ⟨.CLK_STAT, .tile, 0x3808, 0x8, 1, 1, 0⟩] ++
  [⟨.BOOT_STAGE, .hb, 0x0, 0x8, 1, 1, 0⟩,
   ⟨.BOOT_TIME, .hb, 0x8, 0x8, 1, 1, 0⟩,
   ⟨.BOOT_CTL, .hb, 0x10, 0x8, 1, 1, 0⟩,
   ⟨.RESET_CTL, .tile, 0x4000, 0x8, 1, 1, 0⟩,
   ⟨.RESET_STAT, .tile, 0x4008, 0x8, 1, 1, 0⟩,
   ⟨.CORE_PWR, .tile, 0x5000, 0x8, 1, 1, 0⟩,
   ⟨.PWR_CAP, .tile, 0x5008, 0x8, 1, 1, 0⟩,
   ⟨.CORE_PWR_STAT, .tile, 0x5010, 0x8, 4, 1, 0⟩,
   ⟨.DOM_STAT, .tile, 0x5030, 0x8, 1, 1, 0⟩,
   ⟨.MOD_CAP, .hb, 0x1000, 0x8, 1, 1, 0⟩,
   ⟨.PT_CAP, .hb, 0x1008, 0x8, 8, 1, 0⟩,
   ⟨.PWR_MEAS, .hb, 0x1100, 0x8, 1, 1, 0⟩] ++
  [⟨.THERM_STAT, .tile, 0x6000, 0x8, 1, 1, 0⟩,
   ⟨.COOL_CFG, .hb, 0x2000, 0x8, 1, 1, 0⟩,
   ⟨.COOL_STAT, .hb, 0x2008, 0x8, 1, 1, 0⟩,
   ⟨.THERM_LIMITS, .hb, 0x2010, 0x8, 1, 1, 0⟩,
   ⟨.TRIP_LAST, .hb, 0x2018, 0x8, 1, 1, 0⟩,
   ⟨.EVT_STAT, .hb, 0x3000, 0x8, 1, 1, 0⟩,
   ⟨.MIL_EVT_CFG, .mil, 0x200020, 0x8, 1, 1, 0⟩,
   ⟨.MIL_EVT_PTR, .mil, 0x200028, 0x8, 1, 1, 0⟩,
   ⟨.HIF_EVT_CFG, .bar0, 0x40, 0x8, 1, 1, 0⟩,
   ⟨.FUSE_STAT, .hb, 0x4000, 0x8, 1, 1, 0⟩,
   ⟨.SLOT_STAT, .hb, 0x4008, 0x8, 1, 1, 0⟩,
   ⟨.UPD_CTL, .hb, 0x4010, 0x8, 1, 1, 0⟩] ++
  [⟨.DIST_STAT, .hb, 0x4018, 0x8, 1, 1, 0⟩,
   ⟨.FW_LAST, .tile, 0x1028, 0x8, 1, 1, 0⟩,
   ⟨.HIF_ERR_DA, .bar0, 0x38, 0x8, 1, 1, 0⟩,
   ⟨.MCAST_MASK, .tile, 0x3700, 0x8, 1, 1, 0⟩]

/-- CORE.CH_REMAP0, CORE.CH_REMAP1 [8k+4:8k] PCH -/
def CH_REMAP.PCH (k : Nat) : Fld := ⟨.CH_REMAP, 8 * k + 4, 8 * k⟩
/-- CORE.SRAM_STAT [63:48] STATE_REFUSED -/
def SRAM_STAT.STATE_REFUSED : Fld := ⟨.SRAM_STAT, 63, 48⟩
/-- CORE.SRAM_STAT [47:32] UE_COUNT -/
def SRAM_STAT.UE_COUNT : Fld := ⟨.SRAM_STAT, 47, 32⟩
/-- CORE.SRAM_STAT [31:8] CE_COUNT -/
def SRAM_STAT.CE_COUNT : Fld := ⟨.SRAM_STAT, 31, 8⟩
/-- CORE.SRAM_STAT [7:3] LAST_UE_BANK -/
def SRAM_STAT.LAST_UE_BANK : Fld := ⟨.SRAM_STAT, 7, 3⟩
/-- CORE.SRAM_STAT [2] CLEARING -/
def SRAM_STAT.CLEARING : Fld := ⟨.SRAM_STAT, 2, 2⟩
/-- CORE.SRAM_STAT [1] RETAINED -/
def SRAM_STAT.RETAINED : Fld := ⟨.SRAM_STAT, 1, 1⟩
/-- TILE.FW_MAP0 – TILE.FW_MAP3 [4j+3] V -/
def FW_MAP.V (j : Nat) : Fld := ⟨.FW_MAP, 4 * j + 3, 4 * j + 3⟩
/-- TILE.FW_MAP0 – TILE.FW_MAP3 [4j+2:4j] PT -/
def FW_MAP.PT (j : Nat) : Fld := ⟨.FW_MAP, 4 * j + 2, 4 * j⟩
/-- TILE.FW_STAT [63:32] DENY_COUNT -/
def FW_STAT.DENY_COUNT : Fld := ⟨.FW_STAT, 63, 32⟩
/-- TILE.FW_STAT [28] LAST_EGRESS -/
def FW_STAT.LAST_EGRESS : Fld := ⟨.FW_STAT, 28, 28⟩
/-- TILE.FW_STAT [27:25] LAST_SRC_PT -/
def FW_STAT.LAST_SRC_PT : Fld := ⟨.FW_STAT, 27, 25⟩
/-- TILE.FW_STAT [24] LAST_SRC_HOST -/
def FW_STAT.LAST_SRC_HOST : Fld := ⟨.FW_STAT, 24, 24⟩
/-- CORE.QUANT_CTRL [63:32] SR_SEED -/
def QUANT_CTRL.SR_SEED : Fld := ⟨.QUANT_CTRL, 63, 32⟩
/-- CORE.QUANT_CTRL [15:14] OUTLIER_H -/
def QUANT_CTRL.OUTLIER_H : Fld := ⟨.QUANT_CTRL, 15, 14⟩
/-- CORE.QUANT_CTRL [13] E5M2_OVF -/
def QUANT_CTRL.E5M2_OVF : Fld := ⟨.QUANT_CTRL, 13, 13⟩
/-- CORE.QUANT_CTRL [12] SR_KV -/
def QUANT_CTRL.SR_KV : Fld := ⟨.QUANT_CTRL, 12, 12⟩
/-- CORE.FMT_STAT [63:48] NAN_GROUPS -/
def FMT_STAT.NAN_GROUPS : Fld := ⟨.FMT_STAT, 63, 48⟩
/-- CORE.FMT_STAT [47:32] INT_SAT -/
def FMT_STAT.INT_SAT : Fld := ⟨.FMT_STAT, 47, 32⟩
/-- CORE.FMT_STAT [31:16] NAN_TO_INT -/
def FMT_STAT.NAN_TO_INT : Fld := ⟨.FMT_STAT, 31, 16⟩
/-- CORE.FMT_STAT [15:8] BAD_FMT -/
def FMT_STAT.BAD_FMT : Fld := ⟨.FMT_STAT, 15, 8⟩
/-- CORE.ARRAY_MAP [44:40] FENCED -/
def ARRAY_MAP.FENCED : Fld := ⟨.ARRAY_MAP, 44, 40⟩
/-- CORE.ARRAY_MAP [36] AUTO_SPARE -/
def ARRAY_MAP.AUTO_SPARE : Fld := ⟨.ARRAY_MAP, 36, 36⟩
/-- CORE.ARRAY_MAP [34:32] SPARE -/
def ARRAY_MAP.SPARE : Fld := ⟨.ARRAY_MAP, 34, 32⟩
/-- CORE.ARRAY_MAP [8j+2:8j] PHYS -/
def ARRAY_MAP.PHYS (j : Nat) : Fld := ⟨.ARRAY_MAP, 8 * j + 2, 8 * j⟩
/-- CORE.ARRAY_CFG [12:8] CHK_TOL -/
def ARRAY_CFG.CHK_TOL : Fld := ⟨.ARRAY_CFG, 12, 8⟩
/-- CORE.ARRAY_CFG [7:4] COMPAT -/
def ARRAY_CFG.COMPAT : Fld := ⟨.ARRAY_CFG, 7, 4⟩
/-- CORE.ARRAY_CFG [1:0] GANG -/
def ARRAY_CFG.GANG : Fld := ⟨.ARRAY_CFG, 1, 0⟩
/-- CORE.ARRAY_STAT [63:48] RETRY_PASS -/
def ARRAY_STAT.RETRY_PASS : Fld := ⟨.ARRAY_STAT, 63, 48⟩
/-- CORE.ARRAY_STAT [47:32] CHK_SKIP -/
def ARRAY_STAT.CHK_SKIP : Fld := ⟨.ARRAY_STAT, 47, 32⟩
/-- CORE.ARRAY_STAT [31:16] EW_UNCHECKED -/
def ARRAY_STAT.EW_UNCHECKED : Fld := ⟨.ARRAY_STAT, 31, 16⟩
/-- CORE.ARRAY_STAT [15:8] MV_RETRY -/
def ARRAY_STAT.MV_RETRY : Fld := ⟨.ARRAY_STAT, 15, 8⟩
/-- CORE.ARRAY_STAT [7:4] LAST_MISMATCH -/
def ARRAY_STAT.LAST_MISMATCH : Fld := ⟨.ARRAY_STAT, 7, 4⟩
/-- CORE.ARRAY_BANK [8j+2b+1:8j+2b] STATE -/
def ARRAY_BANK.STATE (j b : Nat) : Fld := ⟨.ARRAY_BANK, 8 * j + 2 * b + 1, 8 * j + 2 * b⟩
/-- CORE.GUARD_CFG0 – CORE.GUARD_CFG63 [63] SEED_GO -/
def GUARD_CFG.SEED_GO : Fld := ⟨.GUARD_CFG, 63, 63⟩
/-- CORE.GUARD_CFG0 – CORE.GUARD_CFG63 [62:59] HEAD -/
def GUARD_CFG.HEAD : Fld := ⟨.GUARD_CFG, 62, 59⟩
/-- CORE.GUARD_CFG0 – CORE.GUARD_CFG63 [58] BUSY -/
def GUARD_CFG.BUSY : Fld := ⟨.GUARD_CFG, 58, 58⟩
/-- CORE.GUARD_CFG0 – CORE.GUARD_CFG63 [57:42] SAT_LIMIT -/
def GUARD_CFG.SAT_LIMIT : Fld := ⟨.GUARD_CFG, 57, 42⟩
/-- CORE.GUARD_CFG0 – CORE.GUARD_CFG63 [41:31] POS -/
def GUARD_CFG.POS : Fld := ⟨.GUARD_CFG, 41, 31⟩
/-- CORE.GUARD_CFG0 – CORE.GUARD_CFG63 [30:27] HEAD_THR -/
def GUARD_CFG.HEAD_THR : Fld := ⟨.GUARD_CFG, 30, 27⟩
/-- CORE.GUARD_CFG0 – CORE.GUARD_CFG63 [26:23] CLIP_THR -/
def GUARD_CFG.CLIP_THR : Fld := ⟨.GUARD_CFG, 26, 23⟩
/-- CORE.GUARD_CFG0 – CORE.GUARD_CFG63 [22:19] WIN -/
def GUARD_CFG.WIN : Fld := ⟨.GUARD_CFG, 22, 19⟩
/-- CORE.GUARD_CFG0 – CORE.GUARD_CFG63 [18:17] GS -/
def GUARD_CFG.GS : Fld := ⟨.GUARD_CFG, 18, 17⟩
/-- CORE.GUARD_CFG0 – CORE.GUARD_CFG63 [16:13] FMT -/
def GUARD_CFG.FMT : Fld := ⟨.GUARD_CFG, 16, 13⟩
/-- CORE.GUARD_CFG0 – CORE.GUARD_CFG63 [0] EN -/
def GUARD_CFG.EN : Fld := ⟨.GUARD_CFG, 0, 0⟩
/-- CORE.GUARD_HIST0 – CORE.GUARD_HIST63 [22:6] BASE -/
def GUARD_HIST.BASE : Fld := ⟨.GUARD_HIST, 22, 6⟩
/-- CORE.GUARD_CTRL [2] REPLAY_EN -/
def GUARD_CTRL.REPLAY_EN : Fld := ⟨.GUARD_CTRL, 2, 2⟩
/-- CORE.GUARD_CTRL [1] STAT_EN -/
def GUARD_CTRL.STAT_EN : Fld := ⟨.GUARD_CTRL, 1, 1⟩
/-- CORE.GUARD_SEED [31:0] SEED -/
def GUARD_SEED.SEED : Fld := ⟨.GUARD_SEED, 31, 0⟩
/-- CORE.GUARD_SKEW [63:48] SKEW_COUNT -/
def GUARD_SKEW.SKEW_COUNT : Fld := ⟨.GUARD_SKEW, 63, 48⟩
/-- CORE.GUARD_SKEW [47:44] EXP_TAG -/
def GUARD_SKEW.EXP_TAG : Fld := ⟨.GUARD_SKEW, 47, 44⟩
/-- CORE.GUARD_SKEW [43:40] GOT_TAG -/
def GUARD_SKEW.GOT_TAG : Fld := ⟨.GUARD_SKEW, 43, 40⟩
/-- CORE.GUARD_SKEW [39:38] REASON -/
def GUARD_SKEW.REASON : Fld := ⟨.GUARD_SKEW, 39, 38⟩
/-- CORE.GUARD_SKEW [37:36] QUEUE -/
def GUARD_SKEW.QUEUE : Fld := ⟨.GUARD_SKEW, 37, 36⟩
/-- CORE.GUARD_SKEW [35:32] ESC -/
def GUARD_SKEW.ESC : Fld := ⟨.GUARD_SKEW, 35, 32⟩
/-- CORE.GUARD_SKEW [31:0] GROUP -/
def GUARD_SKEW.GROUP : Fld := ⟨.GUARD_SKEW, 31, 0⟩
/-- CORE.QCFG0 – CORE.QCFG3 [21:5] BASE -/
def QCFG.BASE : Fld := ⟨.QCFG, 21, 5⟩
/-- CORE.QCFG0 – CORE.QCFG3 [4:1] SIZE -/
def QCFG.SIZE : Fld := ⟨.QCFG, 4, 1⟩
/-- CORE.QCFG0 – CORE.QCFG3 [0] EN -/
def QCFG.EN : Fld := ⟨.QCFG, 0, 0⟩
/-- CORE.QPTR0 – CORE.QPTR3 [31:16] TAIL -/
def QPTR.TAIL : Fld := ⟨.QPTR, 31, 16⟩
/-- CORE.QPTR0 – CORE.QPTR3 [15:0] HEAD -/
def QPTR.HEAD : Fld := ⟨.QPTR, 15, 0⟩
/-- CORE.QCTL0 – CORE.QCTL3 [2] SIG_FAILED -/
def QCTL.SIG_FAILED : Fld := ⟨.QCTL, 2, 2⟩
/-- CORE.QCTL0 – CORE.QCTL3 [1] SKIP -/
def QCTL.SKIP : Fld := ⟨.QCTL, 1, 1⟩
/-- CORE.QCTL0 – CORE.QCTL3 [0] RESUME -/
def QCTL.RESUME : Fld := ⟨.QCTL, 0, 0⟩
/-- CORE.QSTAT0 – CORE.QSTAT3 [63:48] ERR_COUNT -/
def QSTAT.ERR_COUNT : Fld := ⟨.QSTAT, 63, 48⟩
/-- CORE.QSTAT0 – CORE.QSTAT3 [47:32] CODE -/
def QSTAT.CODE : Fld := ⟨.QSTAT, 47, 32⟩
/-- CORE.QSTAT0 – CORE.QSTAT3 [31:16] INDEX -/
def QSTAT.INDEX : Fld := ⟨.QSTAT, 31, 16⟩
/-- CORE.QSTAT0 – CORE.QSTAT3 [15:8] STATUS -/
def QSTAT.STATUS : Fld := ⟨.QSTAT, 15, 8⟩
/-- CORE.QSTAT0 – CORE.QSTAT3 [7:4] CAUSE -/
def QSTAT.CAUSE : Fld := ⟨.QSTAT, 7, 4⟩
/-- CORE.QSTAT0 – CORE.QSTAT3 [3] ERR_PEND -/
def QSTAT.ERR_PEND : Fld := ⟨.QSTAT, 3, 3⟩
/-- CORE.QSTAT0 – CORE.QSTAT3 [2:0] STATE -/
def QSTAT.STATE : Fld := ⟨.QSTAT, 2, 0⟩
/-- CORE.SEQ_CFG [39:24] WAIT_LIMIT -/
def SEQ_CFG.WAIT_LIMIT : Fld := ⟨.SEQ_CFG, 39, 24⟩
/-- CORE.SEQ_CFG [16:0] SEM_BASE -/
def SEQ_CFG.SEM_BASE : Fld := ⟨.SEQ_CFG, 16, 0⟩
/-- CORE.SEQ_STAT [63:32] SC_COUNT -/
def SEQ_STAT.SC_COUNT : Fld := ⟨.SEQ_STAT, 63, 32⟩
/-- CORE.SEQ_STAT [31:16] HINT_ACCEPT -/
def SEQ_STAT.HINT_ACCEPT : Fld := ⟨.SEQ_STAT, 31, 16⟩
/-- CORE.SEQ_STAT [15:0] HINT_REFUSED -/
def SEQ_STAT.HINT_REFUSED : Fld := ⟨.SEQ_STAT, 15, 0⟩
/-- CORE.MSG_FIFO [63] VALID -/
def MSG_FIFO.VALID : Fld := ⟨.MSG_FIFO, 63, 63⟩
/-- CORE.MSG_FIFO [33:32] QUEUE -/
def MSG_FIFO.QUEUE : Fld := ⟨.MSG_FIFO, 33, 32⟩
/-- CORE.MSG_FIFO [31:0] TAG -/
def MSG_FIFO.TAG : Fld := ⟨.MSG_FIFO, 31, 0⟩
/-- CORE.ATT_STAT [63:48] RETRY -/
def ATT_STAT.RETRY : Fld := ⟨.ATT_STAT, 63, 48⟩
/-- CORE.ATT_STAT [47:32] POOL_OVF -/
def ATT_STAT.POOL_OVF : Fld := ⟨.ATT_STAT, 47, 32⟩
/-- CORE.ATT_STAT [31:16] EMPTY_ROWS -/
def ATT_STAT.EMPTY_ROWS : Fld := ⟨.ATT_STAT, 31, 16⟩
/-- CORE.ATT_STAT [15:8] POISON -/
def ATT_STAT.POISON : Fld := ⟨.ATT_STAT, 15, 8⟩
/-- CORE.ATT_STAT [7:0] PART_MISSING -/
def ATT_STAT.PART_MISSING : Fld := ⟨.ATT_STAT, 7, 0⟩
/-- CORE.ATT_LAST [63:56] STATUS -/
def ATT_LAST.STATUS : Fld := ⟨.ATT_LAST, 63, 56⟩
/-- CORE.ATT_LAST [55:54] OP -/
def ATT_LAST.OP : Fld := ⟨.ATT_LAST, 55, 54⟩
/-- CORE.ATT_LAST [53:46] ENTRY -/
def ATT_LAST.ENTRY : Fld := ⟨.ATT_LAST, 53, 46⟩
/-- CORE.ATT_LAST [45:30] KVH -/
def ATT_LAST.KVH : Fld := ⟨.ATT_LAST, 45, 30⟩
/-- CORE.ATT_LAST [24:0] BLOCK -/
def ATT_LAST.BLOCK : Fld := ⟨.ATT_LAST, 24, 0⟩
/-- CORE.ATT_WORK [63:24] POSITIONS -/
def ATT_WORK.POSITIONS : Fld := ⟨.ATT_WORK, 63, 24⟩
/-- CORE.ATT_WORK [23:0] ROWS -/
def ATT_WORK.ROWS : Fld := ⟨.ATT_WORK, 23, 0⟩
/-- CORE.DRAM_STAT [63:48] UE_COUNT -/
def DRAM_STAT.UE_COUNT : Fld := ⟨.DRAM_STAT, 63, 48⟩
/-- CORE.DRAM_STAT [47:32] POISON_READS -/
def DRAM_STAT.POISON_READS : Fld := ⟨.DRAM_STAT, 47, 32⟩
/-- CORE.DRAM_STAT [31:8] CE_COUNT -/
def DRAM_STAT.CE_COUNT : Fld := ⟨.DRAM_STAT, 31, 8⟩
/-- CORE.DRAM_STAT [7:6] BAND -/
def DRAM_STAT.BAND : Fld := ⟨.DRAM_STAT, 7, 6⟩
/-- CORE.DRAM_STAT [3:0] THR -/
def DRAM_STAT.THR : Fld := ⟨.DRAM_STAT, 3, 0⟩
/-- CORE.DRAM_CH_STAT0 – CORE.DRAM_CH_STAT16 [63:48] CE_COUNT -/
def DRAM_CH_STAT.CE_COUNT : Fld := ⟨.DRAM_CH_STAT, 63, 48⟩
/-- CORE.DRAM_CH_STAT0 – CORE.DRAM_CH_STAT16 [47:40] UE_COUNT -/
def DRAM_CH_STAT.UE_COUNT : Fld := ⟨.DRAM_CH_STAT, 47, 40⟩
/-- CORE.DRAM_CH_STAT0 – CORE.DRAM_CH_STAT16 [39:32] RETRAINS -/
def DRAM_CH_STAT.RETRAINS : Fld := ⟨.DRAM_CH_STAT, 39, 32⟩
/-- CORE.DRAM_CH_STAT0 – CORE.DRAM_CH_STAT16 [31:28] RT_FAILS -/
def DRAM_CH_STAT.RT_FAILS : Fld := ⟨.DRAM_CH_STAT, 31, 28⟩
/-- CORE.DRAM_CH_STAT0 – CORE.DRAM_CH_STAT16 [27:21] WORST_GROUP -/
def DRAM_CH_STAT.WORST_GROUP : Fld := ⟨.DRAM_CH_STAT, 27, 21⟩
/-- CORE.DRAM_CH_STAT0 – CORE.DRAM_CH_STAT16 [20:17] SCRUB_BANK -/
def DRAM_CH_STAT.SCRUB_BANK : Fld := ⟨.DRAM_CH_STAT, 20, 17⟩
/-- CORE.DRAM_CH_STAT0 – CORE.DRAM_CH_STAT16 [16:6] SCRUB_ROW -/
def DRAM_CH_STAT.SCRUB_ROW : Fld := ⟨.DRAM_CH_STAT, 16, 6⟩
/-- CORE.DRAM_CH_STAT0 – CORE.DRAM_CH_STAT16 [5:3] ROLE -/
def DRAM_CH_STAT.ROLE : Fld := ⟨.DRAM_CH_STAT, 5, 3⟩
/-- CORE.DRAM_CH_STAT0 – CORE.DRAM_CH_STAT16 [2] RETRAINING -/
def DRAM_CH_STAT.RETRAINING : Fld := ⟨.DRAM_CH_STAT, 2, 2⟩
/-- CORE.DRAM_CH_STAT0 – CORE.DRAM_CH_STAT16 [1] DEGRADED -/
def DRAM_CH_STAT.DEGRADED : Fld := ⟨.DRAM_CH_STAT, 1, 1⟩
/-- TILE.DRAM_CFG [47:39] SCRUB_MS -/
def DRAM_CFG.SCRUB_MS : Fld := ⟨.DRAM_CFG, 47, 39⟩
/-- TILE.DRAM_CFG [38:34] RT_INT -/
def DRAM_CFG.RT_INT : Fld := ⟨.DRAM_CFG, 38, 34⟩
/-- TILE.DRAM_CFG [33:28] CE_RT_TRIG -/
def DRAM_CFG.CE_RT_TRIG : Fld := ⟨.DRAM_CFG, 33, 28⟩
/-- TILE.DRAM_CFG [27:24] RT_DT -/
def DRAM_CFG.RT_DT : Fld := ⟨.DRAM_CFG, 27, 24⟩
/-- TILE.DRAM_CFG [23] AUTO_SWAP -/
def DRAM_CFG.AUTO_SWAP : Fld := ⟨.DRAM_CFG, 23, 23⟩
/-- TILE.DRAM_INJECT [63] ARM -/
def DRAM_INJECT.ARM : Fld := ⟨.DRAM_INJECT, 63, 63⟩
/-- TILE.DRAM_INJECT [62:61] CORE -/
def DRAM_INJECT.CORE : Fld := ⟨.DRAM_INJECT, 62, 61⟩
/-- TILE.DRAM_INJECT [60:59] MODE -/
def DRAM_INJECT.MODE : Fld := ⟨.DRAM_INJECT, 60, 59⟩
/-- TILE.DRAM_INJECT [58:50] BIT_B -/
def DRAM_INJECT.BIT_B : Fld := ⟨.DRAM_INJECT, 58, 50⟩
/-- TILE.DRAM_INJECT [49:41] BIT_A -/
def DRAM_INJECT.BIT_A : Fld := ⟨.DRAM_INJECT, 49, 41⟩
/-- TILE.DRAM_INJECT [40:39] RESULT -/
def DRAM_INJECT.RESULT : Fld := ⟨.DRAM_INJECT, 40, 39⟩
/-- TILE.DRAM_INJECT [24:0] BEAT -/
def DRAM_INJECT.BEAT : Fld := ⟨.DRAM_INJECT, 24, 0⟩
/-- TILE.DRAM_REPAIR_CMD [63:60] OP -/
def DRAM_REPAIR_CMD.OP : Fld := ⟨.DRAM_REPAIR_CMD, 63, 60⟩
/-- TILE.DRAM_REPAIR_CMD [59:58] CORE -/
def DRAM_REPAIR_CMD.CORE : Fld := ⟨.DRAM_REPAIR_CMD, 59, 58⟩
/-- TILE.DRAM_REPAIR_CMD [57:53] PCH -/
def DRAM_REPAIR_CMD.PCH : Fld := ⟨.DRAM_REPAIR_CMD, 57, 53⟩
/-- TILE.DRAM_REPAIR_CMD [52:49] BANK -/
def DRAM_REPAIR_CMD.BANK : Fld := ⟨.DRAM_REPAIR_CMD, 52, 49⟩
/-- TILE.DRAM_REPAIR_CMD [48:38] ROW -/
def DRAM_REPAIR_CMD.ROW : Fld := ⟨.DRAM_REPAIR_CMD, 48, 38⟩
/-- TILE.DRAM_REPAIR_CMD [37:32] COL -/
def DRAM_REPAIR_CMD.COL : Fld := ⟨.DRAM_REPAIR_CMD, 37, 32⟩
/-- TILE.DRAM_REPAIR_CMD [31:28] LCH -/
def DRAM_REPAIR_CMD.LCH : Fld := ⟨.DRAM_REPAIR_CMD, 31, 28⟩
/-- TILE.DRAM_REPAIR_CMD [27] COPY -/
def DRAM_REPAIR_CMD.COPY : Fld := ⟨.DRAM_REPAIR_CMD, 27, 27⟩
/-- TILE.DRAM_REPAIR_STAT [63] BUSY -/
def DRAM_REPAIR_STAT.BUSY : Fld := ⟨.DRAM_REPAIR_STAT, 63, 63⟩
/-- TILE.DRAM_REPAIR_STAT [55:48] STATUS -/
def DRAM_REPAIR_STAT.STATUS : Fld := ⟨.DRAM_REPAIR_STAT, 55, 48⟩
/-- TILE.DRAM_REPAIR_STAT [47:42] SPARE_ROWS -/
def DRAM_REPAIR_STAT.SPARE_ROWS : Fld := ⟨.DRAM_REPAIR_STAT, 47, 42⟩
/-- TILE.DRAM_REPAIR_STAT [41:38] SPARE_COLS -/
def DRAM_REPAIR_STAT.SPARE_COLS : Fld := ⟨.DRAM_REPAIR_STAT, 41, 38⟩
/-- CORE.FUL_CFG [2:0] WD -/
def FUL_CFG.WD : Fld := ⟨.FUL_CFG, 2, 0⟩
/-- CORE.FUL_CTL0 – CORE.FUL_CTL33 [63:32] MBOX -/
def FUL_CTL.MBOX : Fld := ⟨.FUL_CTL, 63, 32⟩
/-- CORE.FUL_CTL0 – CORE.FUL_CTL33 [31] MBOX_V -/
def FUL_CTL.MBOX_V : Fld := ⟨.FUL_CTL, 31, 31⟩
/-- CORE.FUL_CTL0 – CORE.FUL_CTL33 [16] LOAD_DONE -/
def FUL_CTL.LOAD_DONE : Fld := ⟨.FUL_CTL, 16, 16⟩
/-- CORE.FUL_CTL0 – CORE.FUL_CTL33 [0] STOP -/
def FUL_CTL.STOP : Fld := ⟨.FUL_CTL, 0, 0⟩
/-- CORE.FUL_STAT0 – CORE.FUL_STAT33 [63:48] HANGS -/
def FUL_STAT.HANGS : Fld := ⟨.FUL_STAT, 63, 48⟩
/-- CORE.FUL_STAT0 – CORE.FUL_STAT33 [47:40] LAST_STATUS -/
def FUL_STAT.LAST_STATUS : Fld := ⟨.FUL_STAT, 47, 40⟩
/-- CORE.FUL_STAT0 – CORE.FUL_STAT33 [39:36] CAUSE -/
def FUL_STAT.CAUSE : Fld := ⟨.FUL_STAT, 39, 36⟩
/-- CORE.FUL_STAT0 – CORE.FUL_STAT33 [35:22] PC -/
def FUL_STAT.PC : Fld := ⟨.FUL_STAT, 35, 22⟩
/-- CORE.FUL_STAT0 – CORE.FUL_STAT33 [18] POISONED -/
def FUL_STAT.POISONED : Fld := ⟨.FUL_STAT, 18, 18⟩
/-- CORE.FUL_STAT0 – CORE.FUL_STAT33 [17] FENCED -/
def FUL_STAT.FENCED : Fld := ⟨.FUL_STAT, 17, 17⟩
/-- CORE.FUL_STAT0 – CORE.FUL_STAT33 [2:0] STATE -/
def FUL_STAT.STATE : Fld := ⟨.FUL_STAT, 2, 0⟩
/-- MIL.ID [19] PV -/
def MIL_ID.PV : Fld := ⟨.MIL_ID, 19, 19⟩
/-- MIL.ID [18:16] PT -/
def MIL_ID.PT : Fld := ⟨.MIL_ID, 18, 16⟩
/-- MIL.ID [13:8] LTILE -/
def MIL_ID.LTILE : Fld := ⟨.MIL_ID, 13, 8⟩
/-- MIL.ID [7] STEP -/
def MIL_ID.STEP : Fld := ⟨.MIL_ID, 7, 7⟩
/-- MIL.ID [6:0] SITE -/
def MIL_ID.SITE : Fld := ⟨.MIL_ID, 6, 0⟩
/-- MIL.WDOG [39:16] REMAIN -/
def MIL_WDOG.REMAIN : Fld := ⟨.MIL_WDOG, 39, 16⟩
/-- MIL.WDOG [8] EN -/
def MIL_WDOG.EN : Fld := ⟨.MIL_WDOG, 8, 8⟩
/-- MIL.WDOG [7:0] PET -/
def MIL_WDOG.PET : Fld := ⟨.MIL_WDOG, 7, 0⟩
/-- MIL.ERR_INFO [63:56] STATUS -/
def MIL_ERR_INFO.STATUS : Fld := ⟨.MIL_ERR_INFO, 63, 56⟩
/-- MIL.ERR_INFO [49:48] KIND -/
def MIL_ERR_INFO.KIND : Fld := ⟨.MIL_ERR_INFO, 49, 48⟩
/-- MIL.ERR_INFO [47:0] DA -/
def MIL_ERR_INFO.DA : Fld := ⟨.MIL_ERR_INFO, 47, 0⟩
/-- MIL.FUL_IRQ [63] VALID -/
def MIL_FUL_IRQ.VALID : Fld := ⟨.MIL_FUL_IRQ, 63, 63⟩
/-- MIL.FUL_IRQ [39:38] CORE -/
def MIL_FUL_IRQ.CORE : Fld := ⟨.MIL_FUL_IRQ, 39, 38⟩
/-- MIL.FUL_IRQ [37:32] FULLER -/
def MIL_FUL_IRQ.FULLER : Fld := ⟨.MIL_FUL_IRQ, 37, 32⟩
/-- MIL.FUL_IRQ [31:0] TAG -/
def MIL_FUL_IRQ.TAG : Fld := ⟨.MIL_FUL_IRQ, 31, 0⟩
/-- HIF.FN_CTL [0] EN -/
def FN_CTL.EN : Fld := ⟨.FN_CTL, 0, 0⟩
/-- HIF.FN_STAT [23:20] DEV_STATE -/
def FN_STAT.DEV_STATE : Fld := ⟨.FN_STAT, 23, 20⟩
/-- HIF.FN_STAT [19] DEG -/
def FN_STAT.DEG : Fld := ⟨.FN_STAT, 19, 19⟩
/-- HIF.FN_STAT [18:16] PART_STATE -/
def FN_STAT.PART_STATE : Fld := ⟨.FN_STAT, 18, 16⟩
/-- HIF.FN_STAT [11] PV -/
def FN_STAT.PV : Fld := ⟨.FN_STAT, 11, 11⟩
/-- HIF.FN_STAT [10:8] PT -/
def FN_STAT.PT : Fld := ⟨.FN_STAT, 10, 8⟩
/-- HIF.FN_STAT [0] RDY -/
def FN_STAT.RDY : Fld := ⟨.FN_STAT, 0, 0⟩
/-- HIF.ASQ, HIF.ACQ [63:6] BASE -/
def ASQ_ACQ.BASE : Fld := ⟨.ASQ_ACQ, 63, 6⟩
/-- HIF.AQ_SIZE [27:16] ACQS -/
def AQ_SIZE.ACQS : Fld := ⟨.AQ_SIZE, 27, 16⟩
/-- HIF.AQ_SIZE [11:0] ASQS -/
def AQ_SIZE.ASQS : Fld := ⟨.AQ_SIZE, 11, 0⟩
/-- HIF.APERTURE [11:0] BASE -/
def APERTURE.BASE : Fld := ⟨.APERTURE, 11, 0⟩
/-- HIF.ERR_STAT [63:48] SC_COUNT -/
def HIF_ERR_STAT.SC_COUNT : Fld := ⟨.HIF_ERR_STAT, 63, 48⟩
/-- HIF.ERR_STAT [47:40] BAD_ACCESS -/
def HIF_ERR_STAT.BAD_ACCESS : Fld := ⟨.HIF_ERR_STAT, 47, 40⟩
/-- HIF.ERR_STAT [39:32] DB_BAD -/
def HIF_ERR_STAT.DB_BAD : Fld := ⟨.HIF_ERR_STAT, 39, 32⟩
/-- HIF.ERR_STAT [31:24] PULL_LOST -/
def HIF_ERR_STAT.PULL_LOST : Fld := ⟨.HIF_ERR_STAT, 31, 24⟩
/-- HIF.ERR_STAT [23:16] LAST_STATUS -/
def HIF_ERR_STAT.LAST_STATUS : Fld := ⟨.HIF_ERR_STAT, 23, 16⟩
/-- BL.SELF [19:16] PLEVEL -/
def BL_SELF.PLEVEL : Fld := ⟨.BL_SELF, 19, 16⟩
/-- BL.SELF [11:0] MODULE_ID -/
def BL_SELF.MODULE_ID : Fld := ⟨.BL_SELF, 11, 0⟩
/-- BL.PORT_CFG0 – BL.PORT_CFG15 [8] FENCE -/
def PORT_CFG.FENCE : Fld := ⟨.PORT_CFG, 8, 8⟩
/-- BL.PORT_CFG0 – BL.PORT_CFG15 [7:6] MINW -/
def PORT_CFG.MINW : Fld := ⟨.PORT_CFG, 7, 6⟩
/-- BL.PORT_CFG0 – BL.PORT_CFG15 [3:2] ROLE -/
def PORT_CFG.ROLE : Fld := ⟨.PORT_CFG, 3, 2⟩
/-- BL.PORT_STAT0 – BL.PORT_STAT15 [63:48] CRC_ERR -/
def PORT_STAT.CRC_ERR : Fld := ⟨.PORT_STAT, 63, 48⟩
/-- BL.PORT_STAT0 – BL.PORT_STAT15 [47:32] REPLAYS -/
def PORT_STAT.REPLAYS : Fld := ⟨.PORT_STAT, 47, 32⟩
/-- BL.PORT_STAT0 – BL.PORT_STAT15 [31:15] LANE_FAIL -/
def PORT_STAT.LANE_FAIL : Fld := ⟨.PORT_STAT, 31, 15⟩
/-- BL.PORT_STAT0 – BL.PORT_STAT15 [14:12] STUCK -/
def PORT_STAT.STUCK : Fld := ⟨.PORT_STAT, 14, 12⟩
/-- BL.PORT_STAT0 – BL.PORT_STAT15 [11] SPARE_USED -/
def PORT_STAT.SPARE_USED : Fld := ⟨.PORT_STAT, 11, 11⟩
/-- BL.PORT_STAT0 – BL.PORT_STAT15 [10:8] WIDTH -/
def PORT_STAT.WIDTH : Fld := ⟨.PORT_STAT, 10, 8⟩
/-- BL.PORT_STAT0 – BL.PORT_STAT15 [7:4] PLEVEL -/
def PORT_STAT.PLEVEL : Fld := ⟨.PORT_STAT, 7, 4⟩
/-- BL.PORT_STAT0 – BL.PORT_STAT15 [2:0] STATE -/
def PORT_STAT.STATE : Fld := ⟨.PORT_STAT, 2, 0⟩
/-- BL.ROUTE0 – BL.ROUTE4095 [10] V -/
def BL_ROUTE.V : Fld := ⟨.BL_ROUTE, 10, 10⟩
/-- BL.ROUTE0 – BL.ROUTE4095 [9] ALT_V -/
def BL_ROUTE.ALT_V : Fld := ⟨.BL_ROUTE, 9, 9⟩
/-- BL.ROUTE0 – BL.ROUTE4095 [7:4] ALT -/
def BL_ROUTE.ALT : Fld := ⟨.BL_ROUTE, 7, 4⟩
/-- BL.ROUTE0 – BL.ROUTE4095 [3:0] PRI -/
def BL_ROUTE.PRI : Fld := ⟨.BL_ROUTE, 3, 0⟩
/-- BL.ALLOW0 – BL.ALLOW7 [m] A -/
def BL_ALLOW.A (m : Nat) : Fld := ⟨.BL_ALLOW, m % 64, m % 64⟩
/-- BL.GRP_CFG0 – BL.GRP_CFG63 [63] EN -/
def GRP_CFG.EN : Fld := ⟨.GRP_CFG, 63, 63⟩
/-- BL.GRP_CFG0 – BL.GRP_CFG63 [62] POLICY -/
def GRP_CFG.POLICY : Fld := ⟨.GRP_CFG, 62, 62⟩
/-- BL.GRP_CFG0 – BL.GRP_CFG63 [61] ROOT -/
def GRP_CFG.ROOT : Fld := ⟨.GRP_CFG, 61, 61⟩
/-- BL.GRP_CFG0 – BL.GRP_CFG63 [60:57] NKIDS -/
def GRP_CFG.NKIDS : Fld := ⟨.GRP_CFG, 60, 57⟩
/-- BL.GRP_CFG0 – BL.GRP_CFG63 [56:54] PT -/
def GRP_CFG.PT : Fld := ⟨.GRP_CFG, 56, 54⟩
/-- BL.GRP_CFG0 – BL.GRP_CFG63 [53:42] PARENT -/
def GRP_CFG.PARENT : Fld := ⟨.GRP_CFG, 53, 42⟩
/-- BL.GRP_CFG0 – BL.GRP_CFG63 [41:30] RANK -/
def GRP_CFG.RANK : Fld := ⟨.GRP_CFG, 41, 30⟩
/-- BL.GRP_CFG0 – BL.GRP_CFG63 [29:18] NMEMB − 1 -/
def GRP_CFG.NMEMB : Fld := ⟨.GRP_CFG, 29, 18⟩
/-- BL.GRP_CFG0 – BL.GRP_CFG63 [17:8] DEADLINE -/
def GRP_CFG.DEADLINE : Fld := ⟨.GRP_CFG, 17, 8⟩
/-- BL.GRP_CFG0 – BL.GRP_CFG63 [7:0] LOST_MS -/
def GRP_CFG.LOST_MS : Fld := ⟨.GRP_CFG, 7, 0⟩
/-- BL.GRP_KIDS0 – BL.GRP_KIDS63 [63:48] GTAG -/
def GRP_KIDS.GTAG : Fld := ⟨.GRP_KIDS, 63, 48⟩
/-- BL.GRP_KIDS0 – BL.GRP_KIDS63 [12k+11:12k] KID -/
def GRP_KIDS.KID (k : Nat) : Fld := ⟨.GRP_KIDS, 12 * k + 11, 12 * k⟩
/-- BL.GRP_STAT0 – BL.GRP_STAT63 [63:48] SEQ_DONE -/
def GRP_STAT.SEQ_DONE : Fld := ⟨.GRP_STAT, 63, 48⟩
/-- BL.GRP_STAT0 – BL.GRP_STAT63 [47:32] LATE_SENT -/
def GRP_STAT.LATE_SENT : Fld := ⟨.GRP_STAT, 47, 32⟩
/-- BL.GRP_STAT0 – BL.GRP_STAT63 [31:16] LATE_RCVD -/
def GRP_STAT.LATE_RCVD : Fld := ⟨.GRP_STAT, 31, 16⟩
/-- BL.GRP_STAT0 – BL.GRP_STAT63 [15:8] LAST_STATUS -/
def GRP_STAT.LAST_STATUS : Fld := ⟨.GRP_STAT, 15, 8⟩
/-- BL.GRP_STAT0 – BL.GRP_STAT63 [7:0] DISCARDED -/
def GRP_STAT.DISCARDED : Fld := ⟨.GRP_STAT, 7, 0⟩
/-- BL.SEC_STAT [63:32] AUTH_FAIL -/
def SEC_STAT.AUTH_FAIL : Fld := ⟨.SEC_STAT, 63, 32⟩
/-- BL.SEC_STAT [31:16] PEER_REFUSED -/
def SEC_STAT.PEER_REFUSED : Fld := ⟨.SEC_STAT, 31, 16⟩
/-- BL.SEC_STAT [15:0] NO_ROUTE -/
def SEC_STAT.NO_ROUTE : Fld := ⟨.SEC_STAT, 15, 0⟩
/-- TILE.MESH_LINK0 – TILE.MESH_LINK3 [63:48] CRC_ERR -/
def MESH_LINK.CRC_ERR : Fld := ⟨.MESH_LINK, 63, 48⟩
/-- TILE.MESH_LINK0 – TILE.MESH_LINK3 [47:40] REPLAYS -/
def MESH_LINK.REPLAYS : Fld := ⟨.MESH_LINK, 47, 40⟩
/-- TILE.MESH_LINK0 – TILE.MESH_LINK3 [39:32] LAST_EOP_SEQ -/
def MESH_LINK.LAST_EOP_SEQ : Fld := ⟨.MESH_LINK, 39, 32⟩
/-- TILE.MESH_LINK0 – TILE.MESH_LINK3 [31:26] SPARES_USED -/
def MESH_LINK.SPARES_USED : Fld := ⟨.MESH_LINK, 31, 26⟩
/-- TILE.MESH_LINK0 – TILE.MESH_LINK3 [25:24] SB_SPARES -/
def MESH_LINK.SB_SPARES : Fld := ⟨.MESH_LINK, 25, 24⟩
/-- TILE.MESH_LINK0 – TILE.MESH_LINK3 [16] FENCE -/
def MESH_LINK.FENCE : Fld := ⟨.MESH_LINK, 16, 16⟩
/-- TILE.MESH_LINK0 – TILE.MESH_LINK3 [15:12] PLEVEL -/
def MESH_LINK.PLEVEL : Fld := ⟨.MESH_LINK, 15, 12⟩
/-- TILE.MESH_LINK0 – TILE.MESH_LINK3 [11:10] TX_WIDTH -/
def MESH_LINK.TX_WIDTH : Fld := ⟨.MESH_LINK, 11, 10⟩
/-- TILE.MESH_LINK0 – TILE.MESH_LINK3 [9:8] RX_WIDTH -/
def MESH_LINK.RX_WIDTH : Fld := ⟨.MESH_LINK, 9, 8⟩
/-- TILE.MESH_LINK0 – TILE.MESH_LINK3 [2:0] STATE -/
def MESH_LINK.STATE : Fld := ⟨.MESH_LINK, 2, 0⟩
/-- TILE.ROUTE0 – TILE.ROUTE75 [17] UNREACH -/
def ROUTE.UNREACH : Fld := ⟨.ROUTE, 17, 17⟩
/-- TILE.ROUTE0 – TILE.ROUTE75 [16] V -/
def ROUTE.V : Fld := ⟨.ROUTE, 16, 16⟩
/-- TILE.ROUTE0 – TILE.ROUTE75 [3c+2:3c] PORT -/
def ROUTE.PORT (c : Nat) : Fld := ⟨.ROUTE, 3 * c + 2, 3 * c⟩
/-- TILE.DIE_ID [63:24] PKG_SERIAL -/
def DIE_ID.PKG_SERIAL : Fld := ⟨.DIE_ID, 63, 24⟩
/-- TILE.DIE_ID [16] STEP -/
def DIE_ID.STEP : Fld := ⟨.DIE_ID, 16, 16⟩
/-- TILE.DIE_ID [15:9] STRAP -/
def DIE_ID.STRAP : Fld := ⟨.DIE_ID, 15, 9⟩
/-- TILE.DIE_ID [8] ID_OK -/
def DIE_ID.ID_OK : Fld := ⟨.DIE_ID, 8, 8⟩
/-- TILE.DIE_ID [6:0] SITE -/
def DIE_ID.SITE : Fld := ⟨.DIE_ID, 6, 0⟩
/-- TILE.CLK_STAT [63:48] XING_OVR -/
def CLK_STAT.XING_OVR : Fld := ⟨.CLK_STAT, 63, 48⟩
/-- TILE.CLK_STAT [47:16] STRETCHES -/
def CLK_STAT.STRETCHES : Fld := ⟨.CLK_STAT, 47, 16⟩
/-- TILE.CLK_STAT [15:8] DIV -/
def CLK_STAT.DIV : Fld := ⟨.CLK_STAT, 15, 8⟩
/-- TILE.CLK_STAT [1] FALLBACK -/
def CLK_STAT.FALLBACK : Fld := ⟨.CLK_STAT, 1, 1⟩
/-- TILE.CLK_STAT [0] LOCK -/
def CLK_STAT.LOCK : Fld := ⟨.CLK_STAT, 0, 0⟩
/-- HB.BOOT_STAGE [63:32] BOOT_COUNT -/
def BOOT_STAGE.BOOT_COUNT : Fld := ⟨.BOOT_STAGE, 63, 32⟩
/-- HB.BOOT_STAGE [31:24] LAST_STATUS -/
def BOOT_STAGE.LAST_STATUS : Fld := ⟨.BOOT_STAGE, 31, 24⟩
/-- HB.BOOT_STAGE [23:20] FAILED_STAGE -/
def BOOT_STAGE.FAILED_STAGE : Fld := ⟨.BOOT_STAGE, 23, 20⟩
/-- HB.BOOT_STAGE [19:16] STATE -/
def BOOT_STAGE.STATE : Fld := ⟨.BOOT_STAGE, 19, 16⟩
/-- HB.BOOT_STAGE [15:14] SLOT -/
def BOOT_STAGE.SLOT : Fld := ⟨.BOOT_STAGE, 15, 14⟩
/-- HB.BOOT_STAGE [7:0] SC_COUNT -/
def BOOT_STAGE.SC_COUNT : Fld := ⟨.BOOT_STAGE, 7, 0⟩
/-- HB.BOOT_TIME [31:0] TOTAL_US -/
def BOOT_TIME.TOTAL_US : Fld := ⟨.BOOT_TIME, 31, 0⟩
/-- HB.BOOT_CTL [3:1] STOP_AFTER -/
def BOOT_CTL.STOP_AFTER : Fld := ⟨.BOOT_CTL, 3, 1⟩
/-- HB.BOOT_CTL [0] RESTART -/
def BOOT_CTL.RESTART : Fld := ⟨.BOOT_CTL, 0, 0⟩
/-- TILE.RESET_CTL [63:60] OP -/
def RESET_CTL.OP : Fld := ⟨.RESET_CTL, 63, 60⟩
/-- TILE.RESET_CTL [59:56] CMASK -/
def RESET_CTL.CMASK : Fld := ⟨.RESET_CTL, 59, 56⟩
/-- TILE.RESET_STAT [63] BUSY -/
def RESET_STAT.BUSY : Fld := ⟨.RESET_STAT, 63, 63⟩
/-- TILE.RESET_STAT [55:48] STATUS -/
def RESET_STAT.STATUS : Fld := ⟨.RESET_STAT, 55, 48⟩
/-- TILE.RESET_STAT [47:40] ABSORBED -/
def RESET_STAT.ABSORBED : Fld := ⟨.RESET_STAT, 47, 40⟩
/-- TILE.RESET_STAT [39:36] TEST_PASS -/
def RESET_STAT.TEST_PASS : Fld := ⟨.RESET_STAT, 39, 36⟩
/-- TILE.RESET_STAT [31:28] TILE_CAUSE -/
def RESET_STAT.TILE_CAUSE : Fld := ⟨.RESET_STAT, 31, 28⟩
/-- TILE.RESET_STAT [24] MIL_HELD -/
def RESET_STAT.MIL_HELD : Fld := ⟨.RESET_STAT, 24, 24⟩
/-- TILE.RESET_STAT [4n+3:4n] CORE_CAUSE -/
def RESET_STAT.CORE_CAUSE (n : Nat) : Fld := ⟨.RESET_STAT, 4 * n + 3, 4 * n⟩
/-- TILE.CORE_PWR [4n+1:4n] REQ -/
def CORE_PWR.REQ (n : Nat) : Fld := ⟨.CORE_PWR, 4 * n + 1, 4 * n⟩
/-- TILE.PWR_CAP [15:0] CAP -/
def PWR_CAP.CAP : Fld := ⟨.PWR_CAP, 15, 0⟩
/-- TILE.CORE_PWR_STAT0 – TILE.CORE_PWR_STAT3 [63:56] ILIM -/
def CORE_PWR_STAT.ILIM : Fld := ⟨.CORE_PWR_STAT, 63, 56⟩
/-- TILE.CORE_PWR_STAT0 – TILE.CORE_PWR_STAT3 [55:48] EST -/
def CORE_PWR_STAT.EST : Fld := ⟨.CORE_PWR_STAT, 55, 48⟩
/-- TILE.CORE_PWR_STAT0 – TILE.CORE_PWR_STAT3 [47:43] RUNG -/
def CORE_PWR_STAT.RUNG : Fld := ⟨.CORE_PWR_STAT, 47, 43⟩
/-- TILE.CORE_PWR_STAT0 – TILE.CORE_PWR_STAT3 [42:41] POINT -/
def CORE_PWR_STAT.POINT : Fld := ⟨.CORE_PWR_STAT, 42, 41⟩
/-- TILE.CORE_PWR_STAT0 – TILE.CORE_PWR_STAT3 [40:39] DUTY -/
def CORE_PWR_STAT.DUTY : Fld := ⟨.CORE_PWR_STAT, 40, 39⟩
/-- TILE.CORE_PWR_STAT0 – TILE.CORE_PWR_STAT3 [38:35] PHASES -/
def CORE_PWR_STAT.PHASES : Fld := ⟨.CORE_PWR_STAT, 38, 35⟩
/-- TILE.CORE_PWR_STAT0 – TILE.CORE_PWR_STAT3 [34:33] STATE -/
def CORE_PWR_STAT.STATE : Fld := ⟨.CORE_PWR_STAT, 34, 33⟩
/-- TILE.CORE_PWR_STAT0 – TILE.CORE_PWR_STAT3 [32] RSVD_HINT -/
def CORE_PWR_STAT.RSVD_HINT : Fld := ⟨.CORE_PWR_STAT, 32, 32⟩
/-- TILE.CORE_PWR_STAT0 – TILE.CORE_PWR_STAT3 [31] REFUSED -/
def CORE_PWR_STAT.REFUSED : Fld := ⟨.CORE_PWR_STAT, 31, 31⟩
/-- TILE.CORE_PWR_STAT0 – TILE.CORE_PWR_STAT3 [30] VS_FALLBACK -/
def CORE_PWR_STAT.VS_FALLBACK : Fld := ⟨.CORE_PWR_STAT, 30, 30⟩
/-- TILE.CORE_PWR_STAT0 – TILE.CORE_PWR_STAT3 [27:24] VS_GOOD -/
def CORE_PWR_STAT.VS_GOOD : Fld := ⟨.CORE_PWR_STAT, 27, 24⟩
/-- TILE.CORE_PWR_STAT0 – TILE.CORE_PWR_STAT3 [15:0] GAIN -/
def CORE_PWR_STAT.GAIN : Fld := ⟨.CORE_PWR_STAT, 15, 0⟩
/-- TILE.DOM_STAT [63:48] SHEDS -/
def DOM_STAT.SHEDS : Fld := ⟨.DOM_STAT, 63, 48⟩
/-- TILE.DOM_STAT [15:12] DARK -/
def DOM_STAT.DARK : Fld := ⟨.DOM_STAT, 15, 12⟩
/-- TILE.DOM_STAT [7:0] PHASES -/
def DOM_STAT.PHASES : Fld := ⟨.DOM_STAT, 7, 0⟩
/-- HB.MOD_CAP [63:48] EFFECTIVE -/
def MOD_CAP.EFFECTIVE : Fld := ⟨.MOD_CAP, 63, 48⟩
/-- HB.MOD_CAP [47:32] LIMIT -/
def MOD_CAP.LIMIT : Fld := ⟨.MOD_CAP, 47, 32⟩
/-- HB.MOD_CAP [31:16] MGMT -/
def MOD_CAP.MGMT : Fld := ⟨.MOD_CAP, 31, 16⟩
/-- HB.MOD_CAP [15:0] HOST -/
def MOD_CAP.HOST : Fld := ⟨.MOD_CAP, 15, 0⟩
/-- HB.PT_CAP0 – HB.PT_CAP7 [31:16] CEIL -/
def PT_CAP.CEIL : Fld := ⟨.PT_CAP, 31, 16⟩
/-- HB.PT_CAP0 – HB.PT_CAP7 [15:0] CAP -/
def PT_CAP.CAP : Fld := ⟨.PT_CAP, 15, 0⟩
/-- HB.PWR_MEAS [63:48] INPUT_W -/
def PWR_MEAS.INPUT_W : Fld := ⟨.PWR_MEAS, 63, 48⟩
/-- HB.PWR_MEAS [47:32] INPUT_V -/
def PWR_MEAS.INPUT_V : Fld := ⟨.PWR_MEAS, 47, 32⟩
/-- HB.PWR_MEAS [31:22] ETA -/
def PWR_MEAS.ETA : Fld := ⟨.PWR_MEAS, 31, 22⟩
/-- HB.PWR_MEAS [4:0] BRICKS -/
def PWR_MEAS.BRICKS : Fld := ⟨.PWR_MEAS, 4, 0⟩
/-- TILE.THERM_STAT [63:48] DIE_T -/
def THERM_STAT.DIE_T : Fld := ⟨.THERM_STAT, 63, 48⟩
/-- TILE.THERM_STAT [47:32] DRAM_T -/
def THERM_STAT.DRAM_T : Fld := ⟨.THERM_STAT, 47, 32⟩
/-- TILE.THERM_STAT [31:27] FLOOR -/
def THERM_STAT.FLOOR : Fld := ⟨.THERM_STAT, 31, 27⟩
/-- TILE.THERM_STAT [26:23] THR -/
def THERM_STAT.THR : Fld := ⟨.THERM_STAT, 26, 23⟩
/-- TILE.THERM_STAT [22] WARN -/
def THERM_STAT.WARN : Fld := ⟨.THERM_STAT, 22, 22⟩
/-- TILE.THERM_STAT [21] CLAMP -/
def THERM_STAT.CLAMP : Fld := ⟨.THERM_STAT, 21, 21⟩
/-- TILE.THERM_STAT [18:0] BROKEN -/
def THERM_STAT.BROKEN : Fld := ⟨.THERM_STAT, 18, 0⟩
/-- HB.COOL_CFG [63:48] SETPOINT -/
def COOL_CFG.SETPOINT : Fld := ⟨.COOL_CFG, 63, 48⟩
/-- HB.COOL_CFG [47:32] KFACTOR -/
def COOL_CFG.KFACTOR : Fld := ⟨.COOL_CFG, 47, 32⟩
/-- HB.COOL_CFG [31] FORECAST -/
def COOL_CFG.FORECAST : Fld := ⟨.COOL_CFG, 31, 31⟩
/-- HB.COOL_CFG [30:24] FC_TARGET -/
def COOL_CFG.FC_TARGET : Fld := ⟨.COOL_CFG, 30, 24⟩
/-- HB.COOL_CFG [23:16] FC_GAIN -/
def COOL_CFG.FC_GAIN : Fld := ⟨.COOL_CFG, 23, 16⟩
/-- HB.COOL_STAT [63:48] FLOW -/
def COOL_STAT.FLOW : Fld := ⟨.COOL_STAT, 63, 48⟩
/-- HB.COOL_STAT [47:36] INLET -/
def COOL_STAT.INLET : Fld := ⟨.COOL_STAT, 47, 36⟩
/-- HB.COOL_STAT [35:24] OUTLET -/
def COOL_STAT.OUTLET : Fld := ⟨.COOL_STAT, 35, 24⟩
/-- HB.COOL_STAT [23:21] STATE -/
def COOL_STAT.STATE : Fld := ⟨.COOL_STAT, 23, 21⟩
/-- HB.COOL_STAT [20] IN_BROKEN -/
def COOL_STAT.IN_BROKEN : Fld := ⟨.COOL_STAT, 20, 20⟩
/-- HB.COOL_STAT [19] OUT_BROKEN -/
def COOL_STAT.OUT_BROKEN : Fld := ⟨.COOL_STAT, 19, 19⟩
/-- HB.COOL_STAT [18:17] SHED_CAUSE -/
def COOL_STAT.SHED_CAUSE : Fld := ⟨.COOL_STAT, 18, 17⟩
/-- HB.THERM_LIMITS [63:48] COOL_W -/
def THERM_LIMITS.COOL_W : Fld := ⟨.THERM_LIMITS, 63, 48⟩
/-- HB.THERM_LIMITS [47:32] INLET_W -/
def THERM_LIMITS.INLET_W : Fld := ⟨.THERM_LIMITS, 47, 32⟩
/-- HB.THERM_LIMITS [31:16] BRIM_W -/
def THERM_LIMITS.BRIM_W : Fld := ⟨.THERM_LIMITS, 31, 16⟩
/-- HB.THERM_LIMITS [15:0] BRICK_W -/
def THERM_LIMITS.BRICK_W : Fld := ⟨.THERM_LIMITS, 15, 0⟩
/-- HB.TRIP_LAST [63:32] BOOT_COUNT -/
def TRIP_LAST.BOOT_COUNT : Fld := ⟨.TRIP_LAST, 63, 32⟩
/-- HB.TRIP_LAST [31:29] SOURCE -/
def TRIP_LAST.SOURCE : Fld := ⟨.TRIP_LAST, 31, 29⟩
/-- HB.TRIP_LAST [28:22] SITE -/
def TRIP_LAST.SITE : Fld := ⟨.TRIP_LAST, 28, 22⟩
/-- HB.TRIP_LAST [21:6] TEMP -/
def TRIP_LAST.TEMP : Fld := ⟨.TRIP_LAST, 21, 6⟩
/-- HB.EVT_STAT [63:32] WRITTEN -/
def EVT_STAT.WRITTEN : Fld := ⟨.EVT_STAT, 63, 32⟩
/-- HB.EVT_STAT [31:16] FLASH_COUNT -/
def EVT_STAT.FLASH_COUNT : Fld := ⟨.EVT_STAT, 31, 16⟩
/-- HB.EVT_STAT [0] STANDBY_OK -/
def EVT_STAT.STANDBY_OK : Fld := ⟨.EVT_STAT, 0, 0⟩
/-- MIL.EVT_CFG [9:8] SEV_MIN -/
def MIL_EVT_CFG.SEV_MIN : Fld := ⟨.MIL_EVT_CFG, 9, 8⟩
/-- MIL.EVT_CFG [7:0] CLASS_EN -/
def MIL_EVT_CFG.CLASS_EN : Fld := ⟨.MIL_EVT_CFG, 7, 0⟩
/-- MIL.EVT_PTR [63:48] LOST -/
def MIL_EVT_PTR.LOST : Fld := ⟨.MIL_EVT_PTR, 63, 48⟩
/-- MIL.EVT_PTR [13:8] TAIL -/
def MIL_EVT_PTR.TAIL : Fld := ⟨.MIL_EVT_PTR, 13, 8⟩
/-- MIL.EVT_PTR [5:0] HEAD -/
def MIL_EVT_PTR.HEAD : Fld := ⟨.MIL_EVT_PTR, 5, 0⟩
/-- HIF.EVT_CFG [9:8] NOTICE_SEV -/
def HIF_EVT_CFG.NOTICE_SEV : Fld := ⟨.HIF_EVT_CFG, 9, 8⟩
/-- HIF.EVT_CFG [7:0] CLASS_EN -/
def HIF_EVT_CFG.CLASS_EN : Fld := ⟨.HIF_EVT_CFG, 7, 0⟩
/-- HB.FUSE_STAT [63:60] REVOKE -/
def FUSE_STAT.REVOKE : Fld := ⟨.FUSE_STAT, 63, 60⟩
/-- HB.FUSE_STAT [59:56] PROG -/
def FUSE_STAT.PROG : Fld := ⟨.FUSE_STAT, 59, 56⟩
/-- HB.FUSE_STAT [55] DBG_LOCK -/
def FUSE_STAT.DBG_LOCK : Fld := ⟨.FUSE_STAT, 55, 55⟩
/-- HB.FUSE_STAT [27:21] SVN_BOOT -/
def FUSE_STAT.SVN_BOOT : Fld := ⟨.FUSE_STAT, 27, 21⟩
/-- HB.FUSE_STAT [20:14] SVN_HBFW -/
def FUSE_STAT.SVN_HBFW : Fld := ⟨.FUSE_STAT, 20, 14⟩
/-- HB.FUSE_STAT [13:7] SVN_RT -/
def FUSE_STAT.SVN_RT : Fld := ⟨.FUSE_STAT, 13, 7⟩
/-- HB.FUSE_STAT [6:0] SVN_FMC -/
def FUSE_STAT.SVN_FMC : Fld := ⟨.FUSE_STAT, 6, 0⟩
/-- HB.SLOT_STAT [63:48] FMT_A -/
def SLOT_STAT.FMT_A : Fld := ⟨.SLOT_STAT, 63, 48⟩
/-- HB.SLOT_STAT [47:32] FMT_B -/
def SLOT_STAT.FMT_B : Fld := ⟨.SLOT_STAT, 47, 32⟩
/-- HB.SLOT_STAT [15:13] STATE_A -/
def SLOT_STAT.STATE_A : Fld := ⟨.SLOT_STAT, 15, 13⟩
/-- HB.SLOT_STAT [12:10] STATE_B -/
def SLOT_STAT.STATE_B : Fld := ⟨.SLOT_STAT, 12, 10⟩
/-- HB.SLOT_STAT [3:1] TRIES -/
def SLOT_STAT.TRIES : Fld := ⟨.SLOT_STAT, 3, 1⟩
/-- HB.SLOT_STAT [0] ACTIVE -/
def SLOT_STAT.ACTIVE : Fld := ⟨.SLOT_STAT, 0, 0⟩
/-- HB.UPD_CTL [3] DIST_POLICY -/
def UPD_CTL.DIST_POLICY : Fld := ⟨.UPD_CTL, 3, 3⟩
/-- HB.UPD_CTL [2] REVERT -/
def UPD_CTL.REVERT : Fld := ⟨.UPD_CTL, 2, 2⟩
/-- HB.UPD_CTL [0] CONFIRM -/
def UPD_CTL.CONFIRM : Fld := ⟨.UPD_CTL, 0, 0⟩
/-- HB.DIST_STAT [63:48] TARGETS -/
def DIST_STAT.TARGETS : Fld := ⟨.DIST_STAT, 63, 48⟩
/-- HB.DIST_STAT [47:32] GOOD -/
def DIST_STAT.GOOD : Fld := ⟨.DIST_STAT, 47, 32⟩
/-- HB.DIST_STAT [31:24] BAD -/
def DIST_STAT.BAD : Fld := ⟨.DIST_STAT, 31, 24⟩
/-- HB.DIST_STAT [23:22] ROUND -/
def DIST_STAT.ROUND : Fld := ⟨.DIST_STAT, 23, 22⟩
/-- HB.DIST_STAT [21:19] PHASE -/
def DIST_STAT.PHASE : Fld := ⟨.DIST_STAT, 21, 19⟩
/-- HB.DIST_STAT [18:16] TYPE -/
def DIST_STAT.TYPE : Fld := ⟨.DIST_STAT, 18, 16⟩
/-- TILE.FW_LAST (02, after TILE.FW_STAT) [47:0] DA -/
def FW_LAST.DA : Fld := ⟨.FW_LAST, 47, 0⟩
/-- HIF.ERR_DA (11, after HIF.ERR_STAT) [47:0] DA -/
def HIF_ERR_DA.DA : Fld := ⟨.HIF_ERR_DA, 47, 0⟩
/-- TILE.MCAST_MASK (13, after TILE.ROUTE) [4:0] MASK -/
def MCAST_MASK.MASK : Fld := ⟨.MCAST_MASK, 4, 0⟩
/-- CORE.GUARD_STATn word 0: counts [31:16] NONFINITE_SKIP, [47:32] SAT_COUNT, [63:48] REPLAYS. -/
def GUARD_STAT.NONFINITE_SKIP : Fld := ⟨.GUARD_STAT, 31, 16⟩
/-- CORE.GUARD_STATn SAT_COUNT (word 0) -/
def GUARD_STAT.SAT_COUNT : Fld := ⟨.GUARD_STAT, 47, 32⟩
/-- CORE.GUARD_STATn REPLAYS (word 0) -/
def GUARD_STAT.REPLAYS : Fld := ⟨.GUARD_STAT, 63, 48⟩
/-- CORE.GUARD_STATn REPLACED (word 1, bits [95:64]) -/
def GUARD_STAT.REPLACED : Fld := ⟨.GUARD_STAT, 31, 0⟩
/-- CORE.GUARD_STATn BREACHES (word 1, bits [127:96]) -/
def GUARD_STAT.BREACHES : Fld := ⟨.GUARD_STAT, 63, 32⟩
/-- CORE.GUARD_STATn ESC_OVF (word 2, bits [159:128]) -/
def GUARD_STAT.ESC_OVF : Fld := ⟨.GUARD_STAT, 31, 0⟩
/-- CORE.GUARD_STATn CLIPS (word 2, bits [191:160]) -/
def GUARD_STAT.CLIPS : Fld := ⟨.GUARD_STAT, 63, 32⟩
/-- CORE.GUARD_STATn ELEMS (word 3) -/
def GUARD_STAT.ELEMS : Fld := ⟨.GUARD_STAT, 63, 0⟩
/-- CORE.GUARD_STATn BINj (word 4 + j / 2) -/
def GUARD_STAT.BIN (j : Nat) : Fld := ⟨.GUARD_STAT, 32 * (j % 2) + 31, 32 * (j % 2)⟩

/-- Bits [hi:lo] of a word. -/
def getBits (w : Word) (hi lo : Nat) : Nat := w.toNat / 2 ^ lo % 2 ^ (hi + 1 - lo)

/-- A word with bits [hi:lo] replaced by the low bits of `v`. -/
def setBits (w : Word) (hi lo v : Nat) : Word :=
  let m : Word := BitVec.ofNat 64 ((2 ^ (hi + 1 - lo) - 1) * 2 ^ lo)
  (w &&& ~~~m) ||| (BitVec.ofNat 64 (v * 2 ^ lo) &&& m)

/-- The word a list of field rows resets to. -/
def rowsReset (rows : List FieldRow) : Word :=
  rows.foldl (fun w r => setBits w r.hi r.lo r.reset) 0

/-- The reset word of a register before any F or H value is loaded. -/
def Reg.resetWord (r : Reg) (_u i : Nat) : Word := rowsReset (r.fields i)

/-- The key of copy `i` of a register in unit `u` (a core, a site, a function, a brim die ...). -/
def regKey (r : Reg) (u i : Nat) : Nat := (u * 2 ^ 16 + i) * 2 ^ 7 + r.num

/-- The loc of a window that covers an offset. -/
def RegLoc.covers (l : RegLoc) (w : Window) (off : Nat) : Bool :=
  l.win == w && l.base ≤ off && (off - l.base) / l.stride < l.count && (off - l.base) % l.stride < 8

/-- The register at an offset of a window: the register, its index and the byte within it. -/
def findReg (w : Window) (off : Nat) : Option (Reg × Nat × Nat) :=
  match regLocs.find? (fun l => l.covers w off) with
  | some l => some (l.reg, l.mul * ((off - l.base) / l.stride) + l.add, (off - l.base) % l.stride)
  | none => none

end Sys2Proof.Machine
end

