-- ==== Sys2Proof/Machine/Types.lean ====
section
/-! DEFINITION. The types of operands and of the commands an array, the matrix-vector path or a queue holds: exact numbers,
formats, operand records, guarded encodes and chains. -/

namespace Sys2Proof.Machine

/-- A sparse table: keys strictly rising, one value each. -/
abbrev Tbl (α : Type) := List (Nat × α)

/-- A number: NaN with its sign, an infinity, or (-1)^neg * m * 2^e; `m = 0` is a zero with its sign. -/
inductive Num where
  | nan (neg : Bool)
  | inf (neg : Bool)
  | fin (neg : Bool) (m : Nat) (e : Int)
  deriving DecidableEq, Repr

/-- The format codes of R31. -/
inductive Fmt where
  | bf16 | fp16 | fp32 | int8 | mxE4m3 | mxE5m2 | mxE3m2 | mxE2m3 | mxfp4 | mxint8
  | ft4e4c | ft4e4f | ft4e8c | ft4e8f
  deriving DecidableEq, Repr

/-- An operand record's fields; `fmt` and `gs` are codes. -/
structure OpRec where
  f       : Nat
  esc     : Nat
  scale   : Nat
  data    : Nat
  tag     : Nat
  gs      : Nat
  fmt     : Nat
  rstride : Nat
  /-- The must-be-zero bits are zero. -/
  mbz     : Bool
  deriving DecidableEq, Repr

/-- How a group's scale is chosen: formed just in time, or from a given (delayed) amax. -/
inductive ScaleMode where
  | jit
  | given (amax : Num)
  deriving DecidableEq, Repr

/-- What an encode that names a slot keeps from its issue (R50, R88). -/
structure SlotUse where
  core    : Nat
  /-- Requester of R20. -/
  who     : Nat
  slot    : Nat
  fmt     : Fmt
  gs      : Nat
  clipThr : Nat
  headThr : Nat
  /-- Core offset of the slot's area. -/
  base    : Nat
  /-- D of R79. -/
  dOff    : Nat
  delayed : Bool
  /-- POS_BASE. -/
  pos     : Nat
  f       : Num
  h       : Nat
  ovfInf  : Bool
  stats   : Bool
  replace : Bool
  deriving DecidableEq, Repr

/-! ## What the arrays hold (04) -/

/-- An accumulator of a bank: the FP32 main and escape accumulators with the terms still to be added in some order (R45,
R47), and the INT32 accumulator. -/
structure Acc where
  main  : Nat := 0
  esc   : Nat := 0
  int   : Int := 0
  /-- An INT32 addition has saturated (R62). -/
  sat   : Bool := false
  mTerm : List Num := []
  eTerm : List Num := []
  deriving DecidableEq, Repr

/-- A check cell: the check and bound of a row or column of one array (R61), FP32, or exact for INT8, with the terms still to
be added in some order. -/
structure Lane where
  chk   : Num := .fin false 0 0
  bnd   : Num := .fin false 0 0
  cTerm : List Num := []
  bTerm : List Num := []
  deriving DecidableEq, Repr

/-- What the accumulators hold of a chain: the accumulating banks' cells, the partial sums of each array whose sums meet
another's in the cross-array adder (R59, R63), and the check cells of each array. -/
structure Sums where
  cells : Tbl Acc := []
  parts : Tbl Acc := []
  lanes : Tbl Lane := []
  deriving DecidableEq, Repr

/-- An MMA's operands (R111): `wf` and `xf` are the multiplied formats, `src` the activation's source format, `first` and
`final` the scale choices of a quantise-on-load operand before and after replacement (R85). -/
structure MmaOp where
  w     : OpRec
  x     : OpRec
  wf    : Fmt
  xf    : Fmt
  src   : Fmt
  kt    : Nat
  rows  : Nat
  gang  : Nat
  use   : Option SlotUse
  first : List (List ScaleMode)
  final : List (List ScaleMode)
  deriving DecidableEq, Repr

/-- An OPX's operands (R66). -/
structure OpxOp where
  u     : OpRec
  v     : OpRec
  uf    : Fmt
  vf    : Fmt
  steps : Nat
  deriving DecidableEq, Repr

/-- A SEG_UP's operands (R73). -/
structure SegUpOp where
  h     : OpRec
  rows  : Nat
  slots : Nat
  list  : Nat
  idx   : Nat
  gang  : Nat
  deriving DecidableEq, Repr

inductive ChainKind where
  | mma (x : MmaOp)
  | opx (x : OpxOp)
  | segUp (x : SegUpOp)
  deriving DecidableEq, Repr

/-- A command that writes a bank (R56). -/
structure ChainCmd where
  index : Nat
  kind  : ChainKind
  deriving DecidableEq, Repr

/-- The DRAIN of a chain (R110). -/
structure DrainCmd where
  index  : Nat
  dst    : Nat
  stride : Nat
  ofmt   : Nat
  deriving DecidableEq, Repr

/-- A bank's chain (R56-R65). -/
structure Chain where
  cmds   : List ChainCmd
  rows   : Nat
  gang   : Nat
  /-- OPX: 64 rows of 64. -/
  compat : Bool
  int    : Bool
  /-- The tensor factor F of the drain, FP32 (R45). -/
  f      : Nat
  /-- Commands of one chain differ in F or in their accumulator: the outputs are values no rule gives (log 27). -/
  mixed  : Bool := false
  tol    : Nat
  cells  : Tbl Acc
  /-- Own partial sums and check cells of the arrays (R61, R63). -/
  parts  : Tbl Acc := []
  lanes  : Tbl Lane := []
  /-- Mismatches of the chain (R64, R65). -/
  mism   : Nat := 0
  /-- Accumulating arrays that have not passed a compare since the replay of a first mismatch (R64). -/
  retry  : List Nat := []
  /-- A breaching group waits for the guard's replay (R85). -/
  breach : Bool := false
  /-- Accumulating arrays whose drain compare has passed. -/
  passed : List Nat := []
  drain  : Option DrainCmd := none
  deriving DecidableEq, Repr

/-- A running MVM (R69-R72). -/
structure MvOp where
  index  : Nat
  w      : OpRec
  x      : OpRec
  wf     : Fmt
  xf     : Fmt
  src    : Fmt
  use    : Option SlotUse
  /-- The scale choices of a quantise-on-load operand before and after replacement. -/
  first  : List (List ScaleMode)
  final  : List (List ScaleMode)
  n      : Nat
  k      : Nat
  b      : Nat
  brows  : Nat
  add    : Bool
  ofmt   : Nat
  out    : Nat
  check  : Nat
  f      : Nat
  tol    : Nat
  /-- The block that streams. -/
  block  : Nat := 0
  mism   : Nat := 0
  /-- A first-run breach waits for the guard's restream of the block (R85). -/
  breach : Bool := false
  deriving DecidableEq, Repr

end Sys2Proof.Machine
end

