-- ==== Sys2Proof/Machine/State.lean ====
section
/-! DEFINITION. The state of the block as plain data, the reasons a command can stop (none), and the state at reset.
Registers are the tables `regs` and `loaded`; memories are the byte cells of `mem` with the marks beside them. -/

namespace Sys2Proof.Machine

/-! ## Status codes and events (18) -/

/-- The status codes of R371. -/
inductive Status where
  | ok | retry | aborted | stateConflict | badFormat | noResource | featureLevel | integrity | poison | fenced
  | scaleSkew | auth | memberLost
  deriving DecidableEq, Repr

/-- An event record (R376): the fields of the 32 bytes, DETAIL as its 12 bytes. -/
structure EvtRec where
  code   : Nat
  site   : Nat
  ltile  : Nat
  unit   : Nat
  pv     : Bool
  pt     : Nat
  sev    : Nat
  trunc  : Bool
  supp   : Nat
  cycle  : Nat
  seq    : Nat
  detail : List Nat
  /-- The function a class 0x8 record names (R380). -/
  fn     : Option Nat
  deriving DecidableEq, Repr

/-- A function buffer and its notice state (R381, R382). -/
structure FnBuf where
  recs     : List EvtRec := []
  /-- Records dropped while full. -/
  dropped  : Nat := 0
  /-- Highest SEV of the notices written since the last GET_LOG log 0 completed; none written: `none`. -/
  noticed  : Option Nat := none
  deriving DecidableEq, Repr

/-- Events of the module (R376-R383, R429). -/
structure EventState where
  /-- SEQ of each source, by `sourceKey`. -/
  seq         : Tbl Nat := []
  /-- Records raised in the current 1 ms window, by limit key (R429). -/
  win         : Tbl Nat := []
  /-- Events withheld since the last record of a code and source (SUPP). -/
  supp        : Tbl Nat := []
  /-- Episodes open, by key ("once per episode"). -/
  episodes    : List Nat := []
  /-- The module log, newest record first, at most 16,384. -/
  log         : List EvtRec := []
  /-- Records not yet copied to their readers, oldest first. -/
  undelivered : List EvtRec := []
  /-- Records raised before READY that have reached the flash store and I3C and not the functions, oldest first (R311). -/
  early       : List EvtRec := []
  /-- Sites whose milliner ring holds 64 unread records. -/
  milFull     : List Nat := []
  /-- The flash store, newest first, at most 4,096. -/
  flash       : List EvtRec := []
  /-- Function buffers, by function. -/
  bufs        : Tbl FnBuf := []
  /-- Milliner event rings: record by site * 64 + index. -/
  milRing     : Tbl EvtRec := []
  /-- I3C in-band interrupts requested. -/
  i3c         : Nat := 0
  deriving DecidableEq, Repr

/-! ## Memory (02, 08) -/

/-- What is wrong with a lane or a beat of a memory (R19, R152). -/
inductive Mark where
  /-- SRAM lane with a poison mark, DRAM beat holding the poison marker, poisoned DMEM beat. -/
  | poison
  /-- SRAM lane with a single-bit error. -/
  | laneCorrectable
  /-- SRAM lane with an uncorrectable error not yet met by a read. -/
  | laneBad
  /-- DRAM beat whose stored 272 bits differ from the written ones in `mask`. -/
  | beatError (mask : BitVec 272)
  deriving DecidableEq, Repr

/-- What a physical DRAM channel holds beside CORE.DRAM_CH_STATk (R153-R168). -/
structure Chan where
  /-- CEs of each 4-bond group since the last retrain (R159). -/
  groups    : Tbl Nat := []
  /-- The write-back queue: bytes of the beats in the channel, oldest first, at most 8 (R153). -/
  wbq       : List Nat := []
  /-- A retrain is due and waits (R159). -/
  due       : Bool := false
  /-- A trigger of R159 for an early retrain has been met since the last one. -/
  early     : Bool := false
  /-- The tile's DRAM temperature at the last training, in 1/16 °C; none until the first reading after it (R159). -/
  trainTemp : Option Int := none
  /-- Repairs by bank: (bank, row) or (bank, beat column) (R162). -/
  rowSoft   : List (Nat × Nat) := []
  colSoft   : List (Nat × Nat) := []
  rowFuse   : List (Nat × Nat) := []
  colFuse   : List (Nat × Nat) := []
  /-- Spares a repair took and that failed the repeated test, by bank, one entry each (R295). -/
  rowDead   : List Nat := []
  colDead   : List Nat := []
  /-- The channel has passed a test since its last repair (R168). -/
  tested    : Bool := false
  deriving DecidableEq, Repr

/-- Where a swap or RETURN of a logical channel stands (R165, R166). -/
inductive SwapPhase where
  /-- The fullers copy, and writes go to both channels. -/
  | copying
  /-- The copy has ended: new requests to the channel are held until the remap. -/
  | holding
  /-- A dead source: the remap waits, reads and writes complete POISON. -/
  | deadRemap
  /-- Remapped after a dead source: the fullers fill the spare with poison markers. -/
  | filling
  deriving DecidableEq, Repr

/-- A swap or RETURN running on a core (R165, R168). -/
structure Swap where
  lch      : Nat
  src      : Nat
  dst      : Nat
  isReturn : Bool
  /-- Ordered by the repair window, whose command ends with it. -/
  window   : Bool
  phase    : SwapPhase
  poisoned : Nat := 0
  deriving DecidableEq, Repr

/-- The repair-window command running on a tile (R163). -/
structure RepairCmd where
  op     : Nat
  core   : Nat
  pch    : Nat
  bank   : Nat
  row    : Nat
  col    : Nat
  lch    : Nat
  copy   : Bool
  status : Status
  deriving DecidableEq, Repr

/-- The Hatband (14-19). -/
structure Hatband where
  /-- The die that holds the active Hatband: 0, or 2 after a failover (R375). -/
  active : Nat := 0
  /-- The bring-up stage (1 CARDING ... 6 FINISHING), 7 in service. -/
  stage  : Nat := 1
  /-- HALTED (R317). -/
  halted : Bool := false
  /-- MOD_DRAIN is in force (R317). -/
  drain  : Bool := false
  /-- The last mirror the standby has received (R375): the registers of caps, limits and groups, and the number of records
  the module log had taken. -/
  mirror : Tbl Word := []
  logged : Nat := 0
  deriving DecidableEq, Repr

/-! ## Core command streams (06) -/

/-- A command held by the sequencer (R95): its ring index, its 128 bits, and the trap cause of a failed fetch. -/
structure Fetched where
  index : Nat
  word  : BitVec 128
  bad   : Option Nat := none
  deriving DecidableEq, Repr

/-- A write a running command will perform by its completion (R104). -/
inductive Store where
  /-- Bytes at an offset of the core's own SRAM. -/
  | sram (off : Nat) (data : List Byte)
  /-- A request of the core at a device address (R14). -/
  | req (da : Nat) (data : List Byte)
  deriving DecidableEq, Repr

/-- A length-table entry (R122). -/
structure LtEntry where
  kvh   : Nat
  len   : Nat
  start : Nat
  seq   : Nat
  /-- Its must-be-zero bits are zero. -/
  mbz   : Bool
  deriving DecidableEq, Repr

/-- An ATT_WALK whose entry `entry` has been computed and not yet committed (R136, R143). -/
structure AttRun where
  table : List LtEntry
  desc  : Nat
  entry : Nat
  /-- GEN as read at the entry's start; none: the entry needs no check. -/
  gen   : Option Nat
  /-- The failure the entry met. -/
  fail  : Option Status
  /-- Runs of rows still to be committed, one write a row. -/
  runs  : List (List Store)
  deriving DecidableEq, Repr

/-- An issued command that has not completed. -/
structure InFlight where
  index  : Nat
  word   : BitVec 128
  /-- The status it will complete with, unless a write is refused first. -/
  status : Status := .ok
  /-- The writes it performs by its completion, in order. -/
  writes : List Store := []
  /-- Fullers an FGO waits for (R108). -/
  wait   : List Nat := []
  /-- The chain (accumulating array, or 0 of a gang; bank) whose commit completes it (R57). -/
  chain  : Option (Nat × Nat) := none
  /-- The bank (array, bank) it uses as scratch until it completes (R73). -/
  scratch : Option (Nat × Nat) := none
  /-- Its unit has finished; only its completion is outstanding. -/
  ready  : Bool := true
  /-- Tensor slots it names (R86). -/
  slots  : List Nat := []
  /-- A walk with a commit outstanding. -/
  att    : Option AttRun := none
  deriving DecidableEq, Repr

/-- One issue queue (R93). HEAD, TAIL and STATE are in QPTR and QSTAT. -/
structure Queue where
  /-- Commands fetched ahead of HEAD, HEAD's command first. -/
  fetched  : List Fetched := []
  /-- Ring index of the next command to fetch. -/
  fetchAt  : Nat := 0
  inflight : List InFlight := []
  /-- Signals failed commands withheld, as (semaphore, count) (R100). -/
  withheld : List (Nat × Nat) := []
  /-- SEQ_WAIT_LONG raised for the present wait (R102). -/
  warned   : Bool := false
  deriving DecidableEq, Repr

/-- A power reservation of a core (R115, R351). -/
structure Reservation where
  level   : Nat
  scope   : Nat
  lead    : Nat
  dur     : Nat
  started : Bool := false
  /-- Reserved power in mW (R351). -/
  pRes    : Nat := 0
  /-- The core whose HEAVY asked for it. -/
  owner   : Nat
  deriving DecidableEq, Repr

/-- A step advance or seed of a tensor slot that runs or waits for operations in flight (R86, R87). -/
structure GuardUpd where
  slot  : Nat
  seed  : Bool
  /-- P, W and the area's base as they stood at its start (R88). -/
  p     : Nat
  win   : Nat
  base  : Nat
  /-- Queue and ring index of the SLOT_ADV. -/
  queue : Nat := 0
  index : Nat := 0
  deriving DecidableEq, Repr

/-- What a core holds beside its registers and memories. -/
structure Core where
  /-- The KV codec's stochastic-rounding generator (R42). -/
  srState  : Nat := 1
  updates  : List GuardUpd := []
  /-- Slots whose GUARD_SAT was raised and whose SAT_COUNT has not been read since (R90). -/
  satRaised : List Nat := []
  queues   : Tbl Queue := []
  /-- CORE.MSG_FIFO, oldest first: (queue, TAG). -/
  msgFifo  : List (Nat × Nat) := []
  /-- SRAM lanes waiting for the write-back of a corrected error (R19), oldest first. -/
  sramWb   : List Nat := []
  resv     : Option Reservation := none
  /-- DMA channels halted by POISON (R375). -/
  dmaHalted : Nat := 0
  /-- Chains of the banks, by 4 * (accumulating array or 0 of a gang) + bank (R56). -/
  chains   : Tbl Chain := []
  /-- The MVM that runs, and its ring index. -/
  mv       : Option MvOp := none
  deriving DecidableEq, Repr

/-! ## Milliners (10) -/

/-- A cached line of 64 bytes (R197-R199). -/
structure CacheLine where
  bytes    : List Byte
  dirty    : Bool := false
  poisoned : Bool := false
  deriving DecidableEq, Repr

/-- What a milliner holds (R194-R204). -/
structure Mil where
  /-- Integer registers x1-x31, by number. -/
  x         : Tbl Word := []
  pc        : Word := 0
  /-- Floating-point registers and vector registers of VLEN = 256 (R194), by number. -/
  f         : Tbl Word := []
  v         : Tbl (BitVec 256) := []
  /-- RISC-V control and status registers, by number (log 18); one not listed reads 0. -/
  csrs      : Tbl Word := []
  /-- The privilege mode: 3 machine, 1 supervisor, 0 user. -/
  priv      : Nat := 3
  /-- The hart runs: started by the Hatband and not held in reset (R204, R321). -/
  running   : Bool := false
  /-- Instruction lines (L1I), by PA / 64. -/
  icache    : Tbl CacheLine := []
  /-- Data lines (L1D and L2), by PA / 64. -/
  dcache    : Tbl CacheLine := []
  /-- The first posted store to memory that failed since the last FENCE that ordered it, and the first to I/O: status and DA
  (R196). -/
  storeFault : Option (Status × Nat) := none
  ioFault    : Option (Status × Nat) := none
  /-- The line a load reserved (LR), by PA / 64 (R195). -/
  resv      : Option Nat := none
  /-- Pending identities of the interrupt files, as 256 * file + identity (R201). -/
  eip       : List Nat := []
  /-- APLIC target words, by source (R202). -/
  targets   : Tbl Nat := []
  /-- APLIC sources pending, not yet sent as an MSI (R202). -/
  aplic     : List Nat := []
  /-- MIL.FUL_IRQ, oldest first: (core, fuller, TAG). -/
  fulIrq    : List (Nat × Nat × Nat) := []
  /-- The watchdog's warning has been given for this interval (R204). -/
  warned    : Bool := false
  deriving DecidableEq, Repr

/-! ## Panel mesh (13) -/

/-- A RESPONSE on its way to a requester (R267). -/
structure Resp where
  by_    : Agent
  tag    : Nat
  status : Status
  len    : Nat
  data   : List Byte
  deriving DecidableEq, Repr

/-- A request that waits at its destination (R22, R160, R165, R285). -/
inductive Held where
  | read (by_ : Agent) (tag : Nat) (da : Nat) (len : Nat)
  | write (by_ : Agent) (tag : Nat) (da : Nat) (data : List Byte)
  | atomic (by_ : Agent) (tag : Nat) (da : Nat) (op : AmoOp) (size : Nat) (operand : Word)
  /-- A read or write at a channel controller (DRAM_READ, DRAM_WRITE): core, slice offset, requester. -/
  | sliceRead (core off len requester : Nat) (e1 e2 : BitVec 272)
  | sliceWrite (core off : Nat) (data : List Byte) (requester : Nat)
  deriving DecidableEq, Repr

/-- A flit sent and kept until it is acknowledged (R237, R266): its SEQ, the low 32 bits of its header, its data. -/
structure TxFlit where
  seq  : Nat
  head : Nat
  data : List Byte
  deriving DecidableEq, Repr

/-- 16 bytes of a class's stream on a mesh link (R267): whether a header, and the packet that ends with them. -/
structure TxSlot where
  hdr   : Bool
  bytes : List Byte
  last  : Option MeshPkt := none
  deriving DecidableEq, Repr

/-- One end of a mesh link beside its MESH_LINK register (R265-R273). -/
structure MeshEnd where
  rxSeq    : Nat := 0
  naked    : Bool := false
  txSeq    : Nat := 0
  unacked  : Nat := 0
  /-- The replay buffer, oldest first, each flit with the packets that end in it (R266, R274). -/
  replay   : List (TxFlit × List MeshPkt) := []
  replays  : Nat := 0
  /-- CRC discards in the present millisecond. -/
  discards : Nat := 0
  /-- Credits held, in flits, by class (R266, R270). -/
  credits  : List Nat := [64, 64, 64, 64]
  /-- Flits received and not yet returned as credits, by class. -/
  owed     : List Nat := [0, 0, 0, 0]
  /-- Slots of 16 bytes to send, by class, oldest first (R267, R268). -/
  out      : Tbl (List TxSlot) := []
  /-- The class served last (R270). -/
  last     : Nat := 3
  /-- Bytes of packets partly received, by class. -/
  part     : Tbl (List Byte) := []
  /-- Wires found failed in the receive direction, as (group, wire), wire 32 the spare, and sideband wires. -/
  bad      : List (Nat × Nat) := []
  sbBad    : Nat := 0
  deriving DecidableEq, Repr

/-- Requests, responses and packets of the mesh. -/
structure Mesh where
  /-- Link ends, by 16 * endpoint + link. -/
  ends      : Tbl MeshEnd := []
  /-- Packets that wait at a router, as (router, port, packet), oldest first (R273, R274). -/
  waiting   : List (Nat × Nat × MeshPkt) := []
  /-- Packets a router has put on a port, as (router, port, packet), oldest first. -/
  moved     : List (Nat × Nat × MeshPkt) := []
  /-- Flits put on the wires, as (endpoint, link, flit), oldest first (R265). -/
  flits     : List (Nat × Nat × MeshFlit) := []
  /-- Packets of the local ports held back while injection is paused, as (router, packet), oldest first (R274). -/
  inject    : List (Nat × MeshPkt) := []
  /-- Packets discarded as ill-formed at their destination (R267). -/
  badPkts   : Nat := 0
  /-- Links being rerouted around, as (endpoint, link): injection is paused while there is one (R274). -/
  paused    : List (Nat × Nat) := []
  /-- Their new tables are in force, and the mesh is emptying (R274 step 5). -/
  switched  : Bool := false
  /-- Sticky overrun flags of crossings, as (site, unit): 0-3 a core, 4 the tile, 8 + d link d (R286). -/
  overrun   : List (Nat × Nat) := []
  /-- Responses on their way, oldest first. -/
  responses : List Resp := []
  /-- Responses that reached their requester, newest first. -/
  answered  : List Resp := []
  /-- Tags a router has taken over from a unit that was reset (R319). -/
  absorbing : List (Agent × Nat) := []
  deriving DecidableEq, Repr

/-! ## Fullers (09) -/

/-- A gather-reduce run of a fuller (R187-R190). -/
structure GrRun where
  desc     : BitVec 512
  /-- Its rank among the named fullers. -/
  rank     : Nat
  /-- Ordered by the Hatband over the management path. -/
  mgmt     : Bool := false
  deriving DecidableEq, Repr

/-- What a fuller holds beside its registers, IMEM and DMEM (R172). -/
structure Fuller where
  /-- x1-x15, 32 bits. -/
  x       : Tbl Nat := []
  pc      : Nat := 0
  /-- W0-W7, 256 bits, and the numbers of those with the poison flag. -/
  w       : Tbl Nat := []
  wPoison : List Nat := []
  /-- minstret. -/
  retired : Nat := 0
  gr      : Option GrRun := none
  /-- The watchdog has expired and the fuller has not stopped (R186). -/
  hung    : Bool := false
  deriving DecidableEq, Repr

/-! ## The host interface (11) -/

/-- What the module sends to the host (memory writes of a function, MSI-X). -/
inductive HostOut where
  /-- A memory write, with Relaxed Ordering where `ro` (R206). -/
  | mem (fn : Nat) (addr : Nat) (data : List Byte) (ro : Bool := false)
  | msix (fn : Nat) (vector : Nat)
  /-- What a read of a BAR returns (R209, R210, R219). -/
  | cpl (fn : Nat) (data : List Byte)
  deriving DecidableEq, Repr

/-- A submission queue (R211, R213-R215). -/
structure Sq where
  base    : Nat
  size    : Nat
  cq      : Nat
  /-- Next entry to fetch. -/
  head    : Nat := 0
  tail    : Nat := 0
  /-- Stopped by a failed entry fetch until it is deleted (R232). -/
  stopped : Bool := false
  deriving DecidableEq, Repr

/-- A completion queue (R212, R216, R222). -/
structure Cq where
  base    : Nat
  size    : Nat
  vector  : Nat
  coalCnt : Nat
  coalUs  : Nat
  /-- Entries written, and entries the host has released, since creation. -/
  tail    : Nat := 0
  head    : Nat := 0
  /-- Entries written since the last send. -/
  since   : Nat := 0
  stalled : Bool := false
  /-- Completions that wait for a free entry, oldest first (R216), without P. -/
  wait    : List Nat := []
  deriving DecidableEq, Repr

/-- A token ring or pull ring (R217-R219): entries as their 63 low bits; of a pull ring `head` counts the entries popped. -/
structure Ring where
  base    : Nat
  size    : Nat
  vector  : Nat
  coalCnt : Nat
  coalUs  : Nat
  pull    : Bool
  /-- Entries written, and entries the host has released, since creation. -/
  tail    : Nat := 0
  head    : Nat := 0
  since   : Nat := 0
  /-- Entries held in the queue owner's memory (R218), or the entries of a pull ring, oldest first. -/
  held    : List Nat := []
  full    : Bool := false
  deriving DecidableEq, Repr

/-- A command fetched from an SQ that has not completed. -/
structure Sub where
  id   : Nat
  sq   : Nat
  word : BitVec 512
  /-- That SQ's head after the fetch. -/
  sqhd : Nat
  /-- It has started and completes later. -/
  busy : Bool := false
  /-- It is held while an adapter loads (R225). -/
  held : Bool := false
  /-- The status with which a running ADAPTER_LOAD will end (R225). -/
  load : Status := .ok
  deriving DecidableEq, Repr

/-- A function's settings in its configuration space (R206, R221; values after reset: log 113): MSI-X Enable, the Relaxed
Ordering enable, D3hot, ASPM L1, Max Payload and Max Read Request Size as PCIe codes them (2^(7+n) bytes), ECRC. -/
structure PcieCfg where
  msixEn  : Bool := false
  relaxed : Bool := true
  d3hot   : Bool := false
  aspmL1  : Bool := false
  payload : Nat := 0
  readReq : Nat := 2
  ecrcGen : Bool := false
  ecrcChk : Bool := false
  deriving DecidableEq, Repr

/-- A PCIe function (R207-R222). -/
structure Fn where
  sqs      : Tbl Sq := []
  cqs      : Tbl Cq := []
  rings    : Tbl Ring := []
  /-- MSI-X vectors unmasked, and those pending. -/
  unmasked : List Nat := []
  msixPend : List Nat := []
  /-- MSI-X table: vector v's address at 2v and its data word at 2v + 1. -/
  msixTab  : Tbl Nat := []
  subs     : List Sub := []
  /-- A function-level reset waits for forwarded commands; sequences it has ended (R228). -/
  flr      : Option Nat := none
  /-- It was asked for by EN = 0, which leaves the registers (FN_CTL). -/
  flrSoft  : Bool := false
  /-- K_e2e while end-to-end protection applies, and the last 8 bytes of the last SUBMIT's IV (R409). -/
  e2eKey   : Option (BitVec 256) := none
  lastIv   : Option Nat := none
  cfg      : PcieCfg := {}
  deriving DecidableEq, Repr

/-- A live sequence with its parameters (R224, R323): FP32 codes of TEMP and TOP_P. -/
structure Seq where
  fn      : Nat
  ring    : Nat
  stream  : Nat
  adapter : Nat
  /-- Position of its next token. -/
  pos     : Nat
  /-- New tokens it may still write (MAXNEW). -/
  left    : Nat
  temp    : Nat := 0
  topP    : Nat := 0x3F800000
  topK    : Nat := 0
  seed    : Nat := 0
  /-- STOP0 and STOP1; 0xFFFF_FFFF for none. -/
  stop0   : Nat := 0xFFFFFFFF
  stop1   : Nat := 0xFFFFFFFF
  /-- Its last token was a stop token. -/
  stopped : Bool := false
  deriving DecidableEq, Repr

/-- A partition in service (R316). -/
structure Part where
  /-- PART_STATE: 0 READY, 1 SERVING, 2 DRAINING, 3 FENCED, 4 RE-BLOCKING. -/
  state    : Nat := 0
  /-- DEG as last reported (R314). -/
  deg      : Bool := false
  /-- Live sequences, by handle. -/
  seqs     : Tbl Seq := []
  /-- Adapters resident in memory. -/
  adapters : List Nat := []
  /-- The weight measurement (R407), once formed. -/
  weight   : Option (BitVec 512) := none
  /-- It has been reset and has not served since: a re-block of the whole partition may lower its level (R278). -/
  fresh    : Bool := false
  deriving DecidableEq, Repr

/-! ## Brimlink (12) -/

/-- Link state of a Brimlink port beside BL.PORT_CFG and BL.PORT_STAT (R236-R249). -/
structure BlPort where
  /-- SEQ of the flit expected next (R237). -/
  rxSeq   : Nat := 0
  /-- A NAK has been sent and its replay has not come. -/
  naked   : Bool := false
  /-- SEQ of the next flit sent, and flits sent and not acknowledged. -/
  txSeq   : Nat := 0
  unacked : Nat := 0
  /-- The replay buffer: flits sent and not acknowledged, oldest first (R237). -/
  replay  : List TxFlit := []
  /-- Times the oldest unacknowledged flit has been replayed (R238). -/
  replays : Nat := 0
  /-- Credits held for the partner's buffers, by virtual channel (R248). -/
  credits : List Nat := [256, 256, 1024, 256]
  /-- Flits of the receive buffers freed and not yet returned as credits, by virtual channel (R248). -/
  owed    : List Nat := [0, 0, 0, 0]
  /-- Packets that wait at the output, oldest first. -/
  wait    : List BlPkt := []
  /-- Packets partly sent, by virtual channel: the flit to send next, the packet. -/
  cur     : Tbl (Nat × BlPkt) := []
  /-- The last 15 flit slots used, newest first: true for a channel other than bulk (R248). -/
  recent  : List Bool := []
  /-- Payload bytes of packets partly received, by virtual channel. -/
  part    : Tbl (List Byte) := []
  /-- The lane the spare stands in for (R240). -/
  spareFor : Option Nat := none
  /-- Why the port is PAUSED: 1 spare swap or narrowing, 2 retrain. -/
  pause   : Nat := 0
  /-- The lane whose failure paused the port last; 17 for none. -/
  lane    : Nat := 17
  deriving DecidableEq, Repr

/-- A bulk transfer at this module (R251-R256). -/
structure Xfer where
  sender   : Bool
  die      : Nat
  pt       : Nat
  /-- Run by the Hatband for a REFILL_REQ: no descriptor and no record (R255). -/
  hatband  : Bool := false
  statDa   : Nat := 0
  semDa    : Nat := 0
  mapDa    : Nat := 0
  unit     : Nat := 0
  total    : Nat
  matchId  : Nat
  peer     : Nat
  mask     : Nat := 0
  xid      : Nat := 0
  bitmap   : Nat := 0
  weights  : Bool
  /-- The source ranges (DA, bytes) of a Hatband send. -/
  ranges   : List (Nat × Nat) := []
  /-- The logical tile whose weights move. -/
  ltile    : Nat := 0
  /-- Sender: 0 OPEN sent, 1 to be sent again, 2 data sent. Receiver: 0 armed, 1 open. -/
  phase    : Nat := 0
  rounds   : Nat := 0
  /-- A packet of the transfer was refused under R244. -/
  authFail : Bool := false
  /-- The status of the last REJECT. -/
  reject   : Option Status := none
  /-- Sender: packets the last MISSING counted, or that a failed read left unsent. -/
  missing  : Nat := 0
  /-- The host command it serves: function and submission. -/
  sub      : Option (Nat × Nat) := none
  deriving DecidableEq, Repr

/-- A REFILL that waits for its transfer (R255): function, submission, tile, source module, port mask and MATCH. -/
structure Refill where
  fn      : Nat
  sub     : Nat
  ltile   : Nat
  src     : Nat
  mask    : Nat := 0
  matchId : Nat
  deriving DecidableEq, Repr

/-- A message of this module before it is sealed into a packet (R241). -/
structure BlMsg where
  dst    : Nat
  dpt    : Nat
  spt    : Nat
  typ    : Nat
  fields : Nat := 0
  body   : List Byte
  /-- The port its port-mask bit names (R252). -/
  port   : Option Nat := none
  deriving DecidableEq, Repr

/-- A receive window of packet numbers (R244): the highest seen, and those seen within the window. -/
structure PnWindow where
  top  : Nat := 0
  seen : List Nat := []
  deriving DecidableEq, Repr

/-- A fleet session with a peer (R410, R411). -/
structure Session where
  epoch    : Nat
  secret   : BitVec 256
  /-- The previous epoch's secret and window, while it is accepted. -/
  prev     : Option (BitVec 256 × PnWindow) := none
  /-- The new epoch has not arrived yet: the 10 ms have not begun. -/
  fresh    : Bool := false
  /-- PN of the next packet sent. -/
  txPn     : Nat := 1
  window   : PnWindow := {}
  deriving DecidableEq, Repr

/-- A piece of a collective packet received: child or parent module, rank, OFF and bytes. -/
structure CollPiece where
  src   : Nat
  rank  : Nat
  off   : Nat
  bytes : List Byte
  deriving DecidableEq, Repr

/-- An operation descriptor in force (R258). -/
structure CollDesc where
  die    : Nat
  statDa : Nat
  semDa  : Nat
  dstDa  : Nat
  srcDa  : Nat
  seq    : Nat
  len    : Nat
  op     : Nat
  red    : Nat
  dtype  : Nat
  deriving DecidableEq, Repr

/-- A group's present operation (R257-R262). -/
structure Group where
  desc    : Option CollDesc := none
  /-- This member's contribution. -/
  own     : List Byte := []
  /-- Contributions and results received for the present SEQ. -/
  pieces  : List CollPiece := []
  /-- Children that have contributed completely, that have sent LATE, and that are left out (R260). -/
  late    : List Nat := []
  without : List Nat := []
  /-- Contributions or markers received from a child or the parent. -/
  heard   : List Nat := []
  flagged : Bool := false
  missing : Nat := 0
  /-- The contribution (or a root's share) has been sent. -/
  sent    : Bool := false
  deriving DecidableEq, Repr

/-- Brimlink beside its registers. -/
structure Brim where
  ports    : Tbl BlPort := []
  /-- Packets whose sending has begun, as (port, packet), oldest first. -/
  sent     : List (Nat × BlPkt) := []
  /-- Flits put on the wires, as (port, flit), oldest first (R236). -/
  flits    : List (Nat × BlFlit) := []
  /-- Packets for this module that wait to be delivered, oldest first: its own to itself (R245), and data held for a channel
  (R160). -/
  looped   : List BlPkt := []
  xfers    : Tbl Xfer := []
  nextXfer : Nat := 0
  refills  : List Refill := []
  sessions : Tbl Session := []
  /-- Messages that wait for a session, oldest first (R410). -/
  waiting  : List BlMsg := []
  groups   : Tbl Group := []
  /-- MGMT bodies received, as (source module, bytes), oldest first (R242). -/
  mgmtIn   : List (Nat × List Byte) := []
  /-- Brim dies fenced (R326). -/
  fenced   : List Nat := []
  deriving DecidableEq, Repr

/-! ## The applied image (14) -/

/-- A TILE_MAP entry (R307). -/
structure TileEntry where
  ltile    : Nat
  site     : Nat
  cores    : Nat
  wdog     : Bool
  autoSwap : Bool
  deriving DecidableEq, Repr

/-- A CORE_CFG entry (R307). -/
structure CoreCfg where
  site      : Nat
  core      : Nat
  phys      : List Nat
  spare     : Nat
  autoSpare : Bool
  gang      : Nat
  pch       : List Nat
  deriving DecidableEq, Repr

/-- A PARTITION entry (R307). -/
structure PartCfg where
  pt       : Nat
  expLevel : Nat
  owner    : Nat
  tiles    : Nat
  fns      : Nat
  ports    : Nat
  ceil     : Nat
  deriving DecidableEq, Repr

/-- A MESH_ROUTE entry (R307): the router, its multicast mask and its 76 route words. -/
structure RouteCfg where
  router  : Nat
  mcast   : Nat
  entries : List Nat
  deriving DecidableEq, Repr

/-- An ADAPTER_TABLE entry (R307). -/
structure AdapterCfg where
  ltile : Nat
  base  : Nat
  slotBytes : Nat
  slots : Nat
  deriving DecidableEq, Repr

/-- A MEM_REGION entry (R307). -/
structure RegionCfg where
  ltile : Nat
  kind  : Nat
  index : Nat
  base  : Nat
  len   : Nat
  deriving DecidableEq, Repr

/-- What a Hatblock image says (R306-R308), as applied. -/
structure Image where
  tiles    : List TileEntry := []
  cores    : List CoreCfg := []
  parts    : List PartCfg := []
  routes   : List RouteCfg := []
  moduleId : Nat := 0
  fabric   : Nat := 0
  minw     : Nat := 0
  blRoutes : List Nat := []
  blAllow  : List (Nat × List Nat) := []
  /-- VF_POINT values by domain (R338). -/
  points   : List (Nat × Nat) := []
  adapters : List AdapterCfg := []
  regions  : List RegionCfg := []
  policy   : Nat := 0
  deriving DecidableEq, Repr

/-! ## Power, temperature and supply (16, 17, 20) -/

/-- A regulated domain beside its status registers (R333-R341). -/
structure Dom where
  /-- Phases lost, and so shed (R335). -/
  lost     : List Nat := []
  dark     : Bool := false
  /-- Switching on: 0 not, 1 waiting for admission, 2 ramping, 3 ramping slowly (R341). -/
  ramp     : Nat := 0
  /-- Isolated after an overvoltage whose check is outstanding (R337). -/
  isolated : Bool := false
  deriving DecidableEq, Repr

/-- What power control holds of a core beside TILE.CORE_PWR_STATn. -/
structure CorePwr where
  /-- Sum and number of the estimates since the last cap evaluation (R345). -/
  estSum  : Nat := 0
  estN    : Nat := 0
  /-- The point whose voltage move runs (R339). -/
  move    : Option Nat := none
  /-- Switching on from OFF: the SRAM will be cleared (R340). -/
  fromOff : Bool := false
  /-- Voltage sensors left out (R334). -/
  vsBad   : List Nat := []
  deriving DecidableEq, Repr

/-- The forecast of a reservation of a core (R365): caps on neighbours of its tile, by site, and whether the reservation
has ended. -/
structure Forecast where
  core  : Nat
  caps  : List (Nat × Nat)
  ended : Bool := false
  deriving DecidableEq, Repr

/-- Caps and forecasts (R345-R366). -/
structure PwrCtl where
  /-- Caps above 15/16 of their value at some evaluation of the present millisecond (R347). -/
  high      : List Nat := []
  /-- Power in mW each cap saw at its last evaluation: 0 module, 16 + PT, 256 + site. -/
  power     : Tbl Nat := []
  /-- Tile caps as PF0 wrote them, by site (R366). -/
  pf0       : Tbl Nat := []
  forecasts : List Forecast := []
  deriving DecidableEq, Repr

/-- The rainflow count of a site (R367). -/
structure Cycle where
  /-- The extreme reached since the last turning point, and whether the temperature rises. -/
  ext   : Option Int := none
  rises : Bool := true
  /-- Turning points not yet counted, newest first. -/
  turns : List Int := []
  deriving DecidableEq, Repr

/-- Temperatures and coolant beside THERM_STAT and COOL_STAT (R353-R367). -/
structure Therm where
  /-- The last reading of each sensor, in 1/16 °C, by `sensorKey`. -/
  readings : Tbl Int := []
  /-- Monitors Sizing found broken (R354). -/
  retired  : List Nat := []
  /-- Brim-die sensors broken in service. -/
  broken   : List Nat := []
  /-- Thermal step floor of each site, with its hysteresis (R357). -/
  steps    : Tbl Nat := []
  /-- DRAM throttle level of each site by its temperature alone (R359). -/
  thr      : Tbl Nat := []
  /-- Samples in a row that the inlet and the outlet thermistor have missed (R364). -/
  inMiss   : Nat := 0
  outMiss  : Nat := 0
  /-- Logic-die temperatures one and two evaluations ago (R363). -/
  prev1    : Tbl Int := []
  prev2    : Tbl Int := []
  /-- Tiles over the slope in the last evaluation and in the one before it. -/
  hot1     : Nat := 0
  hot2     : Nat := 0
  /-- Flow pulses of the present 50 ms and of the five before it, newest first (R361). -/
  pulses   : List Nat := [0]
  /-- Flow updates in a row at 85 % of the setpoint or more. -/
  steady   : Nat := 0
  cycles   : Tbl Cycle := []
  /-- Half-cycles counted, by 3 * site + bin (R367). -/
  counts   : Tbl Nat := []
  deriving DecidableEq, Repr

/-- The input and the first stage (R329, R422, R423). -/
structure Supply where
  /-- The input has risen to 40 V and not fallen below 30 V since. -/
  input     : Bool := true
  modEn     : Bool := true
  /-- The first stage runs. -/
  on        : Bool := true
  latch     : Bool := false
  /-- The orderly power-down of R423 runs. -/
  powerDown : Bool := false
  /-- A trip has been detected: the enable opens (R360). -/
  trip      : Bool := false
  deriving DecidableEq, Repr

/-- A trip record (R360). -/
structure TripRec where
  boot   : Nat
  source : Nat
  site   : Nat
  temp   : Int
  deriving DecidableEq, Repr

/-! ## Resets and re-blocks (15) -/

/-- A reset or test that runs on a tile (R319, R327). -/
structure ResetRun where
  /-- OP of TILE.RESET_CTL: 2 RESET_CORE, 4 TEST_CORE, 6 RESET_TILE, 8 TEST_TILE. -/
  op     : Nat
  cmask  : Nat
  /-- The partition reset it is a part of. -/
  part   : Option Nat := none
  /-- Writes of issued commands that are still outstanding: core, requester of R20, write. -/
  writes : List (Nat × Nat × Store) := []
  deriving DecidableEq, Repr

/-- A partition reset that runs (R321): its command and the sites whose tile reset has not ended. -/
structure PartReset where
  fn    : Nat
  sub   : Nat
  sites : List Nat
  deriving DecidableEq, Repr

/-- A re-block that runs (R324): its command, the old sites, the sites that come in (logical tile, site), the image that will
be in force and the digest of the partial image. -/
structure Reblock where
  fn     : Nat
  sub    : Nat
  olds   : List Nat
  news   : List (Nat × Nat)
  image  : Image
  digest : BitVec 512
  /-- The partial is partition-scoped (KIND 2). -/
  whole  : Bool
  deriving DecidableEq, Repr

/-! ## Bring-up (14) -/

/-- A stage report (R302). -/
structure Report where
  stage     : Nat
  status    : Nat
  flags     : Nat
  slot      : Nat
  duration  : Nat
  bootCount : Nat
  cycle     : Nat
  entries   : List BadUnit
  deriving DecidableEq, Repr

/-- The present bring-up (R289-R301). -/
structure Boot where
  /-- The stage in `Hatband.stage` has failed, or STOP_AFTER has stopped after it (R290, R309). -/
  failed     : Bool := false
  stopped    : Bool := false
  /-- Units marked bad. -/
  bad        : List BadUnit := []
  /-- Informative entries of the record: repairs, substitutions, cores that run uncalibrated. -/
  notes      : List BadUnit := []
  /-- The retention screen has been skipped, and its hold has ended (R294). -/
  skipped    : Bool := false
  holdDone   : Bool := false
  /-- Fulling rejected the tile runtime or the fuller microcode (R393). -/
  noRuntime  : Bool := false
  /-- Steps 1-3 of Finishing have ended (R300, R301). -/
  linkTurn   : Bool := false
  /-- The conformateur record as it stands (R304). -/
  record     : List Byte := []
  /-- Stage reports of the four most recent bring-ups, newest first, each in stage order (R302). -/
  reports    : List (List Report) := []
  /-- A RESTART has removed power and waits 100 ms (R309). -/
  restarting : Bool := false
  /-- The firmware slot the boot ROM used (R395), and the slot whose Hatblock image is in force. -/
  fwSlot     : Nat := 0
  imgSlot    : Nat := 0
  deriving DecidableEq, Repr

/-- The PCIe link, its pins and PF0's SR-IOV capability (R207, R229, R301). -/
structure Pcie where
  /-- PERST# is asserted. -/
  perst    : Bool := true
  /-- The link trains. -/
  training : Bool := false
  /-- It has reached L0. -/
  up       : Bool := false
  width    : Nat := 0
  speed    : Nat := 0
  /-- The link runs in SRIS, without the host's REFCLK (R419). -/
  sris     : Bool := false
  numVfs   : Nat := 0
  vfEnable : Bool := false
  deriving DecidableEq, Repr

/-! ## Security and update (19) -/

/-- A firmware slot (R394, R395): 0 EMPTY, 1 STAGED, 2 TRIAL, 3 CONFIRMING, 4 GOOD; its images by TYPE, and the format of its
settings area. -/
structure Slot where
  state  : Nat := 0
  images : Tbl (List Byte) := []
  fmt    : Nat := 0
  deriving DecidableEq, Repr

/-- An SPDM connection (R405): 1 version, 2 capabilities, 3 algorithms known, 4 a key exchange open, 5 a session; and its
secret. -/
structure Spdm where
  phase  : Nat := 0
  secret : BitVec 256 := 0
  /-- Weight measurements asked for (R407): a partition while it is computed, 16 + partition once it can be reported. -/
  waits  : List Nat := []
  deriving DecidableEq, Repr

/-- What the module answered to a management or SPDM message: its transport (none: an order that names none), the request,
whether it was accepted, and the body. -/
structure Answer where
  dest   : Option Transport
  code   : Nat
  ok     : Bool
  status : Nat
  body   : List Byte
  deriving DecidableEq, Repr

/-- A selective IDE stream and TDISP state of a function (R408): keys programmed by key set, the key set in use, and the TDI
state (0 CONFIG_UNLOCKED, 1 CONFIG_LOCKED, 2 RUN, 3 ERROR). -/
structure Ide where
  keys  : Tbl (BitVec 256) := []
  inUse : Option Nat := none
  tdi   : Nat := 0
  deriving DecidableEq, Repr

/-- The update agent (R399): its transport, PLDM state (1 learning components, 2 ready, 3 downloading), the components
announced, the one in transfer with its size, and the images received by TYPE. -/
structure Upd where
  by_   : Transport
  state : Nat := 1
  comps : List Nat := []
  cur   : Option (Nat × Nat) := none
  part  : List Byte := []
  got   : Tbl (List Byte) := []
  deriving DecidableEq, Repr

/-- A target of a distribution (R401): a milliner, or a fuller of a core. -/
structure DistTarget where
  site : Nat
  ful  : Option (Nat × Nat) := none
  deriving DecidableEq, Repr

/-- A distribution (R401-R404): 1 sending, 2 roll-call, 3 hashing. -/
structure Dist where
  typ    : Nat
  number : Nat
  body   : List Byte
  digest : BitVec 512
  phase  : Nat := 1
  round  : Nat := 0
  /-- A live activation of a slot (R400). -/
  live   : Bool := false
  targets : List DistTarget := []
  /-- Packets written, by target. -/
  got    : Tbl (List Nat) := []
  /-- What each target reported: 1 GOOD, 2 missing packets, 3 digest mismatch, 4 fenced. -/
  result : List (DistTarget × Nat) := []
  /-- Sites whose agents have hashed. -/
  hashed : List Nat := []
  deriving DecidableEq, Repr

/-- Sessions, the update agent and distribution. -/
structure Sec where
  spdm    : Tbl Spdm := []
  answers : List Answer := []
  ide     : Tbl Ide := []
  upd     : Option Upd := none
  dist    : Option Dist := none
  /-- Number of the next distribution. -/
  distNo  : Nat := 0
  /-- D of measurement block 4 (R406). -/
  layout  : BitVec 512 := 0
  /-- The distributed runtime and microcode in force, as (TYPE, BODY_DIGEST). -/
  loaded  : Tbl (BitVec 512) := []
  deriving DecidableEq, Repr

/-! ## What power loss leaves (14, 19) -/

/-- The fuses of a die (R276): the package serial, the stepping (0 B0, 1 B1) and the site or 72 + n. -/
structure DieFuse where
  serial : Nat := 0
  step   : Nat := 1
  site   : Nat
  deriving DecidableEq, Repr

/-- Flash and fuses beside the registers loaded from them. -/
structure NonVol where
  /-- Fuses of the dies, by endpoint; one not listed is of a good B1 die of serial 0 (log 2). -/
  dies        : Tbl DieFuse := []
  /-- Bring-ups begun (R292). -/
  bootCount   : Nat := 0
  /-- The last trip (R360). -/
  trip        : Option TripRec := none
  /-- Half-cycle counts written, by 3 * site + bin (R367). -/
  cycles      : Tbl Nat := []
  /-- FLEET_MIN_SVN of the settings (R410). -/
  fleetMinSvn : Nat := 0
  /-- Firmware slots A (0) and B (1), the ACTIVE one, TRIES, and a reversion due at the next bring-up with its cause (R395,
  R396). -/
  slots       : Tbl Slot := [(0, { state := 4 })]
  active      : Nat := 0
  tries       : Nat := 0
  revert      : Option Nat := none
  /-- ROOTk hashes programmed by OWNER_ENROLL, PROG, REVOKE, the SVN counters by class and DBG_LOCK (R387). -/
  owners      : Tbl (BitVec 512) := []
  prog        : Nat := 3
  revoke      : Nat := 0
  svn         : List Nat := [0, 0, 0, 0]
  dbgLock     : Nat := 0
  /-- The conformateur record of the last bring-up and of the factory, and the stage reports of the last bring-up (R302,
  R304). -/
  lastRecord  : List Byte := []
  factory     : List Byte := []
  reports     : List Report := []
  /-- Units the last record names bad (R304). -/
  lastBad     : List BadUnit := []
  deriving DecidableEq, Repr

/-! ## The whole block -/

structure State where
  /-- The commands that wait, first in, first out. -/
  pending : List Instr
  /-- The model's own counter: index of the next free value (log 4). -/
  freeCtr : Nat
  /-- Registers that differ from their reset word, by `regKey`. -/
  regs    : Tbl Word
  /-- Reset words loaded from fuses or the Hatblock image (R7), by `regKey`. -/
  loaded  : Tbl Word
  /-- Every memory of the block, byte by byte (keys: `dramByte`, `sramByte`, `fulByte`). -/
  mem     : List Host.Cell
  /-- Marks beside the memories, by the key of the lane's or beat's first byte. -/
  marks   : Tbl Mark
  /-- DRAM channels, by `chKey`. -/
  chans   : Tbl Chan
  /-- Swaps and RETURNs running, by core. -/
  swaps   : Tbl Swap
  /-- Logical channels that have lost their contents, as 16 * core + channel (R166). -/
  lost    : List Nat
  /-- Repair-window commands running, by site (R163). -/
  repairs : Tbl RepairCmd
  /-- Cores, by `4 * site + n`. -/
  cores   : Tbl Core
  /-- Milliners, by site. -/
  mils    : Tbl Mil
  /-- Fullers, by `fulKey`. -/
  fullers : Tbl Fuller
  mesh    : Mesh
  /-- PCIe functions, 0 for PF0. -/
  fns     : Tbl Fn
  /-- Partitions the image defines. -/
  parts   : Tbl Part
  /-- What was sent to the host, oldest first. -/
  hostOut : List HostOut
  /-- Requests held until a channel, an SRAM or a clock is ready, oldest first; of a channel at most 48 on the stripe path and
  16 on the fine path (R148). -/
  held    : List Held
  /-- Requests that found their channel's queue full and stall before it, oldest first (R12, R148). -/
  stalled : List Held
  events  : EventState
  hb      : Hatband
  /-- Number of the next submission fetched. -/
  nextSub : Nat
  brim    : Brim
  /-- The image in force; no tile before Blocking. -/
  image   : Image
  /-- Feature level of each partition, fixed at Blocking (R278). -/
  levels  : Tbl Nat
  /-- Regulated domains, by `domKey`. -/
  doms    : Tbl Dom
  cpwr    : Tbl CorePwr
  pwr     : PwrCtl
  therm   : Therm
  supply  : Supply
  /-- Resets and tests that run, by site. -/
  resets     : Tbl ResetRun
  /-- Partition resets that run, by partition. -/
  partResets : Tbl PartReset
  /-- Sites whose tile has passed TEST_TILE since its fence. -/
  tilePass   : List Nat
  /-- Re-blocks that run, by partition. -/
  reblocks   : Tbl Reblock
  boot       : Boot
  pcie       : Pcie
  sec        : Sec
  nv         : NonVol
  deriving DecidableEq, Repr

/-- The block has no condition that stops it: every failure of the spec is a status, a trap, a fence, an event or a
halted module, each a next state. Nobody raises a fault. -/
inductive Fault
  deriving DecidableEq, Repr

/-- Why a command has no meaning. -/
inductive Refusal where
  /-- Raised by an arm of `exec` for a command not modelled yet (no arm uses it); safe. -/
  | notModelled (mnemonic : String)
  deriving DecidableEq, Repr

/-- The block right after reset: entry to CARDING from OFF, the POWER reset of R7 done (log 1). Every register reads its
reset value (nothing is listed), every memory reads zero (log 3). -/
def State.reset : State :=
  { pending := [], freeCtr := 0, regs := [], loaded := [], mem := [], marks := [], chans := [], swaps := [], lost := [], repairs := [], cores := [],
    mils := [], fullers := [], mesh := {}, fns := [], parts := [], hostOut := [], held := [], stalled := [], events := {}, hb := {}, nextSub := 0, brim := {}, image := {}, levels := [],
    doms := [], cpwr := [], pwr := {}, therm := {}, supply := {}, resets := [], partResets := [],
    tilePass := [], reblocks := [], boot := {}, pcie := {}, sec := {}, nv := {} }

end Sys2Proof.Machine
end

