-- ==== Sys2Proof/Machine/Ops.lean ====
section
/-! DEFINITION. The named operations over tables, memory bytes and registers, and the drawing of free values. -/

namespace Sys2Proof.Machine

/-! ## Tables: keys strictly rising -/

/-- The value at a key. -/
def Tbl.find {α : Type} : Tbl α → Nat → Option α
  | [], _ => none
  | (j, v) :: t, k => if j = k then some v else Tbl.find t k

/-- The table with a value put at a key. -/
def Tbl.set {α : Type} : Tbl α → Nat → α → Tbl α
  | [], k, v => [(k, v)]
  | (j, w) :: t, k, v =>
    if k < j then (k, v) :: (j, w) :: t else if k = j then (k, v) :: t else (j, w) :: Tbl.set t k v

/-- The table with a key removed. -/
def Tbl.del {α : Type} : Tbl α → Nat → Tbl α
  | [], _ => []
  | (j, w) :: t, k => if j = k then Tbl.del t k else (j, w) :: Tbl.del t k

/-- The value at a key, or a default. -/
def Tbl.at {α : Type} (t : Tbl α) (k : Nat) (d : α) : α := (t.find k).getD d

/-- The table with every key that `p` names removed. -/
def Tbl.dropKeys {α : Type} (t : Tbl α) (p : Nat → Bool) : Tbl α := t.filter (fun e => !p e.1)

/-- Keys strictly rising: the canonical order of a table. -/
def Tbl.sorted {α : Type} : Tbl α → Bool
  | [] => true
  | [_] => true
  | (j, _) :: (k, w) :: t => decide (j < k) && Tbl.sorted ((k, w) :: t)

/-! ## Memory bytes: a cell not listed reads zero (log 3) -/

/-- What a byte of memory that nothing has written reads as (log 3). -/
def emptyByte : Byte := 0

/-- One byte of memory. -/
def memByte (m : List Host.Cell) (k : Nat) : Byte := (Tbl.find m k).getD emptyByte

/-- Memory with one byte written; writing `emptyByte` removes the entry. -/
def memPut (m : List Host.Cell) (k : Nat) (v : Byte) : List Host.Cell :=
  if v = emptyByte then Tbl.del m k else Tbl.set m k v

/-- The canonical form of memory: keys rise, and no entry equals what an unlisted byte reads as. -/
def Memory.wf (m : List Host.Cell) : Bool := Tbl.sorted m && m.all (fun c => c.2 != emptyByte)

/-- `n` bytes from a key. -/
def memBytes (m : List Host.Cell) (k n : Nat) : List Byte := (List.range n).map (fun j => memByte m (k + j))

/-- Bytes written from a key on. -/
def memPutBytes (m : List Host.Cell) (k : Nat) : List Byte → List Host.Cell
  | [] => m
  | b :: bs => memPutBytes (memPut m k b) (k + 1) bs

/-- Memory with every byte in [lo, hi) at zero. -/
def memClear (m : List Host.Cell) (lo hi : Nat) : List Host.Cell :=
  Tbl.dropKeys m (fun k => decide (lo ≤ k) && decide (k < hi))

/-! ## Numbers and bytes, little-endian -/

/-- The number little-endian bytes spell. -/
def leNat : List Byte → Nat
  | [] => 0
  | b :: bs => b.toNat + 256 * leNat bs

/-- `n` little-endian bytes of a number. -/
def leBytes : Nat → Nat → List Byte
  | 0, _ => []
  | n + 1, v => BitVec.ofNat 8 v :: leBytes n (v / 256)

/-- Bits [hi:lo] of a number. -/
def bitsOf (w hi lo : Nat) : Nat := w / 2 ^ lo % 2 ^ (hi + 1 - lo)

/-- A number with bits [hi:lo] replaced. -/
def putBits (w hi lo v : Nat) : Nat :=
  w - bitsOf w hi lo * 2 ^ lo + v % 2 ^ (hi + 1 - lo) * 2 ^ lo

/-- A sum that stays at the largest `width`-bit value. -/
def satAdd (width a b : Nat) : Nat := min (2 ^ width - 1) (a + b)

/-- The bits of a mask, lowest first. -/
def maskBits (n mask : Nat) : List Nat := (List.range n).filter (fun k => mask.testBit k)

/-- The signed number `w` low bits of a number stand for (two's complement). -/
def signedOf (w v : Nat) : Int := if v % 2 ^ w < 2 ^ (w - 1) then (v % 2 ^ w : Nat) else (v % 2 ^ w : Nat) - (2 ^ w : Nat)

/-- The `w`-bit two's complement of an integer. -/
def unsignedOf (w : Nat) (i : Int) : Nat := (i % (2 ^ w : Nat)).toNat

/-! ## Free values (log 4) -/

/-- The next free value. -/
def State.freeVal (s : State) : Nat := Config.freeNat s.freeCtr

/-- The state after `n` free values have been drawn. -/
def State.draw (s : State) (n : Nat := 1) : State := { s with freeCtr := s.freeCtr + n }

/-- The `k`-th free value from here. -/
def State.freeAt (s : State) (k : Nat) : Nat := Config.freeNat (s.freeCtr + k)

/-- A permutation of a list chosen by a free number: any order is some `code`. -/
def permute {α : Type} : Nat → List α → Nat → List α
  | 0, l, _ => l
  | n + 1, l, code =>
    match l[code % l.length]? with
    | none => l
    | some x => x :: permute n (l.eraseIdx (code % l.length)) (code / l.length)

/-- A list in a free order. -/
def freeOrder {α : Type} (l : List α) (code : Nat) : List α := permute l.length l code

/-! ## Registers -/

/-- A register: what was written last, else what the fuses or the image loaded, else its reset word (R7). -/
def State.reg (s : State) (r : Reg) (u i : Nat) : Word :=
  match Tbl.find s.regs (regKey r u i) with
  | some w => w
  | none => (Tbl.find s.loaded (regKey r u i)).getD (r.resetWord u i)

/-- A register with a word put in it. -/
def State.setReg (s : State) (r : Reg) (u i : Nat) (w : Word) : State :=
  { s with regs := Tbl.set s.regs (regKey r u i) w }

/-- A named field of a register. -/
def State.fld (s : State) (f : Fld) (u i : Nat) : Nat := getBits (s.reg f.reg u i) f.hi f.lo

/-- A named field set. -/
def State.setFld (s : State) (f : Fld) (u i v : Nat) : State :=
  { s with regs := Tbl.set s.regs (regKey f.reg u i) (setBits (s.reg f.reg u i) f.hi f.lo v) }

/-- A saturating count in a named field raised by `n`. -/
def State.addFld (s : State) (f : Fld) (u i n : Nat) : State :=
  s.setFld f u i (satAdd (f.hi + 1 - f.lo) (s.fld f u i) n)

/-- The bits of a register whose access code is in `ks`. -/
def accessMask (rows : List FieldRow) (ks : List Access) : Word :=
  rows.foldl (fun w r => if ks.contains r.access then setBits w r.hi r.lo (2 ^ (r.hi + 1 - r.lo) - 1) else w) 0

/-- A write's effect on the RW fields of a register, within the written bytes (R5): other fields keep their values. -/
def State.writeRw (s : State) (r : Reg) (u i : Nat) (v : Word) (mask : Word := BitVec.allOnes 64) : State :=
  let m := accessMask (r.fields i) [.rw] &&& mask
  s.setReg r u i ((s.reg r u i &&& ~~~m) ||| (v &&& m))

/-- A word loaded from fuses or the Hatblock image: the register's reset word and its present value (R7). -/
def State.loadReg (s : State) (r : Reg) (u i : Nat) (w : Word) : State :=
  { s with regs := Tbl.del s.regs (regKey r u i), loaded := Tbl.set s.loaded (regKey r u i) w }

/-- A field loaded from fuses or the image, in the reset word and in the present value. -/
def State.loadFld (s : State) (f : Fld) (u i v : Nat) : State :=
  let base := (Tbl.find s.loaded (regKey f.reg u i)).getD (f.reg.resetWord u i)
  { s with regs := Tbl.set s.regs (regKey f.reg u i) (setBits (s.reg f.reg u i) f.hi f.lo v),
           loaded := Tbl.set s.loaded (regKey f.reg u i) (setBits base f.hi f.lo v) }

/-- Every register of unit `u` whose table's domain is in `ds` and that `keep` does not name back at its reset value. -/
def resetRegs (regs : Tbl Word) (rs : List Reg) (u : Nat) : Tbl Word :=
  Tbl.dropKeys regs (fun k => rs.any (fun r => k % 2 ^ 7 == r.num && k / 2 ^ 23 == u))

/-! ## Units -/

/-- A core by site and number. -/
def coreKey (site n : Nat) : Nat := 4 * site + n
/-- The site of a core. -/
def siteOf (core : Nat) : Nat := core / 4
/-- The number of a core on its site. -/
def coreNo (core : Nat) : Nat := core % 4
/-- A physical channel of a core. -/
def chKey (core pch : Nat) : Nat := 17 * core + pch
/-- A fuller of a core. -/
def fulKey (core n : Nat) : Nat := 34 * core + n

/-- The memory key of a byte of a physical channel (64 MiB each). -/
def dramByte (core pch byte : Nat) : Nat := chKey core pch * 2 ^ 26 + byte
/-- The memory key of a byte of a core's SRAM. -/
def sramByte (core off : Nat) : Nat := 2 ^ 40 + core * 2 ^ 23 + off
/-- The memory key of a byte of a fuller's IMEM (at 0) or DMEM (at 0x4000). -/
def fulByte (core n off : Nat) : Nat := 2 ^ 41 + fulKey core n * 2 ^ 15 + off

/-- A core's state. -/
def State.core (s : State) (c : Nat) : Core := Tbl.at s.cores c {}

/-- A core's state replaced. -/
def State.setCore (s : State) (c : Nat) (x : Core) : State := { s with cores := Tbl.set s.cores c x }

/-- An issue queue of a core. -/
def State.queue (s : State) (c q : Nat) : Queue := Tbl.at (s.core c).queues q {}

/-- An issue queue of a core replaced. -/
def State.setQueue (s : State) (c q : Nat) (x : Queue) : State :=
  s.setCore c { s.core c with queues := Tbl.set (s.core c).queues q x }

end Sys2Proof.Machine
end

