-- ==== Sys2Proof/Machine/Flags.lean ====
section
/-! DEFINITION. Status codes (R371), the event codes with their classes and rate limits (R378, R379, R429), and the raising
of an event (R376, R377). -/

namespace Sys2Proof.Machine

/-- The byte of each status (R371). -/
def Status.code : Status → Nat
  | .ok => 0x00 | .retry => 0x01 | .aborted => 0x02 | .stateConflict => 0x0C | .badFormat => 0x0D
  | .noResource => 0x0E | .featureLevel => 0x0F | .integrity => 0x10 | .poison => 0x11 | .fenced => 0x12
  | .scaleSkew => 0x13 | .auth => 0x20 | .memberLost => 0x21

/-- The status a byte names; a byte R371 does not define is treated as INTEGRITY (R8). -/
def Status.ofCode (c : Nat) : Status :=
  ([Status.ok, .retry, .aborted, .stateConflict, .badFormat, .noResource, .featureLevel, .integrity, .poison, .fenced,
    .scaleSkew, .auth, .memberLost].find? (fun s => s.code == c)).getD .integrity

/-- The events of R379. -/
inductive Ev where
  | TEMP_WARN | TEMP_THROTTLE | TEMP_CLAMP | TEMP_TRIP | SENSOR_BROKEN | SENSOR_DISAGREE | BRIM_HOT
  | COOL_FLOW_LOW | COOL_STATE | COOL_SHED | COOL_INLET_HIGH | THERMISTOR_BROKEN | FORECAST_CAP | PHASE_SHED
  | DOMAIN_DARK | OVERVOLTAGE | ISOLATION_FAIL | BRICK_FAIL | CAP_OVER | CAP_UNMET | ADMIT_SLOW | DROOP_MANY
  | VSENSE_BROKEN | EST_DRIFT | SRAM_CE | SRAM_UE | ADDR_UNMAPPED | DRAM_CE | DRAM_UE | DRAM_POISON_READ
  | DRAM_RETRAIN_FAIL | DRAM_CH_DEAD | DRAM_SPARE_IN | DRAM_REPAIR | DRAM_BAND | DRAM_CORE_FENCED | FULLER_TRAP
  | FULLER_HANG | FULLER_FENCED | FULLER_POISON_STORE | GR_CHECK_FAIL | FULLER_LOAD_REFUSED | MIL_CACHE_CE
  | MIL_CACHE_UE | FMT_REFUSED | NAN_SCALE | INT_SATURATED | ARRAY_CHK_RETRY | ARRAY_FENCED | ARRAY_SPARE_IN
  | ARRAY_CORE_FENCED | MV_CHK_MISMATCH | ADAPTER_SLOT_BAD | CHK_SKIPPED | SCALE_SKEW_ABORT | GUARD_SAT
  | GUARD_FLAGGED | GUARD_SLOT_REFUSED | SEQ_TRAP | SEQ_ERROR | SEQ_WAIT_LONG | SEM_SATURATED | SEQ_TAIL_BAD
  | HINT_REFUSED | SC_MANY | ATT_RETRY | KV_PAGE_MISMATCH | KV_PAGE_ABSENT | KV_HANDLE_MISMATCH | KV_POOL_FULL
  | ATT_POISON | ATT_PART_MISSING | ATT_ROW_EMPTY | BL_PORT_STATE | BL_PORT_WIDTH | BL_AUTH_FAIL
  | BL_PEER_REFUSED | BL_NO_ROUTE | BL_TTL_EXPIRED | BL_STUCK_DISCARD | BL_XFER_END | BL_COLL_LATE
  | BL_MEMBER_LOST | BL_DOORBELL_BAD | MESH_LINK_STATE | MESH_LINK_WIDTH | MESH_REROUTE | MESH_TILE_UNREACH
  | MESH_CRC | MESH_LEVEL_LOW | FIREWALL_DENY | IMG_REFUSED | UPD_STAGED | UPD_ACTIVATED | UPD_CONFIRMED
  | UPD_REVERTED | KEY_REVOKED | OWNER_ENROLLED | SPDM_SESSION | E2E_REFUSED | FLEET_SESSION | DIST_RESULT
  | CLEAR_DONE | TDI_ERROR | MILLINER_HANG | CLK_UNLOCK | REFCLK_LOST | DIE_ID_BAD | XING_OVERRUN | STAGE_END
  | STAGE_FAILED | UNIT_BAD | IMAGE_FALLBACK | UNIT_SUBST | RECORD_CHANGED | UNIT_FENCED | UNIT_UNFENCED
  | RESET_DONE | PART_STATE | SEQ_LOST | REBLOCK_END | EVENT_LOST | HB_FAILOVER | DOORBELL_BAD | CQ_STALLED
  | TOKEN_RING_FULL | PULL_ENTRY_LOST | HOST_STATE_CONFLICT | HOST_DMA_ERROR | FLR_DONE | PCIE_LINK
  deriving DecidableEq, Repr

/-- The code of each event (R379). -/
def Ev.code : Ev → Nat
  | .TEMP_WARN => 0x1101 | .TEMP_THROTTLE => 0x1102 | .TEMP_CLAMP => 0x1103 | .TEMP_TRIP => 0x1104
  | .SENSOR_BROKEN => 0x1105 | .SENSOR_DISAGREE => 0x1106 | .BRIM_HOT => 0x1107 | .COOL_FLOW_LOW => 0x1108
  | .COOL_STATE => 0x1109 | .COOL_SHED => 0x110A | .COOL_INLET_HIGH => 0x110B | .THERMISTOR_BROKEN => 0x110C
  | .FORECAST_CAP => 0x110D | .PHASE_SHED => 0x2101 | .DOMAIN_DARK => 0x2102 | .OVERVOLTAGE => 0x2103
  | .ISOLATION_FAIL => 0x2104 | .BRICK_FAIL => 0x2105 | .CAP_OVER => 0x2106 | .CAP_UNMET => 0x2107
  | .ADMIT_SLOW => 0x2108 | .DROOP_MANY => 0x2109 | .VSENSE_BROKEN => 0x210A | .EST_DRIFT => 0x210B
  | .SRAM_CE => 0x3101 | .SRAM_UE => 0x3102 | .ADDR_UNMAPPED => 0x3103 | .DRAM_CE => 0x3201
  | .DRAM_UE => 0x3202 | .DRAM_POISON_READ => 0x3203 | .DRAM_RETRAIN_FAIL => 0x3204 | .DRAM_CH_DEAD => 0x3205
  | .DRAM_SPARE_IN => 0x3206 | .DRAM_REPAIR => 0x3207 | .DRAM_BAND => 0x3208 | .DRAM_CORE_FENCED => 0x3209
  | .FULLER_TRAP => 0x3301 | .FULLER_HANG => 0x3302 | .FULLER_FENCED => 0x3303 | .FULLER_POISON_STORE => 0x3304
  | .GR_CHECK_FAIL => 0x3305 | .FULLER_LOAD_REFUSED => 0x3306 | .MIL_CACHE_CE => 0x3401
  | .MIL_CACHE_UE => 0x3402 | .FMT_REFUSED => 0x4101 | .NAN_SCALE => 0x4102 | .INT_SATURATED => 0x4103
  | .ARRAY_CHK_RETRY => 0x4201 | .ARRAY_FENCED => 0x4202 | .ARRAY_SPARE_IN => 0x4203
  | .ARRAY_CORE_FENCED => 0x4204 | .MV_CHK_MISMATCH => 0x4205 | .ADAPTER_SLOT_BAD => 0x4206
  | .CHK_SKIPPED => 0x4207 | .SCALE_SKEW_ABORT => 0x4301 | .GUARD_SAT => 0x4302 | .GUARD_FLAGGED => 0x4303
  | .GUARD_SLOT_REFUSED => 0x4304 | .SEQ_TRAP => 0x4401 | .SEQ_ERROR => 0x4402 | .SEQ_WAIT_LONG => 0x4403
  | .SEM_SATURATED => 0x4404 | .SEQ_TAIL_BAD => 0x4405 | .HINT_REFUSED => 0x4406 | .SC_MANY => 0x4407
  | .ATT_RETRY => 0x4501 | .KV_PAGE_MISMATCH => 0x4502 | .KV_PAGE_ABSENT => 0x4503
  | .KV_HANDLE_MISMATCH => 0x4504 | .KV_POOL_FULL => 0x4505 | .ATT_POISON => 0x4506
  | .ATT_PART_MISSING => 0x4507 | .ATT_ROW_EMPTY => 0x4508 | .BL_PORT_STATE => 0x5101
  | .BL_PORT_WIDTH => 0x5102 | .BL_AUTH_FAIL => 0x5103 | .BL_PEER_REFUSED => 0x5104 | .BL_NO_ROUTE => 0x5105
  | .BL_TTL_EXPIRED => 0x5106 | .BL_STUCK_DISCARD => 0x5107 | .BL_XFER_END => 0x5108 | .BL_COLL_LATE => 0x5109
  | .BL_MEMBER_LOST => 0x510A | .BL_DOORBELL_BAD => 0x510B | .MESH_LINK_STATE => 0x5201
  | .MESH_LINK_WIDTH => 0x5202 | .MESH_REROUTE => 0x5203 | .MESH_TILE_UNREACH => 0x5204 | .MESH_CRC => 0x5205
  | .MESH_LEVEL_LOW => 0x5206 | .FIREWALL_DENY => 0x6101 | .IMG_REFUSED => 0x6201 | .UPD_STAGED => 0x6202
  | .UPD_ACTIVATED => 0x6203 | .UPD_CONFIRMED => 0x6204 | .UPD_REVERTED => 0x6205 | .KEY_REVOKED => 0x6206
  | .OWNER_ENROLLED => 0x6207 | .SPDM_SESSION => 0x6208 | .E2E_REFUSED => 0x6209 | .FLEET_SESSION => 0x620A
  | .DIST_RESULT => 0x620B | .CLEAR_DONE => 0x620C | .TDI_ERROR => 0x620D | .MILLINER_HANG => 0x7101
  | .CLK_UNLOCK => 0x7201 | .REFCLK_LOST => 0x7202 | .DIE_ID_BAD => 0x7203 | .XING_OVERRUN => 0x7204
  | .STAGE_END => 0x7301 | .STAGE_FAILED => 0x7302 | .UNIT_BAD => 0x7303 | .IMAGE_FALLBACK => 0x7304
  | .UNIT_SUBST => 0x7305 | .RECORD_CHANGED => 0x7306 | .UNIT_FENCED => 0x7401 | .UNIT_UNFENCED => 0x7402
  | .RESET_DONE => 0x7403 | .PART_STATE => 0x7404 | .SEQ_LOST => 0x7405 | .REBLOCK_END => 0x7406
  | .EVENT_LOST => 0x7501 | .HB_FAILOVER => 0x7502 | .DOORBELL_BAD => 0x8101 | .CQ_STALLED => 0x8102
  | .TOKEN_RING_FULL => 0x8103 | .PULL_ENTRY_LOST => 0x8104 | .HOST_STATE_CONFLICT => 0x8105
  | .HOST_DMA_ERROR => 0x8106 | .FLR_DONE => 0x8107 | .PCIE_LINK => 0x8108

/-- SEV of each event where its record carries no other (R378). -/
def Ev.sev : Ev → Nat
  | .TEMP_TRIP | .ISOLATION_FAIL | .REFCLK_LOST | .STAGE_FAILED => 3
  | .SRAM_UE | .DRAM_UE | .DRAM_CH_DEAD | .DRAM_CORE_FENCED | .MIL_CACHE_UE | .ARRAY_CORE_FENCED
  | .ATT_POISON | .DOMAIN_DARK | .OVERVOLTAGE | .COOL_SHED | .MESH_TILE_UNREACH | .CLK_UNLOCK
  | .XING_OVERRUN | .MILLINER_HANG | .UNIT_FENCED | .SEQ_LOST | .BL_MEMBER_LOST => 2
  | .ADDR_UNMAPPED | .FIREWALL_DENY | .FMT_REFUSED | .ADAPTER_SLOT_BAD | .SCALE_SKEW_ABORT
  | .GUARD_SLOT_REFUSED | .SEQ_TRAP | .SEQ_ERROR | .SEM_SATURATED | .SEQ_TAIL_BAD | .KV_PAGE_MISMATCH
  | .KV_PAGE_ABSENT | .KV_HANDLE_MISMATCH | .ATT_PART_MISSING | .FULLER_TRAP | .FULLER_HANG
  | .FULLER_FENCED | .FULLER_LOAD_REFUSED | .GR_CHECK_FAIL | .DRAM_RETRAIN_FAIL | .CAP_UNMET
  | .VSENSE_BROKEN | .SENSOR_BROKEN | .THERMISTOR_BROKEN | .BL_AUTH_FAIL | .BL_PEER_REFUSED
  | .BL_NO_ROUTE | .BL_TTL_EXPIRED | .BL_STUCK_DISCARD | .BL_XFER_END | .BL_DOORBELL_BAD | .DIE_ID_BAD
  | .EVENT_LOST | .DOORBELL_BAD | .HOST_STATE_CONFLICT | .HOST_DMA_ERROR | .PULL_ENTRY_LOST => 1
  | _ => 0

/-- Records a 1 ms window allows (R429 and the event tables); `none`: raised every time. -/
def Ev.limit : Ev → Option Nat
  | .DRAM_UE => some 16
  | .ADDR_UNMAPPED | .FIREWALL_DENY | .FMT_REFUSED | .NAN_SCALE | .INT_SATURATED | .ARRAY_CHK_RETRY
  | .CHK_SKIPPED | .SCALE_SKEW_ABORT | .GUARD_FLAGGED | .GUARD_SLOT_REFUSED | .SEQ_WAIT_LONG | .HINT_REFUSED | .SC_MANY
  | .ATT_RETRY | .KV_POOL_FULL | .ATT_ROW_EMPTY | .DRAM_CE | .DRAM_POISON_READ | .DRAM_BAND
  | .FULLER_TRAP | .FULLER_POISON_STORE | .MIL_CACHE_CE | .HOST_STATE_CONFLICT | .DOORBELL_BAD
  | .CQ_STALLED | .TOKEN_RING_FULL | .BL_AUTH_FAIL | .BL_PEER_REFUSED | .BL_NO_ROUTE | .BL_TTL_EXPIRED
  | .BL_STUCK_DISCARD | .MESH_CRC | .SEQ_LOST | .CAP_OVER | .ADMIT_SLOW | .EST_DRIFT | .DROOP_MANY
  | .TEMP_THROTTLE | .FORECAST_CAP | .IMG_REFUSED | .E2E_REFUSED => some 1
  | _ => none

/-- UNIT of a tile common source (R376). -/
def uCommon : Nat := 5
/-- UNIT of a milliner source. -/
def uMilliner : Nat := 4
/-- UNIT of a brim-die source. -/
def uBrim : Nat := 6
/-- UNIT of a Hatband source. -/
def uHatband : Nat := 7
/-- SITE of the module (R376). -/
def siteModule : Nat := 0xFF

/-- The source (SITE, UNIT) as one number. -/
def sourceKey (site unit : Nat) : Nat := site * 256 + unit

/-- What a rate limit counts by: the event, its source and a further number within the source (a queue, ring, port,
partition ...; R429). -/
def limitKey (e : Ev) (site unit sub : Nat) : Nat := (e.code * 2 ^ 16 + sourceKey site unit) * 2 ^ 32 + sub

/-- The logical tile a site holds. -/
def State.ltileOf (s : State) (site : Nat) : Option Nat := (s.image.tiles.find? (fun t => t.site == site)).map (·.ltile)

/-- The firewall entry of a logical tile in a router's copy (R25): the partition, if V = 1. -/
def State.fwEntry (s : State) (router l : Nat) : Option Nat :=
  if s.fld (FW_MAP.V (l % 16)) router (l / 16) = 1 then some (s.fld (FW_MAP.PT (l % 16)) router (l / 16)) else none

/-- The partition a site's tile belongs to, by its own router's map. -/
def State.ptOfSite (s : State) (site : Nat) : Option Nat := (s.ltileOf site).bind (s.fwEntry site)

/-- The partition a PCIe function is tied to (R24, R207). -/
def State.fnPt (s : State) (fn : Nat) : Option Nat :=
  if s.fld FN_STAT.PV fn 0 = 1 then some (s.fld FN_STAT.PT fn 0) else none

/-- A detail item put at the lowest free offset that is a multiple of its size (R377). -/
def placeItem (d : List (Option Nat)) (size v : Nat) : Option (List (Option Nat)) :=
  match (List.range 12).find? (fun i => (20 + i) % size == 0 && decide (i + size ≤ 12) &&
      (List.range size).all (fun j => (d.getD (i + j) (some 0)).isNone)) with
  | some i => some ((List.range 12).map (fun j =>
      if i ≤ j ∧ j < i + size then some (v / 256 ^ (j - i) % 256) else d.getD j none))
  | none => none

/-- DETAIL and TRUNC of a record from its items (size, value), in listed order (R377). -/
def placeItems : List (Nat × Nat) → List (Option Nat) → Bool → List Nat × Bool
  | [], d, tr => (d.map (·.getD 0), tr)
  | (size, v) :: its, d, tr =>
    match placeItem d size v with
    | some d' => placeItems its d' tr
    | none => placeItems its d true

/-- What a raising may override: SEV, the number a limit counts by, the partition (with `sited` false there is none where `pt`
is none), the function of a class 0x8 record. -/
structure RaiseOpts where
  sev : Option Nat := none
  sub : Nat := 0
  pt  : Option Nat := none
  sited : Bool := true
  fn  : Option Nat := none

/-- Whether the limit of an event withholds a record now (R429). -/
def State.withheld (s : State) (e : Ev) (site unit sub : Nat) : Bool :=
  match e.limit with
  | none => false
  | some m => decide (m ≤ Tbl.at s.events.win (limitKey e site unit sub) 0)

/-- The record of an event raised now (R376, R377); CYCLE is a free value (log 5), the partition is the request's, the named
function's or the site's (log 33). -/
def State.record (s : State) (e : Ev) (site unit : Nat) (items : List (Nat × Nat)) (o : RaiseOpts) : EvtRec :=
  let pt := match o.pt with
    | some p => some p
    | none => match o.fn with
      | some f => if o.sited then s.fnPt f else none
      | none => if o.sited then s.ptOfSite site else none
  let d := placeItems items (List.replicate 12 none) false
  { code := e.code, site := site, ltile := (s.ltileOf site).getD 0xFF, unit := unit, pv := pt.isSome, pt := pt.getD 0,
    sev := o.sev.getD e.sev, trunc := d.2,
    supp := Tbl.at s.events.supp (e.code * 2 ^ 16 + sourceKey site unit) 0,
    cycle := s.freeVal % 2 ^ 64, seq := Tbl.at s.events.seq (sourceKey site unit) 0 % 2 ^ 32, detail := d.1, fn := o.fn }

/-- The events part after a raising: the record enters the module log and waits for delivery, or SUPP counts it. -/
def State.eventsAfter (s : State) (e : Ev) (site unit : Nat) (items : List (Nat × Nat)) (o : RaiseOpts) : EventState :=
  let sk := e.code * 2 ^ 16 + sourceKey site unit
  let lk := limitKey e site unit o.sub
  if s.withheld e site unit o.sub then
    { s.events with supp := Tbl.set s.events.supp sk (satAdd 16 (Tbl.at s.events.supp sk 0) 1) }
  else
    let r := s.record e site unit items o
    { s.events with
      seq := Tbl.set s.events.seq (sourceKey site unit) (r.seq + 1),
      win := if e.limit.isSome then Tbl.set s.events.win lk (Tbl.at s.events.win lk 0 + 1) else s.events.win,
      supp := Tbl.del s.events.supp sk,
      log := (r :: s.events.log).take Config.moduleLogSize,
      undelivered := s.events.undelivered ++ [r] }

/-- An event is raised (R376, R380, R429): its record goes to the module log, unless its limit withholds it. -/
def State.raise (s : State) (e : Ev) (site unit : Nat) (items : List (Nat × Nat)) (o : RaiseOpts := {}) : State :=
  { s with
    freeCtr := if s.withheld e site unit o.sub then s.freeCtr else s.freeCtr + 1,
    events := s.eventsAfter e site unit items o,
    regs := if s.withheld e site unit o.sub then s.regs
      else Tbl.set s.regs (regKey .EVT_STAT 0 0)
        (setBits (s.reg .EVT_STAT 0 0) 63 32 (s.fld EVT_STAT.WRITTEN 0 0 + 1)) }

/-- An event "raised once per episode": raised when `on` first holds, the episode ending when `off` holds. -/
def State.episode (s : State) (e : Ev) (site unit key : Nat) (on off : Bool) (items : List (Nat × Nat))
    (o : RaiseOpts := {}) : State :=
  let k := e.code * 2 ^ 32 + key
  if on && !s.events.episodes.contains k then
    let s' := s.raise e site unit items o
    { s' with events := { s'.events with episodes := k :: s'.events.episodes } }
  else if off then { s with events := { s.events with episodes := s.events.episodes.filter (· != k) } }
  else s

/-- Whether a saturating count raised from `a` to `b` passes a multiple of 256. -/
def passes256 (a b : Nat) : Bool := decide (a / 256 < b / 256)

/-- A count raised by `n`, its event raised when it passes a multiple of 256. -/
def State.countPast256 (s : State) (f : Fld) (u i n : Nat) (e : Ev) (site unit : Nat) (items : List (Nat × Nat))
    (o : RaiseOpts := {}) : State :=
  let a := s.fld f u i
  let s' := s.addFld f u i n
  if passes256 a (s'.fld f u i) then s'.raise e site unit items o else s'

end Sys2Proof.Machine
end

