-- ==== Sys2Proof/Machine/Memory.lean ====
section
/-! DEFINITION. The two memories of a core: SRAM with its SECDED lanes (R18, R19) and the DRAM slice with its coded beats
(R15, R152-R155), as reads and writes of bytes that answer a status. -/

namespace Sys2Proof.Machine

/-- What a read answers: the state after it, its status and its bytes (meaningful only when OK). -/
structure Got where
  st     : State
  status : Status
  data   : List Byte

/-- What a write answers. -/
structure Put where
  st     : State
  status : Status

/-- Requesters of an SRAM bank in the fixed order of R20, as SRAM_UE names them (log 20). -/
def rqAttention : Nat := 0
def rqArray : Nat := 1
def rqMvPath : Nat := 2
def rqVector : Nat := 3
def rqDma : Nat := 4
def rqMilliner : Nat := 5
def rqFuller : Nat := 6

/-- The first of two statuses that is not OK. -/
def Status.orElse (a b : Status) : Status := if a = .ok then b else a

/-- Bytes from an offset on, cut at multiples of `sz`: (unit index, offset in the unit, bytes). -/
def cutUnits (sz : Nat) : Nat → Nat → List Byte → List (Nat × Nat × List Byte)
  | 0, _, _ => []
  | _ + 1, _, [] => []
  | f + 1, off, b :: bs =>
    (off / sz, off % sz, (b :: bs).take (sz - off % sz)) :: cutUnits sz f (off + (sz - off % sz)) ((b :: bs).drop (sz - off % sz))

/-! ## SRAM (R18, R19) -/

/-- The bank of a core offset (R18). -/
def sramBank (off : Nat) : Nat := bitsOf off 10 6
/-- The word of a core offset within its bank (R18). -/
def sramWord (off : Nat) : Nat := bitsOf off 22 11

/-- The mark of a lane (its core offset divided by 8). -/
def State.laneMark (s : State) (core lane : Nat) : Option Mark := Tbl.find s.marks (sramByte core (8 * lane))

/-- The mark of a memory unit set or cleared. -/
def State.setMark (s : State) (k : Nat) (m : Option Mark) : State :=
  { s with marks := match m with
    | some x => Tbl.set s.marks k x
    | none => Tbl.del s.marks k }

/-- An uncorrectable SRAM read: the lane keeps a poison mark, the counts and SRAM_UE (R19, R29). -/
def State.sramUe (s : State) (core lane who : Nat) : State :=
  ((((s.setMark (sramByte core (8 * lane)) (some .poison)).addFld SRAM_STAT.UE_COUNT core 0 1).setFld
    SRAM_STAT.LAST_UE_BANK core 0 (sramBank (8 * lane)))).raise .SRAM_UE (siteOf core) (coreNo core)
    [(1, sramBank (8 * lane)), (2, sramWord (8 * lane)), (1, who)]

/-- A corrected SRAM read: counted, and the lane waits for its write-back (R19). -/
def State.sramCe (s : State) (core lane : Nat) : State :=
  let s' := s.setCore core { s.core core with sramWb := (s.core core).sramWb ++ [lane] }
  s'.countPast256 SRAM_STAT.CE_COUNT core 0 1 .SRAM_CE (siteOf core) (coreNo core) [(1, sramBank (8 * lane))]

/-- A lane read (R19): the state after it, and whether it was uncorrectable. -/
def State.laneRead (s : State) (core lane who : Nat) : State × Bool :=
  match s.laneMark core lane with
  | none => (s, false)
  | some .laneCorrectable => (s.sramCe core lane, false)
  | some _ => (s.sramUe core lane who, true)

/-- Lanes read one after another. -/
def State.lanesRead (s : State) (core who : Nat) : List Nat → State × Bool
  | [] => (s, false)
  | l :: ls =>
    let r := s.laneRead core l who
    let r' := State.lanesRead r.1 core who ls
    (r'.1, r.2 || r'.2)

/-- `n` bytes of SRAM read at a core offset (R19). -/
def State.sramRead (s : State) (core off n who : Nat) : Got :=
  let lanes := (List.range ((off + n - 1) / 8 + 1 - off / 8)).map (fun j => off / 8 + j)
  let r := if n = 0 then (s, false) else s.lanesRead core who lanes
  ⟨r.1, if r.2 then .poison else .ok, memBytes s.mem (sramByte core off) n⟩

/-- Part of a lane, or all of it, written (R19): a part onto an uncorrectable lane is discarded. -/
def State.laneWrite (s : State) (core lane o : Nat) (bytes : List Byte) (who : Nat) : Put :=
  let k := sramByte core (8 * lane)
  if bytes.length = 8 then
    ⟨{ s with mem := memPutBytes s.mem k bytes, marks := Tbl.del s.marks k }, .ok⟩
  else
    let r := s.laneRead core lane who
    if r.2 then ⟨r.1, .poison⟩
    else ⟨{ r.1 with mem := memPutBytes r.1.mem (k + o) bytes, marks := Tbl.del r.1.marks k }, .ok⟩

/-- Lane writes one after another; the status is the first that is not OK. -/
def State.lanesWrite (s : State) (core who : Nat) : List (Nat × Nat × List Byte) → Put
  | [] => ⟨s, .ok⟩
  | (lane, o, bs) :: r =>
    let p := s.laneWrite core lane o bs who
    let p' := State.lanesWrite p.st core who r
    ⟨p'.st, p.status.orElse p'.status⟩

/-- Bytes written at a core offset of SRAM (R19). -/
def State.sramWrite (s : State) (core off : Nat) (bytes : List Byte) (who : Nat) : Put :=
  s.lanesWrite core who (cutUnits 8 bytes.length off bytes)

/-! ## DRAM: where a slice offset lies (R15, R16) -/

/-- The logical channel of a slice offset (R15). -/
def sliceLch (o : Nat) : Nat := bitsOf o 11 8 ^^^ bitsOf o 26 23
/-- The bank of a slice offset (R15). -/
def sliceBank (o : Nat) : Nat := bitsOf o 18 15 ^^^ bitsOf o 22 19
/-- The row of a slice offset (R15). -/
def sliceRow (o : Nat) : Nat := bitsOf o 29 19
/-- The byte in the 2 KiB row of a slice offset (R15). -/
def sliceCol (o : Nat) : Nat := bitsOf o 14 12 * 256 + bitsOf o 7 0

/-- The byte of a physical channel at bank, row and column. -/
def chanByte (bank row col : Nat) : Nat := bank * 2 ^ 22 + row * 2 ^ 11 + col

/-- The physical channel a core's remap table gives a logical channel (R16). -/
def State.remap (s : State) (core lch : Nat) : Nat := s.fld (CH_REMAP.PCH (lch % 8)) core (lch / 8)

/-- Bank, row and beat column of a byte of a channel. -/
def bankOf (byte : Nat) : Nat := byte / 2 ^ 22
def rowOf (byte : Nat) : Nat := byte / 2 ^ 11 % 2 ^ 11
def beatColOf (byte : Nat) : Nat := byte / 2 ^ 5 % 2 ^ 6

/-- A channel's state. -/
def State.chan (s : State) (core pch : Nat) : Chan := Tbl.at s.chans (chKey core pch) {}

/-- A channel's state replaced. -/
def State.setChan (s : State) (core pch : Nat) (c : Chan) : State := { s with chans := Tbl.set s.chans (chKey core pch) c }

/-! ## The beat code (R152) -/

/-- What the code makes of a stored beat. -/
inductive BeatSeen where
  | clean
  /-- A single-bit error at this bit. -/
  | correctable (bit : Nat)
  | uncorrectable
  /-- Corrected to a wrong value (beyond the code's guarantee). -/
  | wrong
  /-- Undetected (beyond the code's guarantee). -/
  | unseen
  deriving DecidableEq, Repr

/-- The bits of a 272-bit mask that are set, lowest first. -/
def maskSet (m : BitVec 272) : List Nat := (List.range 272).filter (fun i => m.getLsbD i)

/-- The outcome of an error mask (R152): one bit corrected; two bits, or any bits of one 4-bond group, detected; any other
pattern free among the three of R152 (log 13). -/
def seenOf (m : BitVec 272) : BeatSeen :=
  match maskSet m with
  | [] => .clean
  | [b] => .correctable b
  | b :: b' :: bs =>
    if bs.isEmpty || (b' :: bs).all (fun x => x / 4 == b / 4) then .uncorrectable
    else match Config.eccBeyond m % 3 with
      | 0 => .uncorrectable
      | 1 => .wrong
      | _ => .unseen

/-- 32 bytes as a 256-bit number and back. -/
def beatBits (bytes : List Byte) : BitVec 256 := BitVec.ofNat 256 (leNat bytes)
def beatBytes (b : BitVec 256) : List Byte := leBytes 32 b.toNat

/-- Sources of DRAM_UE (R171). -/
def ueRead : Nat := 0
def ueRmw : Nat := 1
def ueScrub : Nat := 2
def ueCopy : Nat := 3

/-- The group with the most CEs since the last retrain (CORE.DRAM_CH_STATk.WORST_GROUP), the lowest of equals; 0x7F: none. -/
def worstGroup (g : Tbl Nat) : Nat :=
  (g.foldl (fun (best : Nat × Nat) e => if best.2 < e.2 then e else best) (0x7F, 0)).1

/-- A CE of a 4-bond group counted (R153, R159): the channel and core counts, DRAM_CE at every 256, the group, and a retrain
brought forward when the group reaches CE_RT_TRIG. -/
def State.dramCe (s : State) (core pch byte group : Nat) (queue : Bool) : State :=
  let c := s.chan core pch
  let n := Tbl.at c.groups group 0 + 1
  let groups := Tbl.set c.groups group n
  let trig := s.fld DRAM_CFG.CE_RT_TRIG (siteOf core) 0
  let s1 := s.setChan core pch { c with
    groups := groups,
    early := c.early || (decide (trig ≠ 0) && decide (trig ≤ n)),
    wbq := if queue && decide (c.wbq.length < 8) && !c.wbq.contains byte then c.wbq ++ [byte] else c.wbq }
  let s2 := (s1.setFld DRAM_CH_STAT.WORST_GROUP core pch (worstGroup groups)).addFld DRAM_STAT.CE_COUNT core 0 1
  s2.countPast256 DRAM_CH_STAT.CE_COUNT core pch 1 .DRAM_CE (siteOf core) (coreNo core)
    [(1, pch), (1, bankOf byte), (2, rowOf byte), (1, group)]

/-- A beat found uncorrectable after the repeated read (R154): a poison marker over it, the counts, DRAM_UE. -/
def State.dramUe (s : State) (core pch byte source : Nat) : State :=
  (((s.setMark (dramByte core pch byte) (some .poison)).addFld DRAM_STAT.UE_COUNT core 0 1).addFld
    DRAM_CH_STAT.UE_COUNT core pch 1).raise .DRAM_UE (siteOf core) (coreNo core)
    [(1, pch), (1, bankOf byte), (2, rowOf byte), (1, beatColOf byte), (1, source)]

/-- A read of a poison marker counted (R154, R171). -/
def State.dramPoisonRead (s : State) (core pch byte requester : Nat) : State :=
  (s.addFld DRAM_STAT.POISON_READS core 0 1).raise .DRAM_POISON_READ (siteOf core) (coreNo core)
    [(1, pch), (1, bankOf byte), (2, rowOf byte), (1, beatColOf byte), (1, requester)]

/-- The stored error mask of a beat. -/
def Mark.mask : Option Mark → BitVec 272
  | some (.beatError m) => m
  | _ => 0

/-- The data a read of a beat returns once its outcome is known. -/
def seenData (data : BitVec 256) (m : BitVec 272) : BeatSeen → BitVec 256
  | .wrong => Config.eccMiscorrect data m
  | .unseen => data ^^^ m.extractLsb' 0 256
  | _ => data

/-- The 4-bond group a corrected error is charged to: that of the bit, or, for a wrong correction, a free one. -/
def seenGroup (m : BitVec 272) : BeatSeen → Nat
  | .correctable b => b / 4
  | _ => Config.eccBeyond m / 3 % 68

/-- A beat read by the controller (R152-R154). `e1` and `e2` are what the read and its repetition sense wrongly beside the
stored mask; `source` is DRAM_UE's, `requester` DRAM_POISON_READ's; `queue` says whether a corrected beat is queued for
write-back. -/
def State.beatRead (s : State) (core pch byte source requester : Nat) (e1 e2 : BitVec 272 := 0) (queue : Bool := true) : Got :=
  let k := dramByte core pch byte
  let data := beatBits (memBytes s.mem k 32)
  let mk := Tbl.find s.marks k
  if mk = some .poison then ⟨s.dramPoisonRead core pch byte requester, .poison, []⟩
  else
    let m1 := Mark.mask mk ^^^ e1
    let m2 := Mark.mask mk ^^^ e2
    match seenOf m1 with
    | .uncorrectable =>
      match seenOf m2 with
      | .uncorrectable => ⟨s.dramUe core pch byte source, .poison, []⟩
      | .clean => ⟨s.dramCe core pch byte (seenGroup m1 .uncorrectable) false, .ok, beatBytes data⟩
      | r => ⟨s.dramCe core pch byte (seenGroup m2 r) queue, .ok, beatBytes (seenData data m2 r)⟩
    | .clean => ⟨s, .ok, beatBytes data⟩
    | .unseen => ⟨s, .ok, beatBytes (seenData data m1 .unseen)⟩
    | r => ⟨s.dramCe core pch byte (seenGroup m1 r) queue, .ok, beatBytes (seenData data m1 r)⟩

/-- A whole beat written: valid data, no error, no marker (R154). -/
def State.beatPut (s : State) (core pch byte : Nat) (bytes : List Byte) : State :=
  { s with mem := memPutBytes s.mem (dramByte core pch byte) bytes, marks := Tbl.del s.marks (dramByte core pch byte) }

/-- A poison marker written over a beat. -/
def State.beatPoison (s : State) (core pch byte : Nat) : State := s.setMark (dramByte core pch byte) (some .poison)

/-- Bytes of a beat replaced from an offset on. -/
def mergeBytes (old : List Byte) (o : Nat) (bytes : List Byte) : List Byte :=
  old.take o ++ bytes ++ old.drop (o + bytes.length)

/-- A beat, or part of one, written by the controller (R155). -/
def State.beatWrite (s : State) (core pch byte o : Nat) (bytes : List Byte) (requester : Nat) : Put :=
  if bytes.length = 32 then ⟨s.beatPut core pch byte bytes, .ok⟩
  else
    let r := s.beatRead core pch byte ueRmw requester
    if r.status = .ok then ⟨r.st.beatPut core pch byte (mergeBytes r.data o bytes), .ok⟩ else ⟨r.st, .poison⟩

/-! ## The slice: logical channels, swaps and dead channels (R164-R166) -/

/-- Values of CORE.DRAM_CH_STATk.ROLE. -/
def roleInService : Nat := 0
def roleSpare : Nat := 1
def roleSource : Nat := 2
def roleTarget : Nat := 3
def roleOut : Nat := 4
def roleDead : Nat := 5

/-- Reads and writes of a logical channel complete POISON: its physical channel is dead, or its poison fill runs (R166). -/
def State.lchDead (s : State) (core lch : Nat) : Bool :=
  s.fld DRAM_CH_STAT.ROLE core (s.remap core lch) == roleDead ||
  (match Tbl.find s.swaps core with
   | some w => w.lch == lch && (w.phase == .deadRemap || w.phase == .filling)
   | none => false)

/-- The further channel a write to a logical channel goes to while its copy runs (R165 step 1). -/
def State.mirror (s : State) (core lch : Nat) : Option Nat :=
  match Tbl.find s.swaps core with
  | some w => if w.lch = lch ∧ (w.phase = .copying ∨ w.phase = .holding) then some w.dst else none
  | none => none

/-- One beat of a slice read: `o` is its 32-byte aligned slice offset. -/
def State.sliceBeatRead (s : State) (core o requester : Nat) (e1 e2 : BitVec 272 := 0) : Got :=
  let lch := sliceLch o
  if s.lchDead core lch then ⟨s, .poison, []⟩
  else s.beatRead core (s.remap core lch) (chanByte (sliceBank o) (sliceRow o) (sliceCol o)) ueRead requester e1 e2

/-- Beats of a slice read one after another; the errors sensed apply to the first. -/
def State.sliceBeatsRead (s : State) (core requester : Nat) (e1 e2 : BitVec 272) : List Nat → Got
  | [] => ⟨s, .ok, []⟩
  | o :: os =>
    let g := s.sliceBeatRead core o requester e1 e2
    let g' := State.sliceBeatsRead g.st core requester 0 0 os
    ⟨g'.st, g.status.orElse g'.status, g.data ++ g'.data⟩

/-- `n` bytes of a core's slice read from offset `o` (R149, R154). -/
def State.sliceRead (s : State) (core o n requester : Nat) (e1 e2 : BitVec 272 := 0) : Got :=
  let beats := (List.range (if n = 0 then 0 else (o + n - 1) / 32 + 1 - o / 32)).map (fun j => 32 * (o / 32 + j))
  let g := s.sliceBeatsRead core requester e1 e2 beats
  ⟨g.st, g.status, (g.data.drop (o % 32)).take n⟩

/-- Part or all of one beat of a slice written (R155, R165 step 1, R166). -/
def State.sliceBeatWrite (s : State) (core beat o : Nat) (bytes : List Byte) (requester : Nat) : Put :=
  let so := 32 * beat
  let lch := sliceLch so
  let byte := chanByte (sliceBank so) (sliceRow so) (sliceCol so)
  if s.lchDead core lch then ⟨s, .poison⟩
  else
    let p := s.beatWrite core (s.remap core lch) byte o bytes requester
    match s.mirror core lch, p.status with
    | some d, .ok => ⟨p.st.beatPut core d byte (memBytes p.st.mem (dramByte core (s.remap core lch) byte) 32), .ok⟩
    | _, _ => p

/-- Beat writes one after another; a failed partial beat does not stop the others (R155). -/
def State.sliceBeatsWrite (s : State) (core requester : Nat) : List (Nat × Nat × List Byte) → Put
  | [] => ⟨s, .ok⟩
  | (b, o, bs) :: r =>
    let p := s.sliceBeatWrite core b o bs requester
    let p' := State.sliceBeatsWrite p.st core requester r
    ⟨p'.st, p.status.orElse p'.status⟩

/-- Bytes written from a slice offset on (R155). -/
def State.sliceWrite (s : State) (core o : Nat) (bytes : List Byte) (requester : Nat) : Put :=
  s.sliceBeatsWrite core requester (cutUnits 32 bytes.length o bytes)

end Sys2Proof.Machine
end

