-- ==== Sys2Proof/Machine/Access.lean ====
section
/-! DEFINITION. Device addresses (R13, R14, R23), who may reach what (R24-R26), and the refusals of the mesh with their
counts and events (R29, R30). -/

namespace Sys2Proof.Machine

/-- What a device address names (R13, R23), sites and cores physical. -/
inductive Target where
  | dram (core o : Nat)
  | sram (core off : Nat)
  | coreCsr (core off : Nat)
  | milCsr (site off : Nat)
  | tileCsr (site off : Nat)
  | brimCsr (die off : Nat)
  | unmapped
  deriving DecidableEq, Repr

/-- The image's entry of a logical tile. -/
def State.tile (s : State) (l : Nat) : Option TileEntry := s.image.tiles.find? (fun t => t.ltile == l)

/-- The image's entry of a site. -/
def State.tileAt (s : State) (site : Nat) : Option TileEntry := s.image.tiles.find? (fun t => t.site == site)

/-- The image enables a core (R13). -/
def State.coreEnabled (s : State) (core : Nat) : Bool :=
  match s.tileAt (siteOf core) with
  | some t => t.cores.testBit (coreNo core)
  | none => false

/-- A DA decoded (R13). -/
def State.decodeDa (s : State) (da : Nat) : Target :=
  if 2 ^ 40 ≤ da then .unmapped
  else match bitsOf da 39 38 with
  | 0 =>
    match s.tile (bitsOf da 37 32) with
    | some t => if t.cores.testBit (bitsOf da 31 30) then .dram (coreKey t.site (bitsOf da 31 30)) (bitsOf da 29 0)
      else .unmapped
    | none => .unmapped
  | 1 =>
    if bitsOf da 37 31 ≠ 0 then .unmapped
    else match s.tile (bitsOf da 30 25) with
    | some t => if t.cores.testBit (bitsOf da 24 23) then .sram (coreKey t.site (bitsOf da 24 23)) (bitsOf da 22 0)
      else .unmapped
    | none => .unmapped
  | 2 =>
    if bitsOf da 37 30 ≠ 0 then .unmapped
    else match s.tile (bitsOf da 29 24) with
    | some t =>
      if bitsOf da 23 23 = 0 then
        if t.cores.testBit (bitsOf da 22 21) then .coreCsr (coreKey t.site (bitsOf da 22 21)) (bitsOf da 20 0)
        else .unmapped
      else if bitsOf da 22 22 = 0 then .milCsr t.site (bitsOf da 21 0)
      else .tileCsr t.site (bitsOf da 21 0)
    | none => .unmapped
  | _ => if bitsOf da 37 30 ≠ 0 then .unmapped else .brimCsr (bitsOf da 29 28) (bitsOf da 27 0)

/-- Kinds of request (R26, R267). -/
inductive ReqKind where
  | read | write | atomic
  deriving DecidableEq, Repr

/-- The window and offset of a CSR target. -/
def Target.csr (hbDie : Nat) : Target → Option (Window × Nat × Nat)
  | .coreCsr c off => some (.core, c, off)
  | .milCsr st off => some (.mil, st, off)
  | .tileCsr st off => some (.tile, st, off)
  | .brimCsr d off =>
    if d = hbDie ∧ 0x8000000 ≤ off then some (.hb, 0, off - 0x8000000)
    else if off < 0x8000000 then some (.bd, d, off)
    else none
  | _ => none

/-- The register a CSR window offset names: register, unit, index and byte within it. Brim-die windows hold the tables of
`bd`, `bdport` and, on BD0, `bd0`; milliner registers lie at +0x20_0000 of their window (10). -/
def regAt (w : Window) (u off : Nat) : Option (Reg × Nat × Nat × Nat) :=
  match w with
  | .bd =>
    match findReg .bd off with
    | some (r, i, b) => some (r, (if r = .MESH_LINK then 72 + u else 0), i, b)
    | none =>
      match findReg .bdport off with
      | some (r, i, b) => some (r, 0, 4 * u + i, b)
      | none => if u = 0 then (findReg .bd0 off).map (fun x => (x.1, 0, x.2.1, x.2.2)) else none
  | _ => (findReg w off).map (fun x => (x.1, u, x.2.1, x.2.2))

/-- A register with a read-to-clear field (R5, R14). -/
def Reg.hasRc (r : Reg) (i : Nat) : Bool := (r.fields i).any (fun f => f.access == .rc)

/-- The shape rules of R14 hold. -/
def shapeOk (hbDie : Nat) (k : ReqKind) (t : Target) (da len : Nat) : Bool :=
  match t with
  | .unmapped => false
  | .dram _ _ | .sram _ _ =>
    if k = .atomic then (len == 4 || len == 8) && da % len == 0
    else decide (1 ≤ len) && decide (len ≤ 256) && decide (da % 256 + len ≤ 256)
  | _ =>
    k != .atomic && (len == 4 || len == 8) && da % len == 0 &&
    (match Target.csr hbDie t with
     | some (w, u, off) =>
       (match regAt w u off with
        | some (r, _, i, _) => !(k == .read && r.hasRc i && len == 4)
        | none => true)
     | none => true)

/-- The site and UNIT of an agent as the source of a record or a packet (R267, R376). -/
def State.agentSite (s : State) : Agent → Nat
  | .core c => siteOf c
  | .milliner st => st
  | .hatband => 72 + s.hb.active
  | .pcie _ => 72
  | .brimlink d _ => 72 + d

/-- UNIT of an agent's event records (R376). -/
def evUnitOf : Agent → Nat
  | .core c => coreNo c
  | .milliner _ => uMilliner
  | .hatband => uHatband
  | .pcie _ => uBrim
  | .brimlink _ _ => uBrim

/-- UNIT of an agent's packets (R267). -/
def pktUnitOf : Agent → Nat
  | .core c => coreNo c
  | .milliner _ => 4
  | .hatband => 5
  | .pcie _ => 6
  | .brimlink _ _ => 7

/-- The R20 requester an agent's access to an SRAM bank counts as (log 20). -/
def sramRqOf : Agent → Nat
  | .milliner _ => rqMilliner
  | _ => rqDma

/-- The partition a request carries (R24). -/
def State.agentPt (s : State) : Agent → Option Nat
  | .core c => s.ptOfSite (siteOf c)
  | .milliner st => s.ptOfSite st
  | .hatband => none
  | .pcie f => s.fnPt f
  | .brimlink _ p => some p

/-- The tile whose router checks an agent's requests on egress (R25): the tile agents' own. -/
def egressOf : Agent → Option Nat
  | .core c => some (siteOf c)
  | .milliner st => some st
  | _ => none

/-- The site of a tile target. -/
def Target.site : Target → Option Nat
  | .dram c _ | .sram c _ | .coreCsr c _ => some (siteOf c)
  | .milCsr st _ | .tileCsr st _ => some st
  | _ => none

/-- The map of router `r` lets an agent reach a target (R23, R24, R26 order 2); a fabric page is its partition's too (R250). -/
def State.allows (s : State) (r : Nat) (a : Agent) (t : Target) : Bool :=
  match a, t with
  | .hatband, _ => true
  | .pcie 0, .tileCsr _ _ | .pcie 0, .brimCsr _ _ => true
  | _, .brimCsr _ off =>
    decide (0x4000000 ≤ off) && decide (off < 0x4080000) && s.agentPt a == some ((off - 0x4000000) / 0x10000)
  | _, .tileCsr _ _ => false
  | _, _ =>
    match t.site.bind s.ltileOf with
    | some l => (match s.fwEntry r l with
      | some p => s.agentPt a == some p
      | none => false)
    | none => false

/-- Where the firewall refuses a request, if it does: the router (a site, or 72 + n for a brim die) and whether on egress. -/
def State.denied (s : State) (a : Agent) (t : Target) : Option (Nat × Bool) :=
  match egressOf a with
  | some e =>
    if !s.allows e a t then some (e, true)
    else match t with
      | .brimCsr _ _ => none
      | _ => (match t.site with
        | some d => if !s.allows d a t then some (d, false) else none
        | none => none)
  | none =>
    let d := match t with
      | .brimCsr n _ => 72 + n
      | _ => t.site.getD 0
    if !s.allows d a t then some (d, false) else none

/-- The core or its tile is fenced (R313). -/
def State.coreFenced (s : State) (core : Nat) : Bool :=
  s.fld (RESET_STAT.CORE_CAUSE (coreNo core)) (siteOf core) 0 != 0 || s.fld RESET_STAT.TILE_CAUSE (siteOf core) 0 != 0

/-- The milliner window answers FENCED: the tile is fenced, or its milliner is held (R313). -/
def State.milFenced (s : State) (site : Nat) : Bool :=
  s.fld RESET_STAT.TILE_CAUSE site 0 != 0 || s.fld RESET_STAT.MIL_HELD site 0 != 0

/-- CORE_PWR_STATn.STATE of a core. -/
def State.pwrState (s : State) (core : Nat) : Nat := s.fld CORE_PWR_STAT.STATE (siteOf core) (coreNo core)

/-- The first check of R26 that fails, with its order. -/
inductive Check where
  | pass
  | order1
  | order2 (router : Nat) (egress : Bool)
  | order3 (st : Status)
  | order4 (core : Nat)
  deriving DecidableEq, Repr

/-- Order 3 of R26. -/
def State.fenceCheck (s : State) (k : ReqKind) (t : Target) : Option Status :=
  match t with
  | .dram c _ | .sram c _ => if s.coreFenced c then some (if k = .read then .poison else .fenced) else none
  | .coreCsr c _ => if s.coreFenced c then some .fenced else none
  | .milCsr st _ => if s.milFenced st then some .fenced else none
  | _ => none

/-- Order 4 of R26: SRAM and core window of a core that is not ON (R340). -/
def State.powerCheck (s : State) (t : Target) : Option Nat :=
  match t with
  | .sram c _ | .coreCsr c _ => if s.pwrState c ≠ 0 then some c else none
  | _ => none

/-- No route leads from an agent's router to the target's site (R275): a router on the way answers FENCED. -/
def State.unreached (s : State) (a : Agent) (t : Target) : Bool :=
  match t.site with
  | some e => s.agentSite a != e && s.fld ROUTE.UNREACH (s.agentSite a) e == 1
  | none => false

/-- The checks of R26, in order. A site that cannot be reached answers nothing itself, its router's map included (R275). -/
def State.checkReq (s : State) (k : ReqKind) (a : Agent) (da len : Nat) : Check :=
  let t := s.decodeDa da
  if !shapeOk s.hb.active k t da len then .order1
  else match s.denied a t with
    | some (r, e) => if !e && s.unreached a t then .order3 .fenced else .order2 r e
    | none =>
      if s.unreached a t then .order3 .fenced else
      match s.fenceCheck k t with
      | some st => .order3 st
      | none =>
        match s.powerCheck t with
        | some c => .order4 c
        | none => .pass

/-- The request's address (a device address, or a slice offset) and bytes. -/
def Held.range : Held → Nat × Nat
  | .read _ _ da len => (da, len)
  | .write _ _ da data => (da, data.length)
  | .atomic _ _ da _ size _ => (da, size)
  | .sliceRead _ off len _ _ _ => (off, len)
  | .sliceWrite _ off data _ => (off, data.length)

/-- The requester and tag of a waiting request of an agent. -/
def Held.key : Held → Option (Agent × Nat)
  | .read a tag _ _ => some (a, tag)
  | .write a tag _ _ => some (a, tag)
  | .atomic a tag _ _ _ _ => some (a, tag)
  | .sliceRead _ _ _ _ _ _ => none
  | .sliceWrite _ _ _ _ => none

/-- A response that reached its requester. -/
def State.answered (s : State) (r : Resp) : State :=
  { s with mesh := { s.mesh with answered := r :: s.mesh.answered } }

/-- New requests to a logical channel are held: its channel retrains (R160), or its swap waits for the remap (R165 step 3). -/
def State.lchHeld (s : State) (c lch : Nat) : Bool :=
  s.fld DRAM_CH_STAT.RETRAINING c (s.remap c lch) == 1 ||
  (match Tbl.find s.swaps c with
   | some w => w.lch == lch && w.phase == .holding
   | none => false)

/-- The logical channels a range of a slice touches. -/
def sliceLchs (o n : Nat) : List Nat :=
  ((List.range (if n = 0 then 0 else (o + n - 1) / 256 + 1 - o / 256)).map (fun j => sliceLch (256 * (o / 256 + j)))).eraseDups

/-- A range of a slice waits for a channel. -/
def State.sliceHeld (s : State) (c o n : Nat) : Bool := (sliceLchs o n).any (s.lchHeld c)

/-- A passed request waits: its DRAM channel retrains or is being remapped (R160, R165), or its SRAM is being cleared (R22). -/
def State.reqHeld (s : State) (t : Target) (len : Nat) : Bool :=
  match t with
  | .dram c o => s.sliceHeld c o len
  | .sram c _ => s.fld SRAM_STAT.CLEARING c 0 == 1
  | _ => false

/-- A request of an agent waits at its destination: it passes its checks, and what it reaches is not ready. -/
def State.daHeld (s : State) (k : ReqKind) (a : Agent) (da len : Nat) : Bool :=
  s.checkReq k a da len == .pass && s.reqHeld (s.decodeDa da) len

/-- Requests made one after another would wait: one waits, and none before it is refused. -/
def State.listHeld (s : State) (k : ReqKind) (a : Agent) : List (Nat × Nat) → Bool
  | [] => false
  | (da, n) :: r =>
    match s.checkReq k a da n with
    | .pass => s.reqHeld (s.decodeDa da) n || State.listHeld s k a r
    | _ => false

/-- The status of a failed check. -/
def Check.status : Check → Status
  | .pass => .ok
  | .order1 => .badFormat
  | .order2 _ _ => .auth
  | .order3 st => st
  | .order4 _ => .stateConflict

/-- The firewall's record of a refusal at a tile's router (R30). LAST_SRC_PT is 0 for a source without a partition, and a
refusal at a brim die, which has no FW_STAT, is counted nowhere: the model's choices (log 120). -/
def State.fwRefuse (s : State) (router : Nat) (egress : Bool) (a : Agent) (da : Nat) : State :=
  if router < 72 then
    ((((s.addFld FW_STAT.DENY_COUNT router 0 1).setFld FW_STAT.LAST_EGRESS router 0 (if egress then 1 else 0)).setFld
      FW_STAT.LAST_SRC_PT router 0 ((s.agentPt a).getD 0)).setFld FW_STAT.LAST_SRC_HOST router 0
        (match a with
         | .pcie _ => 1
         | _ => 0)).setReg .FW_LAST router 0 (BitVec.ofNat 64 (da % 2 ^ 48))
  else s

/-- What a failed check leaves behind: counts and events, nothing else (R26, R29, R30). STATE_REFUSED counts each order 4
refusal, also that of an OFF or switching core and of a core window: the model's choice (R22; log 121). -/
def State.refuse (s : State) (a : Agent) (da : Nat) : Check → State
  | .order1 => s.raise .ADDR_UNMAPPED (s.agentSite a) (evUnitOf a) [(8, da), (1, (pktUnitOf a))]
      { pt := s.agentPt a, sited := false }
  | .order2 r e =>
    (s.fwRefuse r e a da).raise .FIREWALL_DENY r (if r < 72 then uCommon else uBrim) [(8, da), (1, if e then 1 else 0)]
      { pt := s.agentPt a, sited := false }
  | .order4 c => s.addFld SRAM_STAT.STATE_REFUSED c 0 1
  | _ => s

/-- A read of SRAM or DRAM that passed its checks. -/
def State.memRead (s : State) (a : Agent) (t : Target) (len : Nat) : Got :=
  match t with
  | .dram c o => s.sliceRead c o len (pktUnitOf a)
  | .sram c off => s.sramRead c off len (sramRqOf a)
  | _ => ⟨s, .badFormat, []⟩

/-- A write of SRAM or DRAM that passed its checks. -/
def State.memWrite (s : State) (a : Agent) (t : Target) (bytes : List Byte) : Put :=
  match t with
  | .dram c o => s.sliceWrite c o bytes (pktUnitOf a)
  | .sram c off => s.sramWrite c off bytes (sramRqOf a)
  | _ => ⟨s, .badFormat⟩

/-- The new value of an atomic operation of `size` bytes, and whether a semaphore add saturated (R101, R195). -/
def amoValue (op : AmoOp) (size old x : Nat) : Nat × Bool :=
  let w := 8 * size
  let m := 2 ^ w
  let o := old % m
  let y := x % m
  match op with
  | .add => ((o + y) % m, false)
  | .swap => (y, false)
  | .and => (o &&& y, false)
  | .or => (o ||| y, false)
  | .xor => (o ^^^ y, false)
  | .max => (if signedOf w o < signedOf w y then y else o, false)
  | .min => (if signedOf w y < signedOf w o then y else o, false)
  | .maxu => (max o y, false)
  | .minu => (min o y, false)
  | .semAdd => (min (m - 1) (o + y), decide (m - 1 < o + y))

/-- An atomic operation on memory that passed its checks: its old value, or POISON with no effect; and whether it
saturated. Its read and its partial write each count a correction in CE_COUNT: the model's choice (R29; log 122). -/
def State.memAtomic (s : State) (a : Agent) (t : Target) (op : AmoOp) (size x : Nat) : Got × Bool :=
  let g := s.memRead a t size
  if g.status ≠ .ok then (g, false)
  else
    let r := amoValue op size (leNat g.data) x
    let p := g.st.memWrite a t (leBytes size r.1)
    (⟨p.st, p.status, g.data⟩, r.2)

end Sys2Proof.Machine
end

