-- ==== Sys2Proof/Machine/Interrupts.lean ====
section
/-! DEFINITION. Interrupts to a milliner: the interrupt files and the APLIC sources (R201, R202). -/

namespace Sys2Proof.Machine

/-- A milliner's state. -/
def State.mil (s : State) (site : Nat) : Mil := Tbl.at s.mils site {}

/-- A milliner's state replaced. -/
def State.setMil (s : State) (site : Nat) (m : Mil) : State := { s with mils := Tbl.set s.mils site m }

/-- A list with a number added once. -/
def addOnce (l : List Nat) (k : Nat) : List Nat := if l.contains k then l else l ++ [k]

/-- An MSI: identity 1-255 of a file becomes pending (R201); any other value has no effect. -/
def State.msi (s : State) (site file identity : Nat) : State :=
  let m := s.mil site
  s.setMil site { m with
    eip := if 1 ≤ identity ∧ identity ≤ 255 ∧ file < 5 then addOnce m.eip (256 * file + identity) else m.eip }

/-- The file and identity an APLIC target word names (R202; the word's layout is the RISC-V AIA's, log 23): the guest index
in [17:12] (0 the supervisor file, 63, DESIGN CHOICE of log 23, the machine-level file), the identity in [10:0]. -/
def aplicTarget (w : Nat) : Nat × Nat := (if bitsOf w 17 12 = 63 then 0 else 1 + bitsOf w 17 12, bitsOf w 10 0)

/-- An APLIC source raised (R202): it is sent as an MSI where software has given it a target, and stays pending otherwise. -/
def State.milIrq (s : State) (site source : Nat) : State :=
  let m := s.mil site
  match Tbl.find m.targets source with
  | some w => s.msi site (aplicTarget w).1 (aplicTarget w).2
  | none => s.setMil site { m with aplic := addOnce m.aplic source }

/-- The sequencer interrupt of a core (sources 1-4). -/
def State.coreIrq (s : State) (core : Nat) : State := s.milIrq (siteOf core) (1 + coreNo core)

end Sys2Proof.Machine
end

