-- ==== Sys2Proof/Machine/Sequencer.lean ====
section
/-! DEFINITION. The sequencer of a core (06): rings and their fetch, traps and errors, waits and signals, issue and
completion, fences. -/

namespace Sys2Proof.Machine

/-! ## Values of QSTAT.STATE -/
def qDisabled : Nat := 0
def qRunning : Nat := 1
def qWaiting : Nat := 2
def qHalted : Nat := 3
def qError : Nat := 4
def qTrapped : Nat := 5
def qFenced : Nat := 6

/-- The ring size of a queue: 2^(6+SIZE) (R93). -/
def State.ringSize (s : State) (c q : Nat) : Nat := 2 ^ (6 + min 10 (s.fld QCFG.SIZE c q))
def State.qHead (s : State) (c q : Nat) : Nat := s.fld QPTR.HEAD c q
def State.qTail (s : State) (c q : Nat) : Nat := s.fld QPTR.TAIL c q
def State.qState (s : State) (c q : Nat) : Nat := s.fld QSTAT.STATE c q

/-- The distance from one ring index to a later one. -/
def ringDist (size a b : Nat) : Nat := (b + size - a % size) % size

/-! ## The command word (R96, R97) -/

/-- Bits of a command. -/
def cmdBits (w : BitVec 128) (hi lo : Nat) : Nat := bitsOf w.toNat hi lo

def cmdClass (w : BitVec 128) : Nat := cmdBits w 3 0
def cmdOp (w : BitVec 128) : Nat := cmdBits w 7 4
def cmdQsync (w : BitVec 128) : Bool := cmdBits w 9 9 == 1
def cmdWaitSem (w : BitVec 128) : Nat := cmdBits w 15 10
def cmdWaitCnt (w : BitVec 128) : Nat := cmdBits w 19 16
def cmdSigSem (w : BitVec 128) : Nat := cmdBits w 25 20
def cmdSigCnt (w : BitVec 128) : Nat := cmdBits w 29 26
def cmdWdec (w : BitVec 128) : Bool := cmdBits w 30 30 == 1
def cmdIrq (w : BitVec 128) : Bool := cmdBits w 31 31 == 1

/-- The body fields (hi, lo) of an operation (R107, R108, R110, R112, R113, R130); `none`: reserved (R97). -/
def bodyFields (cls op : Nat) : Option (List (Nat × Nat)) :=
  match cls, op with
  | 0, 0 => some []
  | 0, 1 => some [(63, 32)]
  | 0, 2 => some [(63, 32)]
  | 0, 3 => some [(127, 64), (49, 32)]
  | 1, 0 => some []
  | 1, 1 => some []
  | 1, 2 => some [(37, 32), (95, 64)]
  | 1, 3 => some [(71, 32), (75, 72)]
  | 1, 4 => some [(35, 32)]
  | 1, 5 => some [(47, 32)]
  | 2, 0 => some [(39, 32), (55, 40), (59, 56), (61, 60)]
  | 2, 1 => some []
  | 3, 0 => some [(37, 32)]
  | 3, 1 => some [(54, 32), (77, 55), (100, 78)]
  | 3, 2 => some [(54, 32), (95, 64), (127, 96)]
  | 4, 0 => some [(127, 112), (111, 72), (71, 32)]
  | 4, 1 => some [(127, 112), (111, 72), (63, 32)]
  | 4, 2 => some [(48, 32)]
  | 4, 3 => some [(111, 80), (79, 66), (65, 32)]
  | 5, 0 => some [(127, 111), (110, 105), (104, 98), (97, 96), (95, 95), (94, 93), (92, 91)]
  | 5, 1 => some [(127, 105), (104, 98), (97, 96), (94, 93), (92, 91), (90, 89)]
  | 5, 2 => some [(97, 96), (94, 93), (92, 91)]
  | 5, 3 => some [(127, 111), (110, 99), (97, 96), (95, 95), (94, 93), (92, 91)]
  | 5, 4 => some [(127, 111), (97, 96), (95, 95), (94, 93), (92, 91), (79, 64)]
  | 5, 5 => some [(127, 111), (110, 104), (103, 98), (97, 96), (94, 93), (92, 91)]
  | 5, 6 => some [(127, 111), (110, 104), (103, 98), (97, 96), (95, 95), (94, 93), (92, 91)]
  | 6, 0 => some [(127, 111), (110, 108), (107, 106), (105, 105), (104, 103)]
  | 7, n => if n ≤ 12 then some [(127, 111), (110, 96), (95, 80), (79, 79)] else none
  | 8, n => if n ≤ 2 then some [(127, 111), (110, 103), (102, 100), (99, 97)] else none
  | _, _ => none

/-- The queues a class is allowed on (R97). -/
def classOnQueue (cls q : Nat) : Bool :=
  if cls ≤ 3 then true
  else if cls = 4 then q == 3
  else if cls = 5 ∨ cls = 6 then q == 0
  else if cls = 7 then q == 1
  else q == 2

/-- The bits that a command may set: its header without bit 8, and its named body bits. -/
def namedMask (fs : List (Nat × Nat)) : Nat :=
  fs.foldl (fun m f => m ||| (2 ^ (f.1 + 1) - 2 ^ f.2)) (2 ^ 32 - 1 - 2 ^ 8)

/-- The core-window offset a WREG names (R107). -/
def wregOff (w : BitVec 128) : Nat := 8 * cmdBits w 49 32

/-- A WREG outside +0x0_4000 to +0x0_7FF8 (R107). -/
def wregBad (w : BitVec 128) : Bool :=
  cmdClass w == 0 && cmdOp w == 3 && !(decide (0x4000 ≤ wregOff w) && decide (wregOff w ≤ 0x7FF8))

/-- The trap cause of a command word on a queue (R97, R98): 0 reserved, 1 wrong queue, 2 a must-be-zero bit set, 4 a WREG
offset. -/
def trapCause (q : Nat) (w : BitVec 128) : Option Nat :=
  match bodyFields (cmdClass w) (cmdOp w) with
  | none => some 0
  | some fs =>
    if !classOnQueue (cmdClass w) q then some 1
    else if w.toNat ||| namedMask fs ≠ namedMask fs then some 2
    else if wregBad w then some 4
    else none

/-! ## Local SRAM access: a core offset taken modulo 8 MiB (log 21) -/

/-- `n` bytes of a core's own SRAM. -/
def State.localRead (s : State) (c off n who : Nat) : Got :=
  let o := off % 2 ^ 23
  if o + n ≤ 2 ^ 23 then s.sramRead c o n who
  else
    let a := s.sramRead c o (2 ^ 23 - o) who
    let b := a.st.sramRead c 0 (n - (2 ^ 23 - o)) who
    ⟨b.st, a.status.orElse b.status, a.data ++ b.data⟩

/-- Bytes written to a core's own SRAM. -/
def State.localWrite (s : State) (c off : Nat) (bytes : List Byte) (who : Nat) : Put :=
  let o := off % 2 ^ 23
  if o + bytes.length ≤ 2 ^ 23 then s.sramWrite c o bytes who
  else
    let a := s.sramWrite c o (bytes.take (2 ^ 23 - o)) who
    let b := a.st.sramWrite c 0 (bytes.drop (2 ^ 23 - o)) who
    ⟨b.st, a.status.orElse b.status⟩

/-! ## Semaphores (R101) -/

/-- The core offset of semaphore `i`. -/
def State.semOff (s : State) (c i : Nat) : Nat := s.fld SEQ_CFG.SEM_BASE c 0 * 64 + 4 * i

/-- A semaphore's count. -/
def State.semValue (s : State) (c i : Nat) : Nat := leNat (memBytes s.mem (sramByte c (s.semOff c i % 2 ^ 23)) 4)

/-- SEM_SATURATED (R101, R119): the semaphore, and the signalling queue or (8 + UNIT) a remote source (log 20). -/
def State.semSaturated (s : State) (c i src : Nat) : State :=
  s.raise .SEM_SATURATED (siteOf c) (coreNo c) [(1, i), (1, src)]

/-- The atomic saturating add at a semaphore (R101); POISON changes nothing. -/
def State.semAdd (s : State) (c i n src : Nat) : Put :=
  let g := s.localRead c (s.semOff c i) 4 rqDma
  if g.status ≠ .ok then ⟨g.st, .poison⟩
  else
    let r := amoValue .semAdd 4 (leNat g.data) n
    let p := g.st.localWrite c (s.semOff c i) (leBytes 4 r.1) rqDma
    ⟨if r.2 then p.st.semSaturated c i src else p.st, p.status⟩

/-- What a command's wait test answers. -/
inductive WaitTest where
  /-- Satisfied; the state after the access (WAIT_CNT subtracted where WDEC is 1). -/
  | go (s : State)
  | blocked
  /-- The semaphore's lane carries a poison mark. -/
  | poisoned (s : State)

/-- The wait of a command's header (R96, R101). -/
def State.waitTest (s : State) (c : Nat) (w : BitVec 128) : WaitTest :=
  if cmdWaitCnt w = 0 then .go s
  else
    let g := s.localRead c (s.semOff c (cmdWaitSem w)) 4 rqDma
    if g.status ≠ .ok then .poisoned g.st
    else if leNat g.data < cmdWaitCnt w then .blocked
    else if cmdWdec w then
      .go (g.st.localWrite c (s.semOff c (cmdWaitSem w)) (leBytes 4 (leNat g.data - cmdWaitCnt w)) rqDma).st
    else .go g.st

/-! ## Traps, errors and completions (R98-R100, R104) -/

/-- A queue traps (R98): HEAD stays at the command. -/
def State.trap (s : State) (c q idx cause : Nat) : State :=
  let s1 := ((s.setFld QSTAT.STATE c q qTrapped).setFld QSTAT.CAUSE c q cause).setFld QSTAT.INDEX c q idx
  (s1.raise .SEQ_TRAP (siteOf c) (coreNo c) [(1, q), (2, idx), (1, cause)]).coreIrq c

/-- A queue whose next command is bad traps, if it is running (R95, R98). -/
def State.queueSettle (s : State) (c q : Nat) : State :=
  match (s.queue c q).fetched with
  | [] => s
  | f :: _ =>
    if s.qState c q = qRunning ∨ s.qState c q = qWaiting then
      match f.bad with
      | some cause => s.trap c q f.index cause
      | none =>
        match trapCause q f.word with
        | some cause => s.trap c q f.index cause
        | none => s
    else s

/-- STATE_CONFLICT completions are counted (R116, R119). -/
def State.countConflict (s : State) (c q opcode : Nat) : State :=
  s.countPast256 SEQ_STAT.SC_COUNT c 0 1 .SC_MANY (siteOf c) (coreNo c) [(1, q), (1, opcode)]

/-- SEQ_ERROR and the milliner interrupt (R99). -/
def State.errorReport (s : State) (c q idx : Nat) (st : Status) : State :=
  (s.raise .SEQ_ERROR (siteOf c) (coreNo c) [(1, q), (2, idx), (1, st.code)]).coreIrq c

/-- A completion with a status other than OK reaches its queue (R99); a queue disabled meanwhile enters ERROR like a running
one. -/
def State.failQueue (s : State) (c q idx : Nat) (st : Status) (sig : Option (Nat × Nat)) : State :=
  let qu := s.queue c q
  let s0 := s.setQueue c q { qu with withheld := qu.withheld ++ sig.toList }
  let stt := s.qState c q
  if stt = qRunning ∨ stt = qWaiting ∨ stt = qDisabled then
    (((s0.setFld QSTAT.STATE c q qError).setFld QSTAT.STATUS c q st.code).setFld QSTAT.INDEX c q idx).errorReport c q idx st
  else if stt = qTrapped ∨ stt = qHalted then
    let s1 := if s.fld QSTAT.ERR_PEND c q = 0 then s0.setFld QSTAT.STATUS c q st.code else s0
    ((s1.addFld QSTAT.ERR_COUNT c q 1).setFld QSTAT.ERR_PEND c q 1).errorReport c q idx st
  else if stt = qFenced then s
  else s0.addFld QSTAT.ERR_COUNT c q 1

/-- A command completes with a status (R96, R99, R101, R104): OK signals and interrupts; anything else puts its queue in
ERROR and withholds the signal. -/
def State.finish (s : State) (c q idx : Nat) (w : BitVec 128) (st : Status) : State :=
  let s0 := if st = .stateConflict then s.countConflict c q (16 * cmdClass w + cmdOp w) else s
  if st = .ok then
    if cmdSigCnt w = 0 then (if cmdIrq w then s0.coreIrq c else s0)
    else
      let p := s0.semAdd c (cmdSigSem w) (cmdSigCnt w) q
      if p.status = .ok then (if cmdIrq w then p.st.coreIrq c else p.st)
      else p.st.failQueue c q idx .poison none
  else s0.failQueue c q idx st (if cmdSigCnt w = 0 then none else some (cmdSigSem w, cmdSigCnt w))

/-- The signals that failed commands withheld, performed (R100). -/
def State.performWithheld (s : State) (c q : Nat) : List (Nat × Nat) → State
  | [] => s
  | (i, n) :: r => State.performWithheld (s.semAdd c i n q).st c q r

/-! ## Issue (R103) -/

/-- HEAD advances past a command that issues; the queue is RUNNING. -/
def State.advanceHead (s : State) (c q : Nat) : State :=
  let qu := s.queue c q
  ((s.setQueue c q { qu with fetched := qu.fetched.drop 1, warned := false }).setFld QPTR.HEAD c q
    ((s.qHead c q + 1) % s.ringSize c q)).setFld QSTAT.STATE c q qRunning

/-- The command at HEAD, if the queue is running, it is the operation named, and QSYNC allows it (R97, R103); while the core's
SRAM is being cleared its units wait (R22). -/
def State.headOf (s : State) (c q cls op : Nat) : Option Fetched :=
  match (s.queue c q).fetched with
  | [] => none
  | f :: _ =>
    if s.fld SRAM_STAT.CLEARING c 0 = 0 ∧ (s.qState c q = qRunning ∨ s.qState c q = qWaiting) ∧ f.bad = none ∧ trapCause q f.word = none ∧
        cmdClass f.word = cls ∧ cmdOp f.word = op ∧
        (cmdQsync f.word = true → (s.queue c q).inflight = []) ∧
        (q = 1 ∨ q = 2 → (s.queue c q).inflight = []) then some f
    else none

/-- Issue of the command at HEAD of a queue: its wait is tested, HEAD advances, `act` says what it does, and the next command
is looked at. Where the command may not issue (a different head, its wait, `unitOk`), nothing happens but that the
queue shows WAITING (log 6). -/
def State.issue (s : State) (c q cls op : Nat) (unitOk : Fetched → Bool) (act : Fetched → State → State) : State :=
  match s.headOf c q cls op with
  | none => s
  | some f =>
    if unitOk f then
      match s.waitTest c f.word with
      | .blocked => s.setFld QSTAT.STATE c q qWaiting
      | .poisoned s' => s'.failQueue c q f.index .poison
          (if cmdSigCnt f.word = 0 then none else some (cmdSigSem f.word, cmdSigCnt f.word))
      | .go s' => (act f (s'.advanceHead c q)).queueSettle c q
    else s

/-- A command that runs on: it joins the queue's commands in flight. -/
def State.start (s : State) (c q : Nat) (x : InFlight) : State :=
  s.setQueue c q { s.queue c q with inflight := (s.queue c q).inflight ++ [x] }

/-- A command of another class than move, behind moves that run on the move queue: it completes after them (R103). -/
def State.behindMoves (s : State) (c q : Nat) (w : BitVec 128) : Bool :=
  q == 3 && cmdClass w != 4 && !(s.queue c q).inflight.isEmpty

/-- A command that is done at issue with a status completes, unless it must wait for the moves before it (R103). -/
def State.finishNow (s : State) (c q : Nat) (f : Fetched) (st : Status) : State :=
  if s.behindMoves c q f.word then s.start c q { index := f.index, word := f.word, status := st }
  else s.finish c q f.index f.word st

/-! ## Rings (R93-R95) -/

/-- A write of TAIL (R94): ignored on a fenced queue (R117), judged against HEAD otherwise. -/
def State.tailWrite (s : State) (c q v : Nat) : State :=
  if s.qState c q = qFenced then s
  else
    let n := s.ringSize c q
    let h := s.qHead c q
    if v < n ∧ ringDist n h (s.qTail c q) ≤ ringDist n h v then s.setFld QPTR.TAIL c q v
    else s.raise .SEQ_TAIL_BAD (siteOf c) (coreNo c) [(1, q), (4, v)]

/-- The 64-byte words the fetched commands of a queue come from. -/
def wordsHeld (fs : List Fetched) : Nat := (fs.map (fun f => f.index / 4)).eraseDups.length

/-- A fetch may run: the SRAM is not being cleared (R22), the queue fetches, holds fewer than four words, and a word before TAIL remains (R95). -/
def State.mayFetch (s : State) (c q : Nat) : Bool :=
  s.fld SRAM_STAT.CLEARING c 0 == 0 && (s.qState c q == qRunning || s.qState c q == qWaiting) && decide (wordsHeld (s.queue c q).fetched < 4) &&
  (s.queue c q).fetchAt != s.qTail c q

/-- The ring indexes one fetch brings: from `at_` to the end of its 64-byte word, never to TAIL (R95). -/
def fetchIndexes (at_ tail : Nat) : List Nat :=
  ((List.range 4).map (fun j => 4 * (at_ / 4) + j)).filter (fun i => decide (at_ ≤ i) && !(decide (at_ ≤ tail) && decide (tail ≤ i)))

/-- A ring word is fetched (R95): its commands join the queue, or the queue will trap with cause 3 or 5. -/
def State.ringFetch (s : State) (c q : Nat) : State :=
  if s.mayFetch c q then
    let qu := s.queue c q
    let base := s.fld QCFG.BASE c q * 64
    let off := base + 64 * (qu.fetchAt / 4)
    let idxs := fetchIndexes qu.fetchAt (s.qTail c q)
    let nx := (4 * (qu.fetchAt / 4) + 4) % s.ringSize c q
    let nx' := if qu.fetchAt ≤ s.qTail c q ∧ s.qTail c q < 4 * (qu.fetchAt / 4) + 4 then s.qTail c q else nx
    if 2 ^ 23 ≤ off then
      (s.setQueue c q { qu with fetched := qu.fetched ++ idxs.map (fun i => ⟨i, 0, some 5⟩), fetchAt := nx' }).queueSettle c q
    else
      let g := s.sramRead c off 64 rqDma
      let qu' := g.st.queue c q
      let fs := idxs.map (fun i => (⟨i, BitVec.ofNat 128 (leNat ((g.data.drop (16 * (i % 4))).take 16)),
        if g.status = .ok then none else some 3⟩ : Fetched))
      (g.st.setQueue c q { qu' with fetched := qu'.fetched ++ fs, fetchAt := nx' }).queueSettle c q
  else s

/-- The queue runs again, or is disabled where EN is 0 (log 22). -/
def State.qGo (s : State) (c q : Nat) : State :=
  s.setFld QSTAT.STATE c q (if s.fld QCFG.EN c q = 1 then qRunning else qDisabled)

/-- What the queue has fetched is dropped: it fetches from HEAD again. -/
def State.refetch (s : State) (c q : Nat) : State :=
  s.setQueue c q { s.queue c q with fetched := [], fetchAt := s.qHead c q, warned := false }

/-- RESUME or SKIP through CORE.QCTLq (R99, R100, R107). -/
def State.qctl (s : State) (c q : Nat) (skip sigFailed : Bool) : State :=
  let st := s.qState c q
  let pend := s.fld QSTAT.ERR_PEND c q == 1
  let after : State → State := fun t =>
    if pend then (t.setFld QSTAT.ERR_PEND c q 0).setFld QSTAT.STATE c q qError else (t.qGo c q).queueSettle c q
  if st = qTrapped then
    let s1 := if skip then s.setFld QPTR.HEAD c q ((s.qHead c q + 1) % s.ringSize c q) else s
    after (s1.refetch c q)
  else if st = qHalted then (if skip && !pend then s else after s)
  else if st = qError then
    let w := (s.queue c q).withheld
    let s1 := s.setQueue c q { s.queue c q with withheld := [] }
    let s2 := if sigFailed then s1.performWithheld c q w else s1
    let s3 := if q = 3 then s2.setCore c { s2.core c with dmaHalted := 0 } else s2
    (s3.qGo c q).queueSettle c q
  else s

/-- CORE.QCFGq.EN written (R93): the queue starts at HEAD, or stops; a fenced core ignores it (R315, R117). -/
def State.qEnable (s : State) (c q : Nat) (en : Bool) : State :=
  if s.qState c q = qFenced ∨ s.coreFenced c then s
  else
    let s1 := s.setFld QCFG.EN c q (if en then 1 else 0)
    if en then
      (if s.qState c q = qDisabled then ((s1.refetch c q).setFld QSTAT.STATE c q qRunning) else s1)
    else if s.qState c q = qRunning ∨ s.qState c q = qWaiting then
      (s1.refetch c q).setFld QSTAT.STATE c q qDisabled
    else s1

/-- Every queue of a fenced core enters FENCED; issued commands complete FENCED and signal nothing (R117). -/
def State.fenceQueues (s : State) (c : Nat) : State :=
  (List.range 4).foldl (fun t q => (t.setQueue c q {}).setFld QSTAT.STATE c q qFenced) s

/-! ## Completion of a running command -/

/-- The logical arrays a matrix command works on, and 4 for the matrix-vector path (R103, R110). -/
def cmdUnits (w : BitVec 128) : List Nat :=
  if cmdClass w = 6 then [4]
  else if cmdClass w ≠ 5 then []
  else if cmdBits w 97 96 = 0 then [cmdBits w 92 91] else [0, 1, 2, 3]

/-- A running command may complete before one that issued earlier on its queue (R103): on the move queue, a move before a move;
on the matrix queue, commands of different arrays, and any command before one of a chain, which ends with its chain (R57,
log 109). -/
def mayPass (q : Nat) (x y : InFlight) : Bool :=
  if q = 3 then cmdClass x.word == 4 && cmdClass y.word == 4
  else y.chain.isSome || (cmdUnits x.word).all (fun u => !(cmdUnits y.word).contains u)

/-- The oldest in-flight command of a ring index, if it may complete now (R103): on the vector and attention queues the only one; a
chain's commands wait for its commit; none while the SRAM is being cleared (R22). -/
def State.completable (s : State) (c q idx : Nat) : Option InFlight :=
  if s.fld SRAM_STAT.CLEARING c 0 = 1 then none
  else
    let l := (s.queue c q).inflight
    let before := l.takeWhile (fun x => x.index != idx)
    (l.find? (fun x => x.index == idx)).filter (fun x => x.ready && x.wait.isEmpty && x.chain.isNone && before.all (mayPass q x))

/-- The oldest in-flight command of an index leaves the queue. -/
def State.dropInflight (s : State) (c q idx : Nat) : State :=
  s.setQueue c q { s.queue c q with inflight := (s.queue c q).inflight.eraseP (fun x => x.index == idx) }

end Sys2Proof.Machine
end

