-- ==== Sys2Proof/Machine/Operands.lean ====
section
/-! DEFINITION. Operand forms: exact numbers and their rounding (R42, R43, R46), the element, scale and group formats
(R31-R41), and the operand records and slot words that name them (R109). -/

namespace Sys2Proof.Machine

/-! ## Exact numbers: what an element, a scale or an accumulator stands for -/

def Num.zero : Num := .fin false 0 0
def Num.one : Num := .fin false 1 0

def Num.isFinite : Num → Bool
  | .fin _ _ _ => true
  | _ => false

def Num.isNan : Num → Bool
  | .nan _ => true
  | _ => false

def Num.isZero : Num → Bool
  | .fin _ m _ => m == 0
  | _ => false

def Num.isNeg : Num → Bool
  | .nan n => n
  | .inf n => n
  | .fin n _ _ => n

def Num.neg : Num → Num
  | .nan n => .nan (!n)
  | .inf n => .inf (!n)
  | .fin n m e => .fin (!n) m e

def Num.abs : Num → Num
  | .nan _ => .nan false
  | .inf _ => .inf false
  | .fin _ m e => .fin false m e

/-- The exact product. -/
def Num.mul : Num → Num → Num
  | .nan _, _ => .nan false
  | _, .nan _ => .nan false
  | .inf a, .inf b => .inf (a != b)
  | .inf a, .fin b m _ => if m = 0 then .nan false else .inf (a != b)
  | .fin a m _, .inf b => if m = 0 then .nan false else .inf (a != b)
  | .fin a m e, .fin b n f => .fin (a != b) (m * n) (e + f)

/-- A signed mantissa at exponent `e0`, at most its own. -/
def scaledInt (neg : Bool) (m : Nat) (e e0 : Int) : Int :=
  let v : Int := (m * 2 ^ (e - e0).toNat : Nat)
  if neg then -v else v

/-- The exact sum; a sum of zeros is -0 only when both are, and an exact cancellation is +0 (R46). -/
def Num.add : Num → Num → Num
  | .nan _, _ => .nan false
  | _, .nan _ => .nan false
  | .inf a, .inf b => if a = b then .inf a else .nan false
  | .inf a, .fin _ _ _ => .inf a
  | .fin _ _ _, .inf b => .inf b
  | .fin a m e, .fin b n f =>
    let e0 := min e f
    let v := scaledInt a m e e0 + scaledInt b n f e0
    if v = 0 then .fin (a && b) 0 0 else .fin (decide (v < 0)) v.natAbs e0

def Num.sub (x y : Num) : Num := x.add y.neg

/-- The exact sum of a list. -/
def Num.sum (l : List Num) : Num := l.foldl Num.add Num.zero

/-- IEEE 754 less-than: false when either is NaN. -/
def Num.lt : Num → Num → Bool
  | .nan _, _ => false
  | _, .nan _ => false
  | .inf a, .inf b => a && !b
  | .inf a, .fin _ _ _ => a
  | .fin _ _ _, .inf b => !b
  | .fin a m e, .fin b n f => decide (scaledInt a m e (min e f) < scaledInt b n f (min e f))

/-- A power of two. -/
def Num.pow2 (e : Int) : Num := .fin false 1 e

/-- An integer. -/
def Num.ofInt (i : Int) : Num := .fin (decide (i < 0)) i.natAbs 0

/-! ## Rounding (R42) -/

/-- How a magnitude is rounded: to nearest even, upward, or stochastically by a 12-bit value. -/
inductive Rnd where
  | near
  | up
  | draw (r : Nat)
  deriving DecidableEq, Repr

/-- `m / 2^k` rounded to an integer. -/
def shiftRnd (md : Rnd) (m : Nat) (k : Int) : Nat :=
  if k ≤ 0 then m * 2 ^ (-k).toNat
  else
    let d := 2 ^ k.toNat
    match md with
    | .near =>
      let f := m / d
      let r := 2 * (m % d)
      if r < d then f else if d < r then f + 1 else f + f % 2
    | .up => (m + (d - 1)) / d
    | .draw r => (m * 4096 + r * d) / (d * 4096)

/-- The code of magnitude m * 2^e in a format of `mb` mantissa bits whose smallest step is 2^qmin, as if the exponent were
unbounded: codes rise with magnitudes. -/
def codeOf (mb : Nat) (qmin : Int) (md : Rnd) (m : Nat) (e : Int) : Nat :=
  if m = 0 then 0
  else
    let q := max ((m.log2 : Int) + e - mb) qmin
    (q - qmin).toNat * 2 ^ mb + shiftRnd md m (q - e)

/-- The magnitude a code stands for. -/
def magOf (mb : Nat) (qmin : Int) (neg : Bool) (c : Nat) : Num :=
  if c / 2 ^ mb = 0 then .fin neg c qmin else .fin neg (2 ^ mb + c % 2 ^ mb) (qmin + (c / 2 ^ mb : Nat) - 1)

/-- A floating-point layout: width, mantissa bits, exponent of the smallest step, largest finite magnitude code. -/
structure Fl where
  width : Nat
  mb    : Nat
  qmin  : Int
  top   : Nat
  deriving DecidableEq, Repr

def flE2m1 : Fl := ⟨4, 1, -1, 0x7⟩
def flE2m3 : Fl := ⟨6, 3, -3, 0x1F⟩
def flE3m2 : Fl := ⟨6, 2, -4, 0x1F⟩
def flE4m3 : Fl := ⟨8, 3, -9, 0x7E⟩
def flE5m2 : Fl := ⟨8, 2, -16, 0x7B⟩
def flBf16 : Fl := ⟨16, 7, -133, 0x7F7F⟩
def flFp16 : Fl := ⟨16, 10, -24, 0x7BFF⟩
def flFp32 : Fl := ⟨32, 23, -149, 0x7F7FFFFF⟩

/-- The sign bit of a layout. -/
def Fl.sign (f : Fl) (neg : Bool) : Nat := if neg then 2 ^ (f.width - 1) else 0

/-- An IEEE 754 layout decoded (BF16, FP16, FP32; R33). -/
def Fl.decode (f : Fl) (c : Nat) : Num :=
  let neg := c.testBit (f.width - 1)
  let mag := c % 2 ^ (f.width - 1)
  if mag = f.top + 1 then .inf neg else if f.top < mag then .nan neg else magOf f.mb f.qmin neg mag

/-- The canonical quiet NaN of a layout (R43). -/
def Fl.quiet (f : Fl) : Nat := f.top + 1 + 2 ^ (f.mb - 1)

/-- A number narrowed to an IEEE 754 layout (R42, R43): overflow gives an infinity, NaN the canonical quiet NaN. -/
def Fl.encode (f : Fl) (x : Num) (md : Rnd := .near) : Nat :=
  match x with
  | .nan _ => f.quiet
  | .inf n => f.sign n + (f.top + 1)
  | .fin n m e => f.sign n + min (f.top + 1) (codeOf f.mb f.qmin md m e)

def ofFp32 (w : Nat) : Num := flFp32.decode (w % 2 ^ 32)
def toFp32 (x : Num) : Nat := flFp32.encode x
def ofBf16 (w : Nat) : Num := flBf16.decode (w % 2 ^ 16)
def toBf16 (x : Num) : Nat := flBf16.encode x
/-- A magnitude rounded toward +infinity into BF16 (R79). -/
def toBf16Up (x : Num) : Nat := flBf16.encode x .up

/-- A number rounded once to FP32, as a number. -/
def rneFp32 (x : Num) : Num := ofFp32 (toFp32 x)

/-- INT8 of a number: nearest even, saturated; NaN becomes 0 (R43). -/
def toInt8 (x : Num) : Nat :=
  match x with
  | .nan _ => 0
  | .inf n => if n then 0x80 else 0x7F
  | .fin n m e =>
    let r := shiftRnd .near m (-e)
    if n then (256 - min 128 r) % 256 else min 127 r

/-! ## Formats (R31-R35) -/

/-- The formats in the order of their codes. -/
def Fmt.all : List Fmt :=
  [.bf16, .fp16, .fp32, .int8, .mxE4m3, .mxE5m2, .mxE3m2, .mxE2m3, .mxfp4, .mxint8, .ft4e4c, .ft4e4f, .ft4e8c, .ft4e8f]

/-- The format a code names; 0xE and 0xF are reserved. -/
def Fmt.ofCode (c : Nat) : Option Fmt := Fmt.all[c]?

def Fmt.isFt4 : Fmt → Bool
  | .ft4e4c | .ft4e4f | .ft4e8c | .ft4e8f => true
  | _ => false

def Fmt.isMx : Fmt → Bool
  | .mxE4m3 | .mxE5m2 | .mxE3m2 | .mxE2m3 | .mxfp4 | .mxint8 => true
  | _ => false

/-- The format has group scales. -/
def Fmt.scaled (f : Fmt) : Bool := f.isFt4 || f.isMx

/-- The group scale is a fine code times the tensor factor. -/
def Fmt.fine : Fmt → Bool
  | .ft4e4f | .ft4e8f => true
  | _ => false

/-- FT4-E8, which needs the B1 feature level (R32). -/
def Fmt.isE8 : Fmt → Bool
  | .ft4e8c | .ft4e8f => true
  | _ => false

/-- Escapes a group may hold (R32). -/
def Fmt.escapes (f : Fmt) : Nat := if f.isE8 then 8 else if f.isFt4 then 4 else 0

/-- Bits of an element. -/
def Fmt.bits : Fmt → Nat
  | .bf16 | .fp16 => 16
  | .fp32 => 32
  | .int8 | .mxE4m3 | .mxE5m2 | .mxint8 => 8
  | .mxE3m2 | .mxE2m3 => 6
  | _ => 4

/-- The floating-point layout of an element; the integer formats have none. -/
def Fmt.fl : Fmt → Option Fl
  | .bf16 => some flBf16 | .fp16 => some flFp16 | .fp32 => some flFp32
  | .mxE4m3 => some flE4m3 | .mxE5m2 => some flE5m2 | .mxE3m2 => some flE3m2 | .mxE2m3 => some flE2m3
  | .int8 | .mxint8 => none
  | _ => some flE2m1

/-- emax of R40: the exponent of the largest finite element. -/
def Fmt.emax : Fmt → Int
  | .mxE4m3 => 8 | .mxE5m2 => 15 | .mxE3m2 => 4 | .mxint8 => 0
  | _ => 2

/-- The largest finite element (R33). -/
def Fmt.maxfin (f : Fmt) : Num :=
  match f.fl with
  | some l => magOf l.mb l.qmin false l.top
  | none => .fin false 127 (if f = .int8 then 0 else -6)

/-- Group length of a group-size code (R31); formats without groups have none. -/
def groupLen (f : Fmt) (gs : Nat) : Nat := if f.isFt4 then 32 * 2 ^ gs else if f.isMx then 32 else 1

/-- An element code decoded without its scale (R33, R34). -/
def Fmt.elem (f : Fmt) (c : Nat) : Num :=
  match f with
  | .bf16 => flBf16.decode c
  | .fp16 => flFp16.decode c
  | .fp32 => flFp32.decode c
  | .int8 => Num.ofInt (signedOf 8 c)
  | .mxint8 => .fin (decide (signedOf 8 c < 0)) (signedOf 8 c).natAbs (-6)
  | .mxE4m3 => if c % 128 = 0x7F then .nan (c.testBit 7) else magOf 3 (-9) (c.testBit 7) (c % 128)
  | .mxE5m2 => flE5m2.decode c
  | .mxE3m2 => magOf 2 (-4) (c.testBit 5) (c % 32)
  | .mxE2m3 => magOf 3 (-3) (c.testBit 5) (c % 32)
  | _ => magOf 1 (-1) (c.testBit 3) (c % 8)

/-- The scale a group's code gives, a fine code taken as q alone (R35, R45). -/
def scaleCode (f : Fmt) (c : Nat) : Num :=
  if f.fine then (if c = 0x7F then .nan false else magOf 3 (-9) false (c % 128))
  else if c = 0xFF then .nan false else .pow2 ((c : Int) - 127)

/-- The group scale s with the tensor factor F (R35). -/
def groupScale (f : Fmt) (F : Num) (c : Nat) : Num := if f.fine then (scaleCode f c).mul F else scaleCode f c

/-- A tensor factor is a positive, finite, normal FP32 value (R35). -/
def factorOk (w : Nat) : Bool := decide (0x00800000 ≤ w) && decide (w ≤ 0x7F7FFFFF)

/-- Bits packed from the lowest byte up (R36). -/
def packCodes (w : Nat) (l : List Nat) : List Byte :=
  leBytes ((l.length * w + 7) / 8) (l.foldr (fun c acc => c % 2 ^ w + 2 ^ w * acc) 0)

/-- `n` elements of `w` bits read from packed bytes (R36). -/
def unpackCodes (w n : Nat) (bytes : List Byte) : List Nat :=
  let v := leNat bytes
  (List.range n).map (fun i => v / 2 ^ (w * i) % 2 ^ w)

/-! ## Forming scales and encoding groups (R39-R43) -/

/-- x / y for y > 0 as a dyadic with a sticky last bit: enough bits for any rounding of R42. -/
def divSticky (m : Nat) (e : Int) (n : Nat) (f : Int) : Nat × Int :=
  let k := 64 + n.log2
  let q := m * 2 ^ k / n
  (2 * q + (if m * 2 ^ k % n = 0 then 0 else 1), e - f - (k + 1 : Nat))

/-- The quotient of two finite magnitudes, rounded once to FP32 bits; a zero divisor gives an infinity. -/
def ratioFp32 (x y : Num) : Nat :=
  match x, y with
  | .fin _ m e, .fin _ n f =>
    if n = 0 then toFp32 (.inf false) else
      let d := divSticky m e n f
      toFp32 (.fin false d.1 d.2)
  | _, _ => toFp32 (.nan false)

/-- clamp to [-127, 127] and the E8M0 bias. -/
def e8m0 (e : Int) : Nat := (max (-127) (min 127 e) + 127).toNat

/-- The scale code formed from an amax: R40 for MX, R41 (ft4_scale) for FT4. NaN and infinite give the NaN code. -/
def formScale (f : Fmt) (F : Num) (amax : Num) : Nat :=
  match amax with
  | .fin _ m e =>
    if f.fine then
      match F.mul (.fin false 6 0) with
      | .fin _ n g =>
        if m = 0 ∨ n = 0 then 0 else
          let d := divSticky m e n g
          min 0x7E (codeOf 3 (-9) .up d.1 d.2)
      | _ => 0
    else if m = 0 then 0
    else if f.isFt4 then e8m0 ((m.log2 : Int) + e - (if 2 * m ≤ 3 * 2 ^ m.log2 then 2 else 1))
    else e8m0 ((m.log2 : Int) + e - f.emax)
  | _ => if f.fine then 0x7F else 0xFF

/-- A finite element coded under a scale: its code, and whether it overflows (R43). -/
def encElem (f : Fmt) (ovfInf : Bool) (md : Rnd) (scale : Num) (x : Num) : Nat × Bool :=
  match x, scale with
  | .fin neg m e, .fin _ n g =>
    if m = 0 then ((if neg && f != .mxint8 && !f.isFt4 then 2 ^ (f.bits - 1) else 0), false)
    else
      match f.fl with
      | none =>
        let d := divSticky m e n g
        let r := if n = 0 then 128 else shiftRnd .near d.1 (-(d.2 + 6))
        ((if neg then (256 - min 127 r) % 256 else min 127 r), decide (127 < r))
      | some l =>
        let d := divSticky m e n g
        let c := if n = 0 then l.top + 1 else codeOf l.mb l.qmin .near d.1 d.2
        let ovf := decide (l.top < c)
        let mag :=
          if ovf then (if ovfInf && f = .mxE5m2 then l.top + 1 else l.top)
          else match md with
            | .draw r => min l.top (codeOf l.mb l.qmin (.draw r) d.1 d.2)
            | _ => c
        ((if neg && !(f.isFt4 && mag == 0) then 2 ^ (f.bits - 1) + mag else mag), ovf)
  | _, _ => (0, false)

/-- The order of R39: descending magnitude, NaN above infinity above finite, ties by the lower index. -/
def magBefore (x y : Num) : Bool :=
  match x.abs, y.abs with
  | .nan _, .nan _ => false
  | .nan _, _ => true
  | _, .nan _ => false
  | a, b => b.lt a

/-- An index put where R39's order has it; equal magnitudes keep the lower index first. -/
def insertMag (xs : List Num) (i : Nat) : List Nat → List Nat
  | [] => [i]
  | j :: js => if magBefore (xs.getD i .zero) (xs.getD j .zero) then i :: j :: js else j :: insertMag xs i js

/-- The element indexes of a group in R39's order. -/
def sortMag (xs : List Num) : List Nat := (List.range xs.length).foldl (fun acc i => insertMag xs i acc) []

/-- An encoded group. -/
structure GroupEnc where
  codes  : List Nat
  /-- SCALE of the record. -/
  scale  : Nat
  /-- Escape values, BF16, in element order. -/
  escs   : List Nat
  isNan  : Bool
  clips  : Nat
  escOvf : Nat
  /-- Largest finite magnitude among elements not made escapes (R83). -/
  amax   : Num
  /-- maxfin * s (R83). -/
  cap    : Num
  deriving DecidableEq, Repr

/-- k of R39: how many of the sorted magnitudes become escapes under a just-in-time scale. -/
def jitEscapes (h : Nat) (aE : Num) : Nat → List Num → Nat
  | 0, _ => 0
  | _, [] => 0
  | n + 1, a :: as =>
    if !a.isZero && (!a.isFinite || (Num.mul (.fin false h 0) aE).lt a) then 1 + jitEscapes h aE n as else 0

/-- The largest finite magnitude of a list. -/
def largestFinite (l : List Num) : Num :=
  l.foldl (fun a x => if x.isFinite && a.lt x.abs then x.abs else a) .zero

/-- A group encoded (R39-R43): `cap` escapes at most, outlier ratio `h`, element `i` rounded by `md i`; elements beyond the
real ones are padding (R36). -/
def encodeGroup (f : Fmt) (F : Num) (h cap n : Nat) (ovfInf : Bool) (md : Nat → Rnd) (mode : ScaleMode)
    (xs : List Num) : GroupEnc :=
  let srt := sortMag xs
  let mags := srt.map (fun i => (xs.getD i .zero).abs)
  let six := Num.mul (.fin false 6 0)
  -- the escapes, as element indexes
  let escIdx : List Nat :=
    if !f.isFt4 then []
    else match mode with
      | .jit => srt.take (jitEscapes h (mags.getD cap .zero) cap mags)
      | .given a =>
        let s := groupScale f F (formScale f F a)
        (srt.filter (fun i => let x := (xs.getD i .zero).abs; !x.isFinite || (six s).lt x)).take cap
  let rest := (List.range xs.length).filter (fun i => !escIdx.contains i)
  let restVals := rest.map (fun i => xs.getD i .zero)
  let e5 := f = .mxE5m2
  let amaxJ : Num :=
    if f.isFt4 then ((srt.filter (fun i => !escIdx.contains i)).map (fun i => (xs.getD i .zero).abs)).headD .zero
    else if e5 then largestFinite xs
    else if xs.all Num.isFinite then largestFinite xs else .nan false
  let badRest := !e5 && !(restVals.all Num.isFinite)
  let nanCode := if f.fine then 0x7F else 0xFF
  let code0 := formScale f F (match mode with
    | .jit => amaxJ
    | .given a => a)
  let code := if badRest then nanCode else code0
  let s := groupScale f F code
  let isNan := s.isNan
  let s0 := groupScale f F code0
  let enc := fun i => encElem f ovfInf (md i) s (xs.getD i .zero)
  let ovf := rest.filter (fun i => (xs.getD i .zero).isFinite && (encElem f ovfInf .near s0 (xs.getD i .zero)).2)
  let given := match mode with
    | .given _ => true
    | .jit => false
  let escOvf := if f.isFt4 && given then ovf.length + (restVals.filter (fun x => !x.isFinite)).length else 0
  let codes := (List.range n).map (fun i =>
    if escIdx.contains i then 8
    else if isNan then 0
    else match xs[i]? with
      | none => 0
      | some (.fin _ _ _) => (enc i).1
      | some (.inf neg) => if e5 then (if neg then 0xFC else 0x7C) else 0
      | some (.nan neg) => if e5 then (if neg then 0xFF else 0x7F) else 0)
  { codes := codes, scale := code,
    escs := ((List.range n).filter (fun i => escIdx.contains i)).map (fun i => toBf16 (xs.getD i .zero)),
    isNan := isNan,
    clips := if f.isFt4 && given then escOvf else if isNan then 0 else ovf.length,
    escOvf := escOvf, amax := largestFinite restVals, cap := f.maxfin.mul s0 }

/-- A scale record (R36). -/
def scaleRecord (esc tag scale : Nat) : Nat := esc * 4096 + tag % 16 * 256 + scale % 256

/-! ## Operand records and slot words (R109) -/

/-- A record read from 128 bits. -/
def OpRec.ofBits (w : Nat) : OpRec :=
  { f := bitsOf w 127 96, esc := bitsOf w 88 66, scale := bitsOf w 65 43, data := bitsOf w 42 20, tag := bitsOf w 19 16,
    gs := bitsOf w 15 14, fmt := bitsOf w 13 10, rstride := bitsOf w 9 0, mbz := bitsOf w 95 89 == 0 }

/-- A slot word's fields. -/
structure SlotWord where
  en      : Bool
  delayed : Bool
  slot    : Nat
  pos     : Nat
  fmt     : Nat
  gs      : Nat
  mbz     : Bool
  deriving DecidableEq, Repr

def SlotWord.ofBits (w : Nat) : SlotWord :=
  { en := w.testBit 31, delayed := w.testBit 30, slot := bitsOf w 29 24, pos := bitsOf w 23 13, fmt := bitsOf w 12 9,
    gs := bitsOf w 8 7, mbz := bitsOf w 6 0 == 0 }

/-- Why a format code is refused: FMT_REFUSED's reason (R51). -/
def fmtReason (fmt gs : Nat) : Option Nat :=
  match Fmt.ofCode fmt with
  | none => some 0
  | some f => if gs = 3 ∨ (gs ≠ 0 ∧ !f.isFt4) then some 0 else none

/-- A named tensor factor is refused where a fine format needs it (R35). -/
def factorReason (fmt f : Nat) : Option Nat :=
  match Fmt.ofCode fmt with
  | some x => if x.fine && !factorOk f then some 2 else none
  | none => none

/-- Groups a row of R elements holds (R36). -/
def rowGroups (f : Fmt) (gs R : Nat) : Nat := (R + groupLen f gs - 1) / groupLen f gs

/-- Bytes of one group's data. -/
def groupBytes (f : Fmt) (gs : Nat) : Nat := groupLen f gs * f.bits / 8

/-- Bytes a row of R elements occupies with no gap. -/
def rowBytes (f : Fmt) (gs R : Nat) : Nat :=
  if f.scaled then rowGroups f gs R * groupBytes f gs else R * f.bits / 8

/-- The distance between row starts in the data stream (R109). -/
def OpRec.rowStep (r : OpRec) (f : Fmt) (R : Nat) : Nat :=
  if r.rstride = 0 then rowBytes f r.gs R else 64 * r.rstride

/-- The distance between row starts in scale records (R109). -/
def OpRec.recStep (r : OpRec) (f : Fmt) (R : Nat) : Nat :=
  if r.rstride = 0 then rowGroups f r.gs R else 64 * r.rstride / groupBytes f r.gs

/-- The rules of R36, R54 and R109 on a record's alignments and stride. -/
def OpRec.shapeOk (r : OpRec) (f : Fmt) : Bool :=
  r.mbz && r.data % 64 == 0 && (!f.scaled || r.scale % 64 == 0) && (!f.isFt4 || r.esc % 2 == 0) &&
  (!f.scaled || r.rstride == 0 || 64 * r.rstride % groupBytes f r.gs == 0) && (!f.isFt4 || r.rstride == 0)

/-- The streams of `rows` rows of R elements stay below `lim` (R54). -/
def OpRec.fits (r : OpRec) (f : Fmt) (rows R lim : Nat) : Bool :=
  decide (r.data + (rows - 1) * r.rowStep f R + rowBytes f r.gs R ≤ lim) &&
  (!f.scaled || decide (r.scale + 2 * ((rows - 1) * r.recStep f R + rowGroups f r.gs R) ≤ lim))

/-! ## Reading an operand (R36-R38) -/

/-- One decoded element: its value without the group scale, the scale (a fine code as q alone), or an escape's value. -/
structure Elem where
  val   : Num
  scale : Num := Num.one
  esc   : Bool := false
  deriving DecidableEq, Repr

/-- The element's value with the tensor factor F (R38); a NaN keeps its sign (R43). -/
def Elem.value (x : Elem) (F : Num) : Num :=
  match x.val with
  | .nan n => .nan n
  | v => if x.esc then v else (v.mul x.scale).mul F

/-- A scale record that fails the checks of R37: REASON (R91), the group, the tags and ESC. -/
structure Skew where
  reason : Nat
  group  : Nat
  expTag : Nat
  gotTag : Nat
  esc    : Nat
  deriving DecidableEq, Repr

/-- Why reading an operand ended. -/
inductive ReadFail where
  | status (st : Status)
  | skew (k : Skew)
  /-- A fine code with its sign bit set (R35). -/
  | negScale
  deriving DecidableEq, Repr

/-- What an operand read answers. -/
structure OpRead where
  st   : State
  fail : Option ReadFail
  rows : List (List Elem)

/-- A way to read bytes: a core's own SRAM or its slice. -/
abbrev Reader := State → Nat → Nat → Got

/-- The check of one group's record against its data (R37). -/
def skewOf (f : Fmt) (tagBase g recd : Nat) (codes : List Nat) : Option Skew :=
  let expTag := (tagBase + g) % 16
  let tag := bitsOf recd 11 8
  let esc := bitsOf recd 15 12
  let n := (codes.filter (· == 8)).length
  if tag ≠ expTag then some ⟨0, g, expTag, tag, esc⟩
  else if f.isFt4 then
    if esc ≠ n then some ⟨1, g, expTag, tag, esc⟩ else if f.escapes < esc then some ⟨2, g, expTag, tag, esc⟩ else none
  else if esc ≠ 0 then some ⟨3, g, expTag, tag, esc⟩ else none

/-- A group's codes decoded with its scale and escapes (R38). -/
def decodeGroup (f : Fmt) (scale : Num) : List Nat → List Nat → List Elem
  | [], _ => []
  | c :: cs, es =>
    if f.isFt4 && c == 8 then ⟨ofBf16 (es.headD 0), .one, true⟩ :: decodeGroup f scale cs (es.drop 1)
    else ⟨f.elem c, scale, false⟩ :: decodeGroup f scale cs es

/-- Groups of an operand read one after another: (data offset, record offset, real elements) each, `g` the group's index and
`ep` the escape stream's next entry. -/
def readGroups (rd : Reader) (f : Fmt) (gs tagBase : Nat) (s : State) (g ep : Nat) :
    List (Nat × Nat × Nat) → State × Option ReadFail × List (List Elem)
  | [] => (s, none, [])
  | (doff, roff, real) :: rest =>
    let d := rd s doff (groupBytes f gs)
    let r := rd d.st roff 2
    let codes := unpackCodes f.bits (groupLen f gs) d.data
    let recd := leNat r.data
    let e := rd r.st ep (2 * bitsOf recd 15 12)
    if d.status ≠ .ok then (d.st, some (.status d.status), [])
    else if r.status ≠ .ok then (r.st, some (.status r.status), [])
    else match skewOf f tagBase g recd codes with
      | some k => (r.st, some (.skew k), [])
      | none =>
        if f.fine && decide (128 ≤ recd % 256) then (r.st, some .negScale, [])
        else if f.isFt4 && e.status ≠ .ok then (e.st, some (.status e.status), [])
        else
          let st' := if f.isFt4 && bitsOf recd 15 12 != 0 then e.st else r.st
          let els := (decodeGroup f (scaleCode f (recd % 256)) codes (unpackCodes 16 (bitsOf recd 15 12) e.data)).take real
          let k := readGroups rd f gs tagBase st' (g + 1) (ep + 2 * bitsOf recd 15 12) rest
          (k.1, k.2.1, els :: k.2.2)

/-- Rows of an unscaled format read one after another: data offset of each. -/
def readPlain (rd : Reader) (f : Fmt) (R : Nat) (s : State) : List Nat → State × Option ReadFail × List (List Elem)
  | [] => (s, none, [])
  | off :: rest =>
    let d := rd s off (rowBytes f 0 R)
    if d.status ≠ .ok then (d.st, some (.status d.status), [])
    else
      let k := readPlain rd f R d.st rest
      (k.1, k.2.1, (unpackCodes f.bits R d.data).map (fun c => ⟨f.elem c, .one, false⟩) :: k.2.2)

/-- A list cut into pieces of `n`. -/
def chunks {α : Type} (n : Nat) : Nat → List α → List (List α)
  | 0, _ => []
  | k + 1, l => l.take n :: chunks n k (l.drop n)

/-- An operand of `rows` rows of R elements read, from row `first` on for the group index 0 (R36-R38). -/
def readOperand (rd : Reader) (s : State) (r : OpRec) (f : Fmt) (rows R : Nat) : OpRead :=
  if f.scaled then
    let G := rowGroups f r.gs R
    let n := groupLen f r.gs
    let gl := (List.range rows).flatMap (fun i => (List.range G).map (fun j =>
      (r.data + i * r.rowStep f R + j * groupBytes f r.gs, r.scale + 2 * (i * r.recStep f R + j), min n (R - j * n))))
    let k := readGroups rd f r.gs r.tag s 0 r.esc gl
    ⟨k.1, k.2.1, (chunks G rows k.2.2).map List.flatten⟩
  else
    let k := readPlain rd f R s ((List.range rows).map (fun i => r.data + i * r.rowStep f R))
    ⟨k.1, k.2.1, k.2.2⟩

/-- The core's own SRAM as a reader, for a requester of R20. -/
def sramReader (c who : Nat) : Reader := fun s off n => s.localRead c off n who

/-! ## Pairs and rate classes (R44, R53) -/

/-- The rate classes of R44. -/
inductive RateClass where
  | fp4 | fp8 | bf16 | int8
  deriving DecidableEq, Repr

/-- The class of an operand pair; other pairs are refused (R44). -/
def pairClass (a b : Fmt) : Option RateClass :=
  if a = .bf16 ∧ b = .bf16 then some .bf16
  else if a = .int8 ∧ b = .int8 then some .int8
  else if a.scaled && b.scaled then
    (if (a.isFt4 || a = .mxfp4) && (b.isFt4 || b = .mxfp4) then some .fp4 else some .fp8)
  else none

/-- K of a weight tile (R53). -/
def RateClass.tileK : RateClass → Nat
  | .fp4 => 256
  | _ => 128

end Sys2Proof.Machine
end

