-- ==== Sys2Proof/Machine/Guard.lean ====
section
/-! DEFINITION. The scale guard (05): tensor slots, guarded encodes with their measurements and statistics, step advances
and seeds; and the refusals of formats (R31, R35, R51). -/

namespace Sys2Proof.Machine

/-- The core's partition has the B1 feature level (R278). -/
def State.b1Level (s : State) (c : Nat) : Bool :=
  match s.ptOfSite (siteOf c) with
  | some p => decide (2 ≤ Tbl.at s.levels p 0)
  | none => false

/-- A refusal under R31 or R35: counted, and FMT_REFUSED (R51). -/
def State.fmtRefuse (s : State) (c q fmt gs reason : Nat) : State :=
  (s.addFld FMT_STAT.BAD_FMT c 0 1).raise .FMT_REFUSED (siteOf c) (coreNo c) [(1, q), (1, fmt), (1, gs), (1, reason)]

/-- GUARD_SLOT_REFUSED (R92). -/
def State.slotRefuse (s : State) (c slot reason : Nat) : State :=
  s.raise .GUARD_SLOT_REFUSED (siteOf c) (coreNo c) [(1, slot), (1, reason)]

/-- The refusals of R78: 0 disabled, 1 format, 2 position; the encode writes the format `fmt`, `gs`, which its slot word names
again. -/
def State.slotReason (s : State) (c : Nat) (w : SlotWord) (fmt gs groups : Nat) : Option Nat :=
  if s.fld GUARD_CFG.EN c w.slot = 0 then some 0
  else if s.fld GUARD_CFG.FMT c w.slot ≠ w.fmt ∨ s.fld GUARD_CFG.GS c w.slot ≠ w.gs ∨ fmt ≠ w.fmt ∨ gs ≠ w.gs then some 1
  else if s.fld GUARD_CFG.POS c w.slot + 1 < w.pos + groups then some 2
  else none

/-- H of R39 from CORE.QUANT_CTRL. -/
def State.outlierH (s : State) (c : Nat) : Nat := 2 * 2 ^ s.fld QUANT_CTRL.OUTLIER_H c 0

/-- D of R79 for P positions. -/
def guardD (p : Nat) : Nat := 64 * ((2 * p + 63) / 64)

/-- Replacement of breaching groups is on (R85). -/
def State.guardReplaces (s : State) (c : Nat) : Bool := s.fld GUARD_CTRL.REPLAY_EN c 0 == 1 && s.b1Level c

/-- The use of a slot captured at issue. -/
def State.slotUse (s : State) (c who : Nat) (w : SlotWord) (f : Fmt) (F : Num) : SlotUse :=
  { core := c, who := who, slot := w.slot, fmt := f, gs := w.gs, clipThr := s.fld GUARD_CFG.CLIP_THR c w.slot,
    headThr := s.fld GUARD_CFG.HEAD_THR c w.slot, base := s.fld GUARD_HIST.BASE c w.slot * 64,
    dOff := guardD (s.fld GUARD_CFG.POS c w.slot + 1), delayed := w.delayed, pos := w.pos, f := F, h := s.outlierH c,
    ovfInf := s.fld QUANT_CTRL.E5M2_OVF c 0 == 1, stats := s.fld GUARD_CTRL.STAT_EN c 0 == 1,
    replace := s.guardReplaces c }

/-- A group encoded for a slot: at most `cap` escapes. -/
def SlotUse.encode (u : SlotUse) (cap : Nat) (md : Nat → Rnd) (mode : ScaleMode) (xs : List Num) : GroupEnc :=
  encodeGroup u.fmt u.f u.h cap (groupLen u.fmt u.gs) u.ovfInf md mode xs

/-- The breach test of R83. -/
def SlotUse.breach (u : SlotUse) (e : GroupEnc) : Bool :=
  u.delayed && !e.isNan &&
  (decide (groupLen u.fmt u.gs < e.clips * 2 ^ u.clipThr) ||
   (u.headThr != 15 && !e.amax.isZero && (e.amax.mul (.pow2 u.headThr)).lt e.cap))

/-- d of R89, floor(log2(cap / amax)); none where cap or amax is 0. -/
def headroom (e : GroupEnc) : Option Int :=
  match e.cap, e.amax with
  | .fin _ m x, .fin _ n y =>
    if m = 0 ∨ n = 0 then none
    else
      let d := divSticky m x n y
      some ((d.1.log2 : Int) + d.2)
  | _, _ => none

/-- The exponent bin of a group (R89). -/
def binOf (e : GroupEnc) : Nat :=
  if e.amax.isZero then 7
  else match headroom e with
    | none => 0
    | some d => if d < 0 then 0 else if d ≤ 3 then d.toNat + 1 else if d ≤ 5 then 5 else if d ≤ 7 then 6 else 7

/-- Groups encoded with a NaN scale are counted, NAN_SCALE raised at each 256 (R40, R51); `slot` none: the encode names no
slot, and the record's byte is free. -/
def State.countNan (s : State) (c : Nat) (slot : Option Nat) (e : GroupEnc) : State :=
  if e.isNan then
    (s.draw).countPast256 FMT_STAT.NAN_GROUPS c 0 1 .NAN_SCALE (siteOf c) (coreNo c) [(1, slot.getD (s.freeVal % 256))]
  else s

/-- GUARD_SAT when SAT_COUNT reaches SAT_LIMIT, once until SAT_COUNT is read (R90). -/
def State.satReached (s : State) (u : SlotUse) : State :=
  if s.fld GUARD_CFG.SAT_LIMIT u.core u.slot ≤ s.fld GUARD_STAT.SAT_COUNT u.core (8 * u.slot) ∧
      (s.core u.core).satRaised.contains u.slot = false then
    (s.setCore u.core { s.core u.core with satRaised := u.slot :: (s.core u.core).satRaised }).raise .GUARD_SAT (siteOf u.core) (coreNo u.core)
      [(1, u.slot), (4, s.fld GUARD_STAT.CLIPS u.core (8 * u.slot + 2)), (8, s.fld GUARD_STAT.ELEMS u.core (8 * u.slot + 3))]
  else s

/-- The statistics of one group (R89, R90): `e1` its first encoding, `e` the one that reaches the result. -/
def State.guardCount (s : State) (u : SlotUse) (e1 e : GroupEnc) (elems : Nat) (breach replaced : Bool) : State :=
  if u.stats then
    let c := u.core
    let i := 8 * u.slot
    let s1 := if e1.isNan then s else s.addFld (GUARD_STAT.BIN (binOf e1)) c (i + 4 + binOf e1 / 2) 1
    let s2 := (((s1.addFld GUARD_STAT.ELEMS c (i + 3) elems).addFld GUARD_STAT.CLIPS c (i + 2) e.clips).addFld
      GUARD_STAT.ESC_OVF c (i + 2) e.escOvf).addFld GUARD_STAT.SAT_COUNT c i e.clips
    ((s2.addFld GUARD_STAT.BREACHES c (i + 1) (if breach then 1 else 0)).addFld GUARD_STAT.REPLACED c (i + 1)
      (if replaced then 1 else 0)).satReached u
  else s

/-- GUARD_FLAGGED (R92): the position, d of R89 (free where cap is 0) and the clips. -/
def State.guardFlag (s : State) (u : SlotUse) (p : Nat) (e : GroupEnc) : State :=
  (s.draw).raise .GUARD_FLAGGED (siteOf u.core) (coreNo u.core)
    [(1, u.slot), (2, p), (2, match headroom e with
      | some d => unsignedOf 16 d
      | none => s.freeVal % 2 ^ 16), (4, e.clips)]

/-- A guarded group: the state after it, its status, its first and final encodings with their scale choices, and whether it
breached and is replaced. -/
structure GuardGot where
  st       : State
  status   : Status
  first    : GroupEnc
  final    : GroupEnc
  /-- The scale choices of the first and of the final encoding. -/
  mode     : ScaleMode
  plan     : ScaleMode
  replaced : Bool

/-- One group of an encode that names a slot (R80-R85, R89), `g` its group number within the row. -/
def State.guardGroup (s : State) (u : SlotUse) (g cap : Nat) (md : Nat → Rnd) (xs : List Num) : GuardGot :=
  let p := u.pos + g
  let gd := s.localRead u.core (u.base + 2 * p) 2 u.who
  let s0 := if u.delayed then gd.st else s
  let mode := if u.delayed then ScaleMode.given (ofBf16 (leNat gd.data)).abs else .jit
  let e1 := u.encode cap md mode xs
  let gc := s0.localRead u.core (u.base + u.dOff + 2 * p) 2 u.who
  let breach := u.breach e1
  let replaced := breach && u.replace
  let e := if replaced then u.encode cap md .jit xs else e1
  if u.delayed = true ∧ gd.status ≠ .ok then ⟨s0, gd.status, e1, e1, mode, mode, false⟩
  else if gc.status ≠ .ok then ⟨gc.st, gc.status, e1, e1, mode, mode, false⟩
  else
    let s1 := if (ofBf16 (leNat gc.data)).lt e1.amax then
        (gc.st.localWrite u.core (u.base + u.dOff + 2 * p) (leBytes 2 (toBf16Up e1.amax)) u.who).st
      else gc.st
    let s2 := (s1.guardCount u e1 e xs.length breach replaced).countNan u.core (some u.slot) e
    let s3 := if breach && !replaced then s2.guardFlag u p e1 else s2
    ⟨s3, .ok, e1, e, mode, if replaced then .jit else mode, replaced⟩

/-- Guarded groups of a row one after another. -/
structure GuardRow where
  st     : State
  status : Status
  groups : List GuardGot

def State.guardGroups (s : State) (u : SlotUse) (cap : Nat) (md : Nat → Rnd) : Nat → List (List Num) → GuardRow
  | _, [] => ⟨s, .ok, []⟩
  | g, x :: xs =>
    let r := s.guardGroup u g cap md x
    if r.status ≠ .ok then ⟨r.st, r.status, []⟩
    else
      let k := State.guardGroups r.st u cap md (g + 1) xs
      ⟨k.st, k.status, r :: k.groups⟩

/-- A row cut into its groups: real elements only, the last group may be short (R36). -/
def groupsOf (n : Nat) : Nat → List Num → List (List Num)
  | 0, _ => []
  | _ + 1, [] => []
  | k + 1, x :: xs => (x :: xs).take n :: groupsOf n k ((x :: xs).drop n)

/-- Rows of an encode that names a slot; every row starts at POS_BASE (R78). -/
def State.guardRows (s : State) (u : SlotUse) : List (List Num) → State × Status × List (List GuardGot)
  | [] => (s, .ok, [])
  | r :: rs =>
    let k := s.guardGroups u u.fmt.escapes (fun _ => .near) 0 (groupsOf (groupLen u.fmt u.gs) r.length r)
    if k.status ≠ .ok then (k.st, k.status, [])
    else
      let m := State.guardRows k.st u rs
      (m.1, m.2.1, k.groups :: m.2.2)

/-- An encoded group as an operand's elements. -/
def GroupEnc.elems (f : Fmt) (real : Nat) (e : GroupEnc) : List Elem :=
  (decodeGroup f (scaleCode f e.scale) e.codes e.escs).take real

/-- Rows re-encoded by the scale choices of their groups, with no measurement (R84, R85). -/
def encodeByPlan (u : SlotUse) (plans : List (List ScaleMode)) (rows : List (List Num)) : List (List Elem) :=
  (rows.zip plans).map (fun rp =>
    ((groupsOf (groupLen u.fmt u.gs) rp.1.length rp.1).zip rp.2).flatMap (fun gm =>
      (u.encode u.fmt.escapes (fun _ => .near) gm.2 gm.1).elems u.fmt gm.1.length))

/-- A SCALE_SKEW abort counted and reported (R91, R92). -/
def State.skewAbort (s : State) (c q : Nat) (k : Skew) : State :=
  let s1 := s.addFld GUARD_SKEW.SKEW_COUNT c 0 1
  let s2 := ((((((s1.setFld GUARD_SKEW.EXP_TAG c 0 k.expTag).setFld GUARD_SKEW.GOT_TAG c 0 k.gotTag).setFld
    GUARD_SKEW.REASON c 0 k.reason).setFld GUARD_SKEW.QUEUE c 0 q).setFld GUARD_SKEW.ESC c 0 k.esc).setFld
    GUARD_SKEW.GROUP c 0 k.group)
  s2.raise .SCALE_SKEW_ABORT (siteOf c) (coreNo c) [(1, q), (4, k.group), (1, k.expTag), (1, k.gotTag), (1, k.reason)]

/-- A failed operand read reported: the state after it and the status its command completes with. -/
def State.readFailed (s : State) (c q fmt gs : Nat) : ReadFail → State × Status
  | .status st => (s, st)
  | .skew k => (s.skewAbort c q k, .scaleSkew)
  | .negScale => (s.fmtRefuse c q fmt gs 3, .badFormat)

/-! ## Step advances and seeds (R86, R87) -/

/-- An operation in flight names a slot (R86). -/
def State.slotInUse (s : State) (c slot : Nat) : Bool :=
  (s.core c).queues.any (fun e => e.2.inflight.any (fun x => x.slots.contains slot))

/-- The slot is free to be named by an operation that issues now (R86). -/
def State.slotFree (s : State) (c slot : Nat) : Bool := s.fld GUARD_CFG.BUSY c slot == 0

/-- A step advance or seed begins: BUSY is 1 until it ends. -/
def State.guardBegin (s : State) (c : Nat) (u : GuardUpd) : State :=
  (s.setCore c { s.core c with updates := (s.core c).updates ++ [u] }).setFld GUARD_CFG.BUSY c u.slot 1

/-- A step advance or seed of a slot with the configuration in force at its start (R88). -/
def State.guardUpd (s : State) (c slot : Nat) (seed : Bool) : GuardUpd :=
  { slot := slot, seed := seed, p := s.fld GUARD_CFG.POS c slot + 1, win := s.fld GUARD_CFG.WIN c slot + 1,
    base := s.fld GUARD_HIST.BASE c slot * 64 }

/-- SEED_GO (R87): ignored and counted as a STATE_CONFLICT while BUSY (the queue and opcode of SC_MANY are free then). -/
def State.seedGo (s : State) (c slot : Nat) : State :=
  if s.fld GUARD_CFG.BUSY c slot = 1 then (s.draw 2).countConflict c (s.freeVal % 4) (s.freeAt 1 % 256)
  else s.guardBegin c (s.guardUpd c slot true)

/-- The max of finite BF16 entries by value; none when every entry is NaN or infinite (R80). -/
def maxEntry (l : List Nat) : Option Nat :=
  (l.filter (fun b => (ofBf16 b).isFinite)).foldl (fun a b => match a with
    | none => some b
    | some x => if (ofBf16 x).lt (ofBf16 b) then some b else some x) none

/-- The entries of a window: ring entries HEAD, HEAD - 1, ... (W of them). -/
def windowEntries (head w : Nat) : List Nat := (List.range w).map (fun j => (head + 16 - j) % 16)

/-- Ring entries read one after another, up to the first that meets POISON. -/
def State.ringEntries (s : State) (c ring : Nat) : List Nat → State × Option (List Nat)
  | [] => (s, some [])
  | i :: is =>
    let g := s.localRead c (ring + 2 * i) 2 rqVector
    if g.status ≠ .ok then (g.st, none)
    else
      let r := State.ringEntries g.st c ring is
      (r.1, r.2.map (fun l => leNat g.data :: l))

/-- One position of a step advance (R80, R86): the current-step amax and the older entries of the window are read; false when a
read meets POISON. Its accesses, and a seed's, are made as the vector unit's (log 20: no rule names their requester). -/
def State.advancePos (s : State) (c slot base d head w p : Nat) : State × Bool :=
  let cur := s.localRead c (base + d + 2 * p) 2 rqVector
  let ring := base + 2 * d + 32 * p
  if cur.status ≠ .ok then (cur.st, false)
  else match cur.st.ringEntries c ring ((windowEntries head w).drop 1) with
  | (s', none) => (s', false)
  | (s', some l) =>
    let win := leNat cur.data :: l
    let s1 := (s'.localWrite c (ring + 2 * head) cur.data rqVector).st
    let s2 := (s1.localWrite c (base + d + 2 * p) (leBytes 2 0) rqVector).st
    let s3 := match maxEntry win with
      | some m => (s2.localWrite c (base + 2 * p) (leBytes 2 m) rqVector).st
      | none => s2
    (s3.addFld GUARD_STAT.NONFINITE_SKIP c (8 * slot) (win.filter (fun b => !(ofBf16 b).isFinite)).length, true)

/-- Positions of a step advance one after another, ending at the first POISON. -/
def State.advanceAll (s : State) (c slot base d head w : Nat) : List Nat → State × Bool
  | [] => (s, true)
  | p :: ps =>
    let r := s.advancePos c slot base d head w p
    if r.2 then State.advanceAll r.1 c slot base d head w ps else r

/-- The FP32 seed in force: a value not positive and finite seeds 1.0 (R87). -/
def seedBf16 (w : Nat) : Nat :=
  match ofFp32 w with
  | .fin false m e => if m = 0 then 0x3F80 else toBf16Up (.fin false m e)
  | _ => 0x3F80

/-- The bytes of a seeded area (R87): the padding of its arrays, whose value no rule gives, is free. -/
def seedArea (p d seed free : Nat) : List Byte :=
  let one := leBytes 2 seed
  (List.replicate p one).flatten ++ leBytes (d - 2 * p) free ++ List.replicate (2 * p) 0 ++
    leBytes (d - 2 * p) (free / 2 ^ 512) ++ (List.replicate (16 * p) one).flatten

/-- The end of a step advance or seed (R86, R87); a SLOT_ADV behind moves that run completes after them (R103). -/
def State.guardEnd (s : State) (c : Nat) (u : GuardUpd) : State :=
  let s0 := (s.setCore c { s.core c with updates := (s.core c).updates.filter (fun x => x.slot != u.slot) }).setFld
    GUARD_CFG.BUSY c u.slot 0
  let d := guardD u.p
  let head := s.fld GUARD_CFG.HEAD c u.slot
  if u.seed then
    ((s0.draw).localWrite c u.base (seedArea u.p d (seedBf16 (s.fld GUARD_SEED.SEED c 0)) s.freeVal) rqVector).st.setFld
      GUARD_CFG.HEAD c u.slot 0
  else
    let r := s0.advanceAll c u.slot u.base d head u.win (List.range u.p)
    let s1 := if r.2 then r.1.setFld GUARD_CFG.HEAD c u.slot ((head + 1) % 16) else r.1
    let st : Status := if r.2 then .ok else .poison
    let qu := s1.queue c u.queue
    let s2 := s1.setQueue c u.queue { qu with inflight := qu.inflight.map (fun x =>
      if x.index = u.index then { x with ready := true, status := st } else x) }
    match s2.completable c u.queue u.index with
    | some x => (s2.dropInflight c u.queue u.index).finish c u.queue u.index x.word st
    | none => s2

/-- The next value of the codec's generator (R42). -/
def srNext (x : Nat) : Nat :=
  let m := 2 ^ 32
  let a := x ^^^ (x * 2 ^ 13 % m)
  let b := a ^^^ (a / 2 ^ 17)
  b ^^^ (b * 2 ^ 5 % m)

/-! ## Commands -/

/-- The slot a SLOT_ADV names. -/
def slotAdvSlot (w : BitVec 128) : Nat := cmdBits w 37 32

/-- SLOT_ADV (R86, R107): issues once the slot is not busy, then waits for the operations in flight that name it. -/
def execSlotAdv (core q : Nat) (s : State) : Host.Outcome State Fault Refusal :=
  .next (s.issue core q 3 0 (fun f => s.slotFree core (slotAdvSlot f.word)) (fun f t =>
    (t.start core q { index := f.index, word := f.word, ready := false }).guardBegin core
      { t.guardUpd core (slotAdvSlot f.word) false with queue := q, index := f.index }))

/-- SEED_GO (R87). -/
def execSeedGo (core slot : Nat) (s : State) : Host.Outcome State Fault Refusal := .next (s.seedGo core slot)

/-- GUARD_UPDATE_DONE (R86, R87): the step advance or seed of a slot ends, once no operation in flight names it. -/
def execGuardUpdateDone (core slot : Nat) (s : State) : Host.Outcome State Fault Refusal :=
  .next (match (s.core core).updates.find? (fun u => u.slot == slot) with
    | some u => if s.slotInUse core slot then s else s.guardEnd core u
    | none => s)

end Sys2Proof.Machine
end

