-- ==== Sys2Proof/Machine/Rings.lean ====
section
/-! DEFINITION. What the module writes to the host: memory writes, MSI-X (R221, R222), completion entries (R212, R216) and
token rings (R217, R218); and the ends of sequences (R323). -/

namespace Sys2Proof.Machine

/-- A function's state. -/
def State.fn (s : State) (f : Nat) : Fn := Tbl.at s.fns f {}

/-- A function's state replaced. -/
def State.setFn (s : State) (f : Nat) (x : Fn) : State := { s with fns := Tbl.set s.fns f x }

/-- A partition's state. -/
def State.part (s : State) (p : Nat) : Part := Tbl.at s.parts p {}

/-- A partition's state replaced. -/
def State.setPart (s : State) (p : Nat) (x : Part) : State := { s with parts := Tbl.set s.parts p x }

/-- Something sent to the host. -/
def State.toHost (s : State) (o : HostOut) : State := { s with hostOut := s.hostOut ++ [o] }

/-- A vector sent, or pending while it is masked; none while MSI-X is disabled (R221; no pending bit is set then, log 113). -/
def State.msix (s : State) (f v : Nat) : State :=
  if !(s.fn f).cfg.msixEn then s
  else if (s.fn f).unmasked.contains v then s.toHost (.msix f v)
  else s.setFn f { s.fn f with msixPend := addOnce (s.fn f).msixPend v }

/-- Whether a queue or ring sends its vector at its `since`-th entry (R222). -/
def coalesced (cnt since : Nat) : Bool := decide (cnt ≤ 1) || decide (cnt ≤ since)

/-! ## Completion queues (R212, R216) -/

/-- The 128 bits of a completion entry without P (R212). -/
def cqEntry (detail : Nat) (st : Status) (cid sqid sqhd result : Nat) : Nat :=
  result % 2 ^ 64 + sqhd % 2 ^ 16 * 2 ^ 64 + sqid % 64 * 2 ^ 90 + cid % 2 ^ 16 * 2 ^ 96 + st.code * 2 ^ 112 +
    detail % 128 * 2 ^ 120

/-- The phase or lap bit of the pass in which the `n`-th entry since creation lies: 1 on the first. -/
def passBit (size n : Nat) : Nat := if n / size % 2 = 0 then 1 else 0

/-- A completion entry written, with its vector (R222). -/
def State.cqWrite (s : State) (f q : Nat) (c : Cq) (entry : Nat) : State :=
  let s1 := s.toHost (.mem f (c.base + 16 * (c.tail % c.size)) (leBytes 16 (entry + passBit c.size c.tail * 2 ^ 127)))
  let send := coalesced c.coalCnt (c.since + 1)
  let s2 := s1.setFn f { s1.fn f with
    cqs := Tbl.set (s1.fn f).cqs q { c with tail := c.tail + 1, since := if send then 0 else c.since + 1 } }
  if send then s2.msix f c.vector else s2

/-- A completion: written where an entry is free, else it waits for the host (R216). -/
def State.cqPut (s : State) (f q entry : Nat) : State :=
  match Tbl.find (s.fn f).cqs q with
  | none => s
  | some c =>
    if c.tail - c.head < c.size then s.cqWrite f q c entry
    else s.setFn f { s.fn f with cqs := Tbl.set (s.fn f).cqs q { c with wait := c.wait ++ [entry] } }

/-- Waiting completions written while entries are free. -/
def State.cqFlush (s : State) (f q : Nat) : Nat → State
  | 0 => s
  | n + 1 =>
    match Tbl.find (s.fn f).cqs q with
    | some c =>
      match c.wait with
      | e :: w =>
        if c.tail - c.head < c.size then State.cqFlush (s.cqWrite f q { c with wait := w } e) f q n else s
      | [] => s
    | none => s

/-! ## Token rings (R217, R218) -/

/-- The bits of a ring entry below bit 63 (R217). -/
def ringEntry (kind stream pos value : Nat) : Nat :=
  value % 2 ^ 24 + pos % 2 ^ 16 * 2 ^ 24 + stream % 2 ^ 16 * 2 ^ 40 + kind % 4 * 2 ^ 61

/-- A ring entry written to host memory, with its vector. -/
def State.ringWrite (s : State) (f r : Nat) (g : Ring) (entry : Nat) : State :=
  let s1 := s.toHost (.mem f (g.base + 8 * (g.tail % g.size)) (leBytes 8 (entry + passBit g.size g.tail * 2 ^ 63)))
  let send := coalesced g.coalCnt (g.since + 1)
  let s2 := s1.setFn f { s1.fn f with
    rings := Tbl.set (s1.fn f).rings r { g with tail := g.tail + 1, since := if send then 0 else g.since + 1 } }
  if send then s2.msix f g.vector else s2

/-- An entry of a ring: written, or held, TOKEN_RING_FULL once per episode, which the first held entry begins (R218, log 50). -/
def State.ringPut (s : State) (f r entry : Nat) : State :=
  match Tbl.find (s.fn f).rings r with
  | none => s
  | some g =>
    if !g.pull && decide (g.tail - g.head < g.size) && g.held.isEmpty then s.ringWrite f r g entry
    else
      let held := g.held ++ [entry]
      let extra := held.length - (if g.pull then g.size else 0)
      let full := decide (Config.ringHoldMax ≤ extra)
      let send := g.pull && coalesced g.coalCnt (g.since + 1)
      let g' : Ring := { g with
        held := held, full := g.full || full,
        since := if g.pull then (if send then 0 else g.since + 1) else g.since }
      let s1 := s.setFn f { s.fn f with rings := Tbl.set (s.fn f).rings r g' }
      let s2 := if extra = 1 then
          s1.raise .TOKEN_RING_FULL 72 uBrim [(1, f), (1, r), (4, extra)] { sub := f * 64 + r, fn := some f }
        else s1
      if send then s2.msix f g.vector else s2

/-- Held entries written while the ring has free ones (R218). -/
def State.ringFlush (s : State) (f r : Nat) : Nat → State
  | 0 => s
  | n + 1 =>
    match Tbl.find (s.fn f).rings r with
    | some g =>
      match g.held with
      | e :: h =>
        if !g.pull && decide (g.tail - g.head < g.size) then
          let g' : Ring := { g with held := h, full := g.full && decide (Config.ringHoldMax ≤ h.length) }
          State.ringFlush (s.ringWrite f r g' e) f r n
        else s
      | [] => s
    | none => s

/-! ## Ends of sequences (R217, R323) -/

/-- KIND codes of a ring entry. -/
def kindToken : Nat := 0
def kindEnd : Nat := 1
def kindLost : Nat := 2

/-- A token entry under end-to-end protection (R409): POS and VALUE are XORed with the first 40 bits of the AES block over
{0x01, STREAM, handle, full position}; the block's layout is little-endian (PRESUMED, log 14). -/
def State.protect (s : State) (q : Seq) (handle entry : Nat) : Nat :=
  match (s.fn q.fn).e2eKey with
  | some k =>
    let b := BitVec.ofNat 128 (1 + q.stream % 2 ^ 16 * 2 ^ 8 + handle % 2 ^ 32 * 2 ^ 24 + q.pos % 2 ^ 64 * 2 ^ 56)
    entry ^^^ ((Config.aesBlock k b).toNat % 2 ^ 40)
  | none => entry

/-- A live sequence ends with its last ring entry, and its handle is free. -/
def State.seqEnd (s : State) (p handle kind value : Nat) : State :=
  match Tbl.find (s.part p).seqs handle with
  | none => s
  | some q =>
    (s.setPart p { s.part p with seqs := Tbl.del (s.part p).seqs handle }).ringPut q.fn q.ring
      (s.protect q handle (ringEntry kind q.stream q.pos value))

/-- Sequences of a partition reported lost one after another. -/
def State.loseEach (s : State) (p : Nat) (st : Status) : List Nat → State
  | [] => s
  | h :: hs => State.loseEach (s.seqEnd p h kindLost st.code) p st hs

/-- Every live sequence of a partition is reported lost with a status, and SEQ_LOST (R323, R328). -/
def State.loseAll (s : State) (p : Nat) (st : Status) : State :=
  let hs := (s.part p).seqs.map (·.1)
  if hs = [] then s
  else (s.loseEach p st hs).raise .SEQ_LOST 72 uBrim [(4, hs.length), (1, st.code)] { sub := p, pt := some p }

end Sys2Proof.Machine
end

