-- ==== Sys2Proof/Machine/Fence.lean ====
section
/-! DEFINITION. Fences (R312-R315), partition and device states (R314, R316, R317) and the stops of fullers (R185). -/

namespace Sys2Proof.Machine

/-! ## Stops of fullers (R185) -/

/-- A fuller's state. -/
def State.ful (s : State) (c n : Nat) : Fuller := Tbl.at s.fullers (fulKey c n) {}

/-- A fuller's state replaced. -/
def State.setFul (s : State) (c n : Nat) (x : Fuller) : State := { s with fullers := Tbl.set s.fullers (fulKey c n) x }

/-- Values of CORE.FUL_STATn.STATE. -/
def fulStopped : Nat := 0
def fulRunning : Nat := 1
def fulGather : Nat := 2
def fulClaimed : Nat := 3
def fulOut : Nat := 4
def fulFenced : Nat := 5

/-- The FGO in flight that waits for a fuller loses it, with the fuller's status if none came before (R185). -/
def fgoStopped (n : Nat) (st : Status) (x : InFlight) : InFlight :=
  if x.wait.contains n then { x with wait := x.wait.filter (· != n), status := x.status.orElse st } else x

/-- A status code a fuller gives, as reported: an undefined one is ABORTED (R185). -/
def fulStatus (code : Nat) : Status :=
  if code = 0 then .ok
  else ([Status.retry, .aborted, .stateConflict, .badFormat, .noResource, .featureLevel, .integrity, .poison, .fenced,
    .scaleSkew, .auth, .memberLost].find? (fun s => s.code == code)).getD .aborted

/-- A running fuller stops with a status and trap cause (R185): the run ends, and FGO learns of it. -/
def State.fulStop (s : State) (c n : Nat) (st : Status) (cause : Nat) : State :=
  if s.fld FUL_STAT.STATE c n = fulRunning ∨ s.fld FUL_STAT.STATE c n = fulGather then
    let s1 := (((s.setFld FUL_STAT.STATE c n fulStopped).setFld FUL_STAT.LAST_STATUS c n st.code).setFld
      FUL_STAT.CAUSE c n cause).setFld FUL_STAT.PC c n ((s.ful c n).pc % 2 ^ 14)
    let s2 := s1.setFul c n { s1.ful c n with gr := none, hung := false }
    s2.setQueue c 3 { s2.queue c 3 with inflight := (s2.queue c 3).inflight.map (fgoStopped n st) }
  else s

/-- Fullers stopped one after another. -/
def State.fulStopAll (s : State) (c : Nat) (st : Status) : List Nat → State
  | [] => s
  | n :: ns => State.fulStopAll (s.fulStop c n st 0) c st ns

/-! ## Partitions (R314, R316) -/

/-- The image's entry of a partition. -/
def State.partCfg (s : State) (p : Nat) : Option PartCfg := s.image.parts.find? (fun x => x.pt == p)

/-- The tiles the image gives a partition. -/
def State.partTiles (s : State) (p : Nat) : List TileEntry :=
  match s.partCfg p with
  | some x => s.image.tiles.filter (fun t => x.tiles.testBit t.ltile)
  | none => []

/-- The partition the image gives a logical tile. -/
def State.partOfTile (s : State) (l : Nat) : Option Nat :=
  (s.image.parts.find? (fun x => x.tiles.testBit l)).map (·.pt)

/-- The partition of a site's tile in the image. -/
def State.partOfSite (s : State) (site : Nat) : Option Nat := (s.ltileOf site).bind s.partOfTile

/-- A tile of the image has a reason for DEG (R314). -/
def State.tileDeg (s : State) (t : TileEntry) : Bool :=
  s.fld RESET_STAT.TILE_CAUSE t.site 0 != 0 || s.fld RESET_STAT.MIL_HELD t.site 0 != 0 ||
  (maskBits 4 t.cores).any (fun n => s.fld (RESET_STAT.CORE_CAUSE n) t.site 0 != 0 ||
    s.lost.any (fun k => k / 16 == coreKey t.site n))

/-- DEG of a partition (R314). -/
def State.degNow (s : State) (p : Nat) : Bool := (s.partTiles p).any s.tileDeg

/-- PART_STATE (R328). -/
def State.partEvent (s : State) (p old new : Nat) (deg : Bool) : State :=
  s.raise .PART_STATE (72 + s.hb.active) uHatband [(1, old), (1, new), (1, if deg then 1 else 0)] { pt := some p }

/-- A partition's DEG brought up to date, its change reported. -/
def State.refreshPart (s : State) (p : Nat) : State :=
  let deg := s.degNow p
  if deg = (s.part p).deg then s
  else (s.setPart p { s.part p with deg := deg }).partEvent p (s.part p).state (s.part p).state deg

/-- DEG of the listed partitions brought up to date. -/
def State.refreshEach (s : State) : List Nat → State
  | [] => s
  | p :: ps => State.refreshEach (s.refreshPart p) ps

/-- DEG of every partition brought up to date. -/
def State.refreshDeg (s : State) : State := s.refreshEach (s.parts.map (·.1))

/-- The module drain ends once every partition is READY or FENCED (R317). -/
def State.settleDrain (s : State) : State :=
  { s with hb := { s.hb with drain := s.hb.drain && s.parts.any (fun x => x.2.state != 0 && x.2.state != 3) } }

/-- A partition's state changed (R316), reported. -/
def State.setPartState (s : State) (p new : Nat) : State :=
  if (s.part p).state = new then s
  else ((s.setPart p { s.part p with state := new }).partEvent p (s.part p).state new (s.part p).deg).settleDrain

/-- A DRAINING partition with no live sequence becomes READY (R316). -/
def State.drainSettle (s : State) (p : Nat) : State :=
  if (s.part p).state = 2 ∧ (s.part p).seqs = [] then s.setPartState p 0 else s

/-- The device state (R317), or the bring-up stage. -/
def State.devState (s : State) : Nat :=
  if s.hb.halted then 11
  else if s.hb.stage < 7 then s.hb.stage
  else if s.hb.drain then 10
  else if s.parts.any (fun x => x.2.deg) then 9
  else if s.parts.any (fun x => x.2.state == 1 || x.2.state == 2) then 8
  else 7

/-- READY# is driven low (R418): the device is READY, SERVING, DEGRADED or DRAINING. -/
def State.readyLow (s : State) : Bool := s.supply.on && decide (7 ≤ s.devState) && decide (s.devState ≤ 10)

/-- The site of a partition's queue owner. -/
def State.ownerSite (s : State) (p : Nat) : Option Nat := ((s.partCfg p).bind (fun x => s.tile x.owner)).map (·.site)

/-- The queue owner of a partition is fenced or held in reset (R216). -/
def State.ownerDown (s : State) (p : Nat) : Bool :=
  match s.ownerSite p with
  | some st => s.milFenced st || !(s.mil st).running
  | none => true

/-! ## Fencing (R312, R313) -/

/-- Fence causes of R312. -/
def causeHost : Nat := 1
def causeArray : Nat := 2
def causeMvPath : Nat := 3
def causeChannel : Nat := 4
def causePower : Nat := 5
def causeXing : Nat := 6
def causeUnreach : Nat := 7
def causeClock : Nat := 8
def causeReset : Nat := 9

/-- The cause a unit records when it is fenced again: a hardware cause stays (R315 keeps a hardware fence through resets), a
host or reset fence gives way (log 48). -/
def mergeCause (old new : Nat) : Nat := if old = 0 ∨ old = causeHost ∨ old = causeReset then new else old

/-- What a fenced core stops doing (R313, R117, R185): its queues enter FENCED, issued commands end, its fullers stop. -/
def State.coreStops (s : State) (c : Nat) : State :=
  let s1 := s.fenceQueues c
  let s2 := s1.fulStopAll c .aborted (List.range 34)
  s2.setCore c { s2.core c with chains := [], mv := none, updates := [] }

/-- UNIT_FENCED (R328). -/
def State.fencedEvent (s : State) (site mask cause : Nat) : State :=
  s.raise .UNIT_FENCED site uCommon [(1, mask), (1, cause)]

/-- A core is fenced with a cause (R312); a pass of an earlier test no longer counts. -/
def State.fenceCore (s : State) (c cause : Nat) : State :=
  let st := siteOf c
  let n := coreNo c
  let s1 := s.setFld (RESET_STAT.CORE_CAUSE n) st 0 (mergeCause (s.fld (RESET_STAT.CORE_CAUSE n) st 0) cause)
  let s2 := s1.setFld RESET_STAT.TEST_PASS st 0 (putBits (s1.fld RESET_STAT.TEST_PASS st 0) n n 0)
  ((s2.coreStops c).fencedEvent st (2 ^ n) cause).refreshDeg

/-- Cores stopped one after another. -/
def State.coresStop (s : State) : List Nat → State
  | [] => s
  | c :: cs => State.coresStop (s.coreStops c) cs

/-- Partitions whose queue owner sits on a site. -/
def State.ownedBy (s : State) (site : Nat) : List Nat := (s.parts.map (·.1)).filter (fun p => s.ownerSite p == some site)

/-- Sequences of the listed partitions reported lost. -/
def State.loseParts (s : State) (st : Status) : List Nat → State
  | [] => s
  | p :: ps => State.loseParts (s.loseAll p st) st ps

/-- A tile is fenced with a cause (R312); where it holds a queue owner, the partition's sequences are lost (R323). -/
def State.fenceTile (s : State) (site cause : Nat) : State :=
  let s1 := s.setFld RESET_STAT.TILE_CAUSE site 0 (mergeCause (s.fld RESET_STAT.TILE_CAUSE site 0) cause)
  let s2 : State := { s1.setFld RESET_STAT.TEST_PASS site 0 0 with tilePass := s1.tilePass.filter (· != site) }
  let s3 := (s2.coresStop ((List.range 4).map (coreKey site))).fencedEvent site 0xF cause
  (s3.loseParts .fenced (s3.ownedBy site)).refreshDeg

/-- Cores of a list fenced one after another. -/
def State.fenceCores (s : State) (cause : Nat) : List Nat → State
  | [] => s
  | c :: cs => State.fenceCores (s.fenceCore c cause) cause cs

end Sys2Proof.Machine
end

