-- ==== Sys2Proof/Machine/Matrix.lean ====
section
/-! DEFINITION. Matrix commands: descriptors and their refusals, chains and banks (R52-R60), accumulation (R45-R47), the
compares with replay, spare and fence (R61-R65), outer products (R66), element-wise work (R68) and adapters (R73, R74). -/

namespace Sys2Proof.Machine

/-! ## Checks that end in a status -/

/-- A check sequence: it goes on with a value, or the command completes with a status. -/
inductive Step (α : Type) where
  | stop (s : State) (st : Status)
  | go (s : State) (a : α)

/-- The next check, unless one has stopped. -/
def Step.next {α β : Type} (x : Step α) (f : State → α → Step β) : Step β :=
  match x with
  | .stop s st => .stop s st
  | .go s a => f s a

/-- A condition that must hold. -/
def State.need (s : State) (b : Bool) (st : Status) : Step Unit := if b then .go s () else .stop s st

/-- A format check (R31, R35): its reason is reported by FMT_REFUSED. -/
def State.needFmt (s : State) (c q fmt gs : Nat) (reason : Option Nat) : Step Unit :=
  match reason with
  | some r => .stop (s.fmtRefuse c q fmt gs r) .badFormat
  | none => .go s ()

/-- The first of two reasons. -/
def orReason (a b : Option Nat) : Option Nat := a.orElse (fun _ => b)

/-- Formats the arrays and the matrix-vector path take (R31). -/
def arrayFmt (f : Fmt) : Bool := f != .fp16 && f != .fp32

/-- The reason a record's format is refused by an array (R31, R35). -/
def arrayReason (fmt gs f : Nat) : Option Nat :=
  orReason (fmtReason fmt gs) (orReason (match Fmt.ofCode fmt with
    | some x => if arrayFmt x then none else some 0
    | none => some 0) (factorReason fmt f))

/-- A record's format after its checks. -/
def State.recFmt (s : State) (c q : Nat) (fmt gs f : Nat) : Step Fmt :=
  (s.needFmt c q fmt gs (arrayReason fmt gs f)).next (fun s _ => .go s ((Fmt.ofCode fmt).getD .bf16))

/-- FT4-E8 needs the B1 feature level (R32). -/
def State.needLevel (s : State) (c : Nat) (fs : List Fmt) : Step Unit :=
  s.need (!(fs.any Fmt.isE8) || s.b1Level c) .featureLevel

/-- The offset of a command's descriptor (R110, R113, R114). -/
def descOff (w : BitVec 128) : Nat := cmdBits w 127 111 * 64

/-- A command's descriptor of `n` bytes read at issue (R432). -/
def State.readDesc (s : State) (c : Nat) (w : BitVec 128) (n : Nat := 64) : Step Nat :=
  let g := s.localRead c (descOff w) n rqDma
  if g.status = .ok then .go g.st (leNat g.data) else .stop g.st g.status

/-- The slot a command's descriptor names, as the sequencer sees it before issue (R86). -/
def State.descSlot (s : State) (c : Nat) (w : BitVec 128) (lo : Nat) : Option Nat :=
  let sw := SlotWord.ofBits (leNat (memBytes s.mem (sramByte c (descOff w)) 64) / 2 ^ lo % 2 ^ 32)
  if sw.en then some sw.slot else none

/-- The slot a command names is not being updated (R86). -/
def State.slotReady (s : State) (c : Nat) (w : BitVec 128) (lo : Nat) : Bool :=
  match s.descSlot c w lo with
  | some n => s.slotFree c n
  | none => true

/-- R78 for an encode into a format that names a slot. -/
def State.needSlot (s : State) (c : Nat) (sw : SlotWord) (fmt gs groups : Nat) : Step Unit :=
  match s.slotReason c sw fmt gs groups with
  | some r => .stop (s.slotRefuse c sw.slot r) .badFormat
  | none => .go s ()

/-- Bytes of a core's SRAM. -/
def sramSize : Nat := 2 ^ 23

/-! ## Banks and gang modes (R56, R59, R60) -/

def bankEmpty : Nat := 0
def bankAccum : Nat := 1
def bankAborted : Nat := 2
def bankDraining : Nat := 3

def cmdGang (w : BitVec 128) : Nat := cmdBits w 97 96
def cmdBank (w : BitVec 128) : Nat := cmdBits w 94 93
def cmdArray (w : BitVec 128) : Nat := cmdBits w 92 91
def cmdAcc (w : BitVec 128) : Bool := cmdBits w 95 95 == 1

/-- The arrays whose banks accumulate in a mode (R59). -/
def gangBanks (gang array : Nat) : List Nat :=
  if gang = 0 then [array] else if gang = 1 then [0, 2] else if gang = 2 then [0, 1, 2, 3] else [0]

/-- The arrays a command on a whole array or gang uses. -/
def cmdArrays (w : BitVec 128) : List Nat := if cmdGang w = 0 then [cmdArray w] else [0, 1, 2, 3]

/-- The arrays of a mode (R59). -/
def gangArrays (gang array : Nat) : List Nat := if gang = 0 then [array] else [0, 1, 2, 3]

/-- The K share and the column share of an array in a mode (R59). -/
def gangKPart (gang j : Nat) : Nat := if gang = 1 then j % 2 else if gang = 3 then j else 0
def gangNPart (gang j : Nat) : Nat := if gang = 1 then j / 2 else if gang = 2 then j else 0

/-- The arrays whose partial sums meet in an accumulating array's bank (R59, R63). -/
def contributors (gang j : Nat) : List Nat := if gang = 1 then [j, j + 1] else if gang = 3 then [0, 1, 2, 3] else [j]

/-- Tiles of 128 columns and of K rows that a gang tile spans (R59). -/
def gangN (gang : Nat) : Nat := if gang = 1 then 2 else if gang = 2 then 4 else 1
def gangK (gang : Nat) : Nat := if gang = 1 then 2 else if gang = 3 then 4 else 1

/-- The state of a bank. -/
def State.bank (s : State) (c j b : Nat) : Nat := s.fld (ARRAY_BANK.STATE j b) c 0

/-- Banks of several arrays put in a state. -/
def State.setBanks (s : State) (c b st : Nat) : List Nat → State
  | [] => s
  | j :: js => State.setBanks (s.setFld (ARRAY_BANK.STATE j b) c 0 st) c b st js

/-- Every bank of the listed arrays is EMPTY. -/
def State.allEmpty (s : State) (c : Nat) (js : List Nat) : Bool :=
  js.all (fun j => (List.range 4).all (fun b => s.bank c j b == bankEmpty))

/-- R110 and R60: ARRAY is 0 in a gang, and the mode changes only with every bank EMPTY. -/
def State.needGang (s : State) (c : Nat) (w : BitVec 128) : Step Unit :=
  s.need (cmdGang w == s.fld ARRAY_CFG.GANG c 0 || s.allEmpty c [0, 1, 2, 3]) .stateConflict

/-- The mode a command names is in force. -/
def State.setGang (s : State) (c : Nat) (w : BitVec 128) : State := s.setFld ARRAY_CFG.GANG c 0 (cmdGang w)

/-- The compatibility bit of an array. -/
def State.compatBit (s : State) (c j : Nat) : Bool := (s.fld ARRAY_CFG.COMPAT c 0).testBit j

/-- Entering or leaving compatibility mode needs the array's banks EMPTY (R66). -/
def State.needCompat (s : State) (c : Nat) (js : List Nat) (on : Bool) : Step Unit :=
  s.need (js.all (fun j => s.compatBit c j == on || s.allEmpty c [j])) .stateConflict

/-- Arrays put in native or compatibility mode. -/
def State.setCompat (s : State) (c : Nat) (on : Bool) : List Nat → State
  | [] => s
  | j :: js => State.setCompat (s.setFld ARRAY_CFG.COMPAT c 0 (putBits (s.fld ARRAY_CFG.COMPAT c 0) j j (if on then 1 else 0))) c on js

/-- The physical array of a logical one (R52). -/
def State.physArray (s : State) (c j : Nat) : Nat := s.fld (ARRAY_MAP.PHYS j) c 0

/-! ## Accumulators (R45-R47) -/

/-- A cell of a bank: row and column of the gang's output. -/
def cellKey (row col : Nat) : Nat := row * 512 + col

/-- Terms added one at a time into an FP32 accumulator, in a free order (R47). -/
def sumTerms (acc : Nat) (terms : List Num) (code : Nat) : Nat :=
  (freeOrder terms code).foldl (fun a t => toFp32 ((ofFp32 a).add t)) acc

/-- The terms of a cell added into its accumulators. -/
def Acc.settle (a : Acc) (c1 c2 : Nat) : Acc :=
  { a with main := sumTerms a.main a.mTerm c1, esc := sumTerms a.esc a.eTerm c2, mTerm := [], eTerm := [] }

/-- The decoded output a cell stands for: F * main + esc, exactly. -/
def Acc.out (a : Acc) (int : Bool) (f : Nat) : Num :=
  if int then .ofInt a.int else ((ofFp32 f).mul (ofFp32 a.main)).add (ofFp32 a.esc)

/-- The drained FP32 value (R45), or the integer of an INT8 pair (R55). -/
def Acc.result (a : Acc) (int : Bool) (f : Nat) : Num :=
  if int then .ofInt a.int else rneFp32 ((rneFp32 ((ofFp32 f).mul (ofFp32 a.main))).add (ofFp32 a.esc))

/-- Narrowing to the output formats 0 FP32, 1 BF16, 2 FP16 (R42, R43). -/
def outBits (ofmt : Nat) (x : Num) : Nat :=
  if ofmt = 0 then toFp32 x else if ofmt = 1 then toBf16 x else flFp16.encode x

/-- Bytes of an output element. -/
def outSize (ofmt : Nat) : Nat := if ofmt = 0 then 4 else 2

/-- INT32 saturation (R46). -/
def satInt32 (i : Int) : Int := max (-2147483648) (min 2147483647 i)

/-- One pair unit of a row and a column (R45): the scaled sum of the products without escapes, and the escape products. -/
def unitTerms (fw fx : Num) (ps : List (Elem × Elem)) : List Num × List Num :=
  let plain := ps.filter (fun p => !(p.1.esc || p.2.esc))
  let escs := (ps.filter (fun p => p.1.esc || p.2.esc)).map (fun p => rneFp32 ((p.1.value fw).mul (p.2.value fx)))
  match plain with
  | [] => ([], escs)
  | p :: _ => ([((Num.sum (plain.map (fun x => x.1.val.mul x.2.val))).mul p.1.scale).mul p.2.scale], escs)

/-- A list cut into units of `u`. -/
def units {α : Type} (u : Nat) : Nat → List α → List (List α)
  | 0, _ => []
  | _ + 1, [] => []
  | k + 1, x :: xs => (x :: xs).take u :: units u k ((x :: xs).drop u)

/-- The products of one weight tile for one output added to its cell: unit sums of length `u` for FP32, one exact sum with
saturation for INT32 (R45, R46). -/
def Acc.tile (a : Acc) (int : Bool) (u : Nat) (fw fx : Num) (ps : List (Elem × Elem)) : Acc :=
  if int then
    let d : Int := match Num.sum (ps.map (fun p => (p.1.value fw).mul (p.2.value fx))) with
      | .fin neg m e => scaledInt neg m e 0
      | _ => 0
    let v := satInt32 (a.int + d)
    { a with int := v, sat := a.sat || decide (v ≠ a.int + d) }
  else
    let ts := (units u ps.length ps).map (unitTerms fw fx)
    { a with mTerm := a.mTerm ++ (ts.map (·.1)).flatten, eTerm := a.eTerm ++ (ts.map (·.2)).flatten }

/-- The cells an MMA's tiles are added to: (row, column, tile). -/
def mmaSites (rows cols kt : Nat) : List (Nat × Nat × Nat) :=
  (List.range kt).flatMap (fun k => (List.range rows).flatMap (fun i => (List.range cols).map (fun n => (i, n, k))))

/-- The span of a pair unit: the smaller group (R45); 1 without groups. -/
def unitLen (wf xf : Fmt) (wgs xgs : Nat) : Nat := min (groupLen wf wgs) (groupLen xf xgs)

/-- INT32 saturations and the column of the last (R46, R51). -/
structure SatCount where
  n   : Nat := 0
  col : Nat := 0

/-- Tile products added cell by cell: `ps` gives the operand pairs of (row, column, tile). -/
def addTiles (int : Bool) (u : Nat) (fw fx : Num) (ps : Nat → Nat → Nat → List (Elem × Elem)) (cells : Tbl Acc) (sc : SatCount) :
    List (Nat × Nat × Nat) → Tbl Acc × SatCount
  | [] => (cells, sc)
  | (i, n, k) :: rest =>
    let a := Tbl.at cells (cellKey i n) {}
    let b := a.tile int u fw fx (ps i n k)
    let hit := int && decide (b.int ≠ a.int + (match Num.sum ((ps i n k).map (fun p => p.1.val.mul p.2.val)) with
      | .fin neg m e => scaledInt neg m e 0
      | _ => 0))
    addTiles int u fw fx ps (Tbl.set cells (cellKey i n) b) (if hit then ⟨sc.n + 1, n⟩ else sc) rest

/-- Row `i` of a list of rows from element `lo`, `n` elements. -/
def rowSlice (rows : List (List Elem)) (i lo n : Nat) : List Elem := ((rows.getD i []).drop lo).take n

/-! ## Check cells (R61) -/

/-- Terms added one at a time in a free order, each addition rounded to FP32; INT8 exactly (R61, R62, log 37). -/
def laneSum (int : Bool) (acc : Num) (terms : List Num) (code : Nat) : Num :=
  if int then terms.foldl Num.add acc else (freeOrder terms code).foldl (fun a t => rneFp32 (a.add t)) acc

/-- The key of a check cell: the array, and a row or (2^15 + n) a column of its 128. -/
def laneKey (array line : Nat) : Nat := array * 2 ^ 16 + line

/-- Terms that wait at a check cell. -/
def laneTerms (lanes : Tbl Lane) (k : Nat) (cs bs : List Num) : Tbl Lane :=
  let l := Tbl.at lanes k {}
  Tbl.set lanes k { l with cTerm := l.cTerm ++ cs, bTerm := l.bTerm ++ bs }

/-- The decoded values of a share of a tile passing one array: its rows (row, values along K) and its columns of weights. The
vectors w_c and a_c and the sums of the activation rows are formed in FP32; rows meet the former, columns the latter (R61). -/
def laneTile (free : Nat → Nat) (int : Bool) (array : Nat) (rows : List (Nat × List Num)) (cols : List (List Num))
    (lanes : Tbl Lane) : Tbl Lane :=
  let ks := List.range ((cols.map List.length).foldl max 0)
  let sumAt := fun (vs : List (List Num)) (f : Num → Num) (o : Nat) =>
    ks.map (fun k => laneSum int .zero (vs.map (fun v => f (v.getD k .zero))) (free (4 * k + o)))
  let wc := sumAt cols id 0
  let ac := sumAt cols Num.abs 1
  let xs := sumAt (rows.map (·.2)) id 2
  let xm := sumAt (rows.map (·.2)) Num.abs 3
  let mul := fun (a b : List Num) => (a.zip b).map (fun p => p.1.mul p.2)
  let l1 := rows.foldl (fun t r => laneTerms t (laneKey array r.1) (mul r.2 wc) (mul (r.2.map Num.abs) ac)) lanes
  ((List.range cols.length).zip cols).foldl
    (fun t n => laneTerms t (laneKey array (2 ^ 15 + n.1)) (mul xs n.2) (mul xm (n.2.map Num.abs))) l1

/-- Shares of tiles passing their arrays one after another: (array, rows, columns), each with its free values from `base`. -/
def laneTiles (free : Nat → Nat) (int : Bool) (span : Nat) (lanes : Tbl Lane) :
    Nat → List (Nat × List (Nat × List Num) × List (List Num)) → Tbl Lane
  | _, [] => lanes
  | base, (j, rows, cols) :: rest =>
    laneTiles free int span (laneTile (fun i => free (base + i)) int j rows cols lanes) (base + span) rest

/-- INT_SAT counted, INT_SATURATED at each 256 (R46, R51). -/
def State.countSat (s : State) (c : Nat) (k : SatCount) : State :=
  if k.n = 0 then s else s.countPast256 FMT_STAT.INT_SAT c 0 k.n .INT_SATURATED (siteOf c) (coreNo c) [(2, k.col)]

/-! ## MMA operands -/

/-- The F factor of an operand: its own for a fine format, 1 otherwise. -/
def factorOf (f : Fmt) (bits : Nat) : Num := if f.fine then ofFp32 bits else Num.one

/-- The activation rows of an MMA or MVM: read in their format, or quantised on load by the given choices (R81, R82). -/
def State.readX (s : State) (c who : Nat) (x : OpRec) (src : Fmt) (use : Option SlotUse) (plans : List (List ScaleMode))
    (rows R : Nat) : OpRead :=
  let r := readOperand (sramReader c who) s x src rows R
  match use with
  | none => r
  | some u => { r with rows := encodeByPlan u plans (r.rows.map (fun l => l.map (fun e => e.val))) }

/-- The two operands of an MMA. -/
structure PairRead where
  st   : State
  fail : Option ReadFail
  w    : List (List Elem)
  x    : List (List Elem)
  /-- The operand that failed is the second one. -/
  second : Bool := false

/-- Both operands of an MMA read, the activations by the given scale choices. -/
def State.readMma (s : State) (c : Nat) (o : MmaOp) (plans : List (List ScaleMode)) : PairRead :=
  let tk := (match pairClass o.wf o.xf with
    | some cl => cl.tileK
    | none => 128) * gangK o.gang
  let wr := readOperand (sramReader c rqArray) s o.w o.wf (o.kt * (128 * gangN o.gang)) tk
  match wr.fail with
  | some f => { st := wr.st, fail := some f, w := [], x := [] }
  | none =>
    let xr := wr.st.readX c rqArray o.x o.src o.use plans o.rows (o.kt * tk)
    { st := xr.st, fail := xr.fail, w := wr.rows, x := xr.rows, second := true }

/-- An MMA's products added to a bank's cells (R45). -/
def mmaAdd (o : MmaOp) (w x : List (List Elem)) (cells : Tbl Acc) : Tbl Acc × SatCount :=
  let tk := (match pairClass o.wf o.xf with
    | some cl => cl.tileK
    | none => 128) * gangK o.gang
  let cols := 128 * gangN o.gang
  addTiles (o.wf == .int8) (unitLen o.wf o.xf o.w.gs (match o.use with
      | some u => u.gs
      | none => o.x.gs))
    (factorOf o.wf o.w.f) (factorOf o.xf o.x.f)
    (fun i n k => (rowSlice w (k * cols + n) 0 tk).zip (rowSlice x i (k * tk) tk)) cells {} (mmaSites o.rows cols o.kt)

/-- The pairs of K share `p` and column share `q` of tile `t` of an MMA: the activation's and the weights' elements. -/
def mmaShare (o : MmaOp) (w x : List (List Elem)) (t j : Nat) : List (Nat × List Elem) × List (List Elem) :=
  let T := match pairClass o.wf o.xf with
    | some cl => cl.tileK
    | none => 128
  let lo := gangKPart o.gang j * T
  ((List.range o.rows).map (fun i => (i, rowSlice x i (t * (T * gangK o.gang) + lo) T)),
   (List.range 128).map (fun n => rowSlice w (t * (128 * gangN o.gang) + 128 * gangNPart o.gang j + n) lo T))

/-- The shares of an MMA that pass each array's check cells (R61). -/
def mmaLanes (o : MmaOp) (array : Nat) (w x : List (List Elem)) : List (Nat × List (Nat × List Num) × List (List Num)) :=
  (List.range o.kt).flatMap (fun t => (gangArrays o.gang array).map (fun j =>
    let s := mmaShare o w x t j
    (j, s.1.map (fun r => (r.1, r.2.map (fun e => e.value (factorOf o.xf o.x.f)))),
      s.2.map (fun c => c.map (fun e => e.value (factorOf o.wf o.w.f))))))

/-- Each array's own partial sums where they meet others' (R63): rows are numbered 256 j + i. -/
def mmaParts (o : MmaOp) (w x : List (List Elem)) (parts : Tbl Acc) : Tbl Acc :=
  if o.gang = 1 ∨ o.gang = 3 then
    (addTiles (o.wf == .int8) (unitLen o.wf o.xf o.w.gs (match o.use with
        | some u => u.gs
        | none => o.x.gs))
      (factorOf o.wf o.w.f) (factorOf o.xf o.x.f)
      (fun ji n t => let s := mmaShare o w x t (ji / 256); (s.2.getD n []).zip ((s.1.getD (ji % 256) (0, [])).2)) parts {}
      ((List.range o.kt).flatMap (fun t => [0, 1, 2, 3].flatMap (fun j => (List.range o.rows).flatMap (fun i =>
        (List.range 128).map (fun n => (256 * j + i, n, t))))))).1
  else parts

/-! ## Outer products (R66, R67) -/

/-- An OPX's stream as 64 lanes of `steps` elements: ungrouped streams hold one vector of 64 a step, MX streams one lane after
another (R36, R67). -/
def State.readLanes (s : State) (c : Nat) (r : OpRec) (f : Fmt) (steps : Nat) : OpRead :=
  if f.scaled then readOperand (sramReader c rqArray) s r f 64 steps
  else
    let k := readOperand (sramReader c rqArray) s r f steps 64
    { k with rows := (List.range 64).map (fun j => k.rows.map (fun row => row.getD j ⟨.zero, .one, false⟩)) }

def State.readOpx (s : State) (c : Nat) (o : OpxOp) : PairRead :=
  let u := s.readLanes c o.u o.uf o.steps
  match u.fail with
  | some f => { st := u.st, fail := some f, w := [], x := [] }
  | none =>
    let v := u.st.readLanes c o.v o.vf o.steps
    { st := v.st, fail := v.fail, w := u.rows, x := v.rows, second := true }

/-- An OPX's products added to a bank's cells: INT8 adds each step with saturation (R46). -/
def opxAdd (o : OpxOp) (u v : List (List Elem)) (cells : Tbl Acc) : Tbl Acc × SatCount :=
  let int := o.uf == .int8
  let span := if int then 1 else o.steps
  addTiles int (unitLen o.uf o.vf 0 0) .one .one
    (fun i n k => (rowSlice u i (k * span) span).zip (rowSlice v n (k * span) span)) cells {}
    (mmaSites 64 64 (o.steps / span))

/-- The streams of an OPX as they pass an array's check cells: Σ_j V and Σ_i U at each step (R66). -/
def opxLanes (array : Nat) (u v : List (List Elem)) : List (Nat × List (Nat × List Num) × List (List Num)) :=
  let vals := fun (l : List (List Elem)) => l.map (fun r => r.map (fun e => e.value .one))
  [(array, (List.range u.length).zip (vals u), vals v)]

/-! ## Adapter slots (R73, R74) -/

/-- A slot-list entry (R74). -/
structure AdEntry where
  aBase : Nat
  aFmt : Nat
  aGs : Nat
  bBase : Nat
  bFmt : Nat
  bGs : Nat
  rank : Nat
  tagA : Nat
  tagB : Nat
  id : Nat
  alpha : Nat
  aScale : Nat
  bScale : Nat
  aEsc : Nat
  bEsc : Nat
  mbz : Bool
  deriving DecidableEq, Repr

/-- An entry read from its 256 bits. -/
def AdEntry.ofBits (w : Nat) : AdEntry :=
  { aBase := bitsOf w 22 0, aFmt := bitsOf w 27 24, aGs := bitsOf w 29 28, bBase := bitsOf w 54 32, bFmt := bitsOf w 59 56,
    bGs := bitsOf w 61 60, rank := bitsOf w 70 64, tagA := bitsOf w 75 72, tagB := bitsOf w 79 76, id := bitsOf w 91 80,
    alpha := bitsOf w 127 96, aScale := bitsOf w 150 128, bScale := bitsOf w 182 160, aEsc := bitsOf w 214 192,
    bEsc := bitsOf w 246 224,
    mbz := bitsOf w 23 23 == 0 && bitsOf w 31 30 == 0 && bitsOf w 55 55 == 0 && bitsOf w 63 62 == 0 && bitsOf w 71 71 == 0 &&
      bitsOf w 95 92 == 0 && bitsOf w 159 151 == 0 && bitsOf w 191 183 == 0 && bitsOf w 223 215 == 0 && bitsOf w 255 247 == 0 }

def AdEntry.recA (e : AdEntry) : OpRec := ⟨0, e.aEsc, e.aScale, e.aBase, e.tagA, e.aGs, e.aFmt, 0, true⟩
def AdEntry.recB (e : AdEntry) : OpRec := ⟨0, e.bEsc, e.bScale, e.bBase, e.tagB, e.bGs, e.bFmt, 0, true⟩

/-- The format h takes for a B format (R73): BF16 for BF16, MXFP8 E4M3 for a scaled B. -/
def hFmt (b : Fmt) : Option Fmt := if b = .bf16 then some .bf16 else if b.scaled then some .mxE4m3 else none

/-- A named format an entry may use: no reserved code, no fine FT4, a legal group size, the level (R74, R32). -/
def adFmtOk (fmt gs : Nat) : Option Fmt :=
  match Fmt.ofCode fmt with
  | some f => if fmtReason fmt gs = none ∧ arrayFmt f ∧ !f.fine then some f else none
  | none => none

/-- An entry is good for a command whose left operand is `x` (SEG_DOWN: x with A; SEG_UP: none, h with B) (R74).
A base that is not 64-byte aligned breaks R54 (BAD_FORMAT, no bad entry); a scale address that is not is read as it stands:
the model's choices (log 124). -/
def AdEntry.ok (e : AdEntry) (x : Option Fmt) : Bool :=
  e.mbz && decide (1 ≤ e.rank) && decide (e.rank ≤ 64) &&
  (match adFmtOk e.aFmt e.aGs, adFmtOk e.bFmt e.bGs with
   | some a, some b =>
     (match x with
      | some f => (pairClass f a).isSome
      | none => true) &&
     (match hFmt b with
      | some h => (pairClass h b).isSome
      | none => false)
   | _, _ => false)

/-- The padded rank (R73). -/
def padRank (r : Nat) : Nat := if r ≤ 32 then 32 else 64

/-- Row pitches of h: its data bytes, its record slots, and the records a row holds (the largest slot of the list; log 28). -/
structure HPitch where
  bytes : Nat
  recs  : Nat
  grps  : Nat

def hPitch (h : OpRec) (es : List AdEntry) : HPitch :=
  let bytes := (es.map (fun e => if e.bFmt = 0 then 2 * padRank e.rank else padRank e.rank)).foldl max 0
  let grps := (es.map (fun e => padRank e.rank / 32)).foldl max 0
  if h.rstride = 0 then ⟨bytes, grps, grps⟩ else ⟨64 * h.rstride, 2 * h.rstride, grps⟩

/-- ADAPTER_SLOT_BAD (R77): the slot or row, ADAPTER_ID and a reason whose code no rule gives (free). With a bad
row index, where no entry is named, ADAPTER_ID is 0: the model's choice (log 124). -/
def State.adapterBad (s : State) (c slotOrRow id : Nat) : State :=
  (s.draw).raise .ADAPTER_SLOT_BAD (siteOf c) (coreNo c) [(1, slotOrRow), (2, id), (1, s.freeVal % 256)]

/-- The slot list and the row indexes of a command, checked (R74). -/
def State.readAdapters (s : State) (c list idx slots rows : Nat) (x : Option Fmt) : Step (List AdEntry × List Nat) :=
  let l := s.localRead c list (32 * slots) rqArray
  if l.status ≠ .ok then .stop l.st l.status
  else
    let es := (List.range slots).map (fun i => AdEntry.ofBits (leNat ((l.data.drop (32 * i)).take 32)))
    let v := l.st.localRead c idx rows rqArray
    if v.status ≠ .ok then .stop v.st v.status
    else
      let ix := v.data.map (·.toNat)
      match (List.range slots).find? (fun i => !((es[i]?).all (fun e => e.ok x))) with
      | some i => .stop (v.st.adapterBad c i (((es[i]?).map (·.id)).getD 0)) .badFormat
      | none =>
        match (List.range rows).find? (fun r => let k := ix.getD r 0xFF; k != 0xFF && decide (slots ≤ k)) with
        | some r => .stop (v.st.adapterBad c r 0) .badFormat
        | none =>
          if es.any (fun e => (Fmt.ofCode e.aFmt).any Fmt.isE8 || (Fmt.ofCode e.bFmt).any Fmt.isE8) && !v.st.b1Level c then
            .stop v.st .featureLevel
          else .go v.st (es, ix)

/-- The h rows of one slot read back (R73): (row, elements). -/
def State.readH (s : State) (c : Nat) (h : OpRec) (hf : Fmt) (pad : Nat) (p : HPitch) : List Nat →
    State × Option ReadFail × List (Nat × List Elem)
  | [] => (s, none, [])
  | i :: is =>
    let k := if hf = .bf16 then readPlain (sramReader c rqArray) hf pad s [h.data + i * p.bytes]
      else readGroups (sramReader c rqArray) hf 0 h.tag s (i * p.grps) 0
        ((List.range (pad / 32)).map (fun j => (h.data + i * p.bytes + 32 * j, h.scale + 2 * (i * p.recs + j), 32)))
    match k.2.1 with
    | some f => (k.1, some f, [])
    | none =>
      let m := State.readH k.1 c h hf pad p is
      (m.1, m.2.1, (i, k.2.2.flatten) :: m.2.2)

/-- The columns of an accumulating array within a gang's output. -/
def gangLo (gang array : Nat) : Nat := if gang = 1 then 64 * array else if gang = 2 then 128 * array else 0

/-- Slots of a SEG_UP one after another: h times B added to the cells, and passed through the check cells of the accumulating
arrays (R61, R73). -/
def State.segUpSlots (s : State) (c base : Nat) (o : SegUpOp) (p : HPitch) (ix : List Nat) (sums : Sums) :
    List (Nat × AdEntry) → State × Option ReadFail × Sums
  | [] => (s, none, sums)
  | (k, e) :: rest =>
    let rows := (List.range o.rows).filter (fun r => ix.getD r 0xFF == k)
    let bf := (Fmt.ofCode e.bFmt).getD .bf16
    let hf := (hFmt bf).getD .bf16
    let cols := 128 * gangN o.gang
    let pad := padRank e.rank
    if rows = [] then State.segUpSlots s c base o p ix sums rest
    else
      let hr := s.readH c o.h hf pad p rows
      match hr.2.1 with
      | some f => (hr.1, some f, sums)
      | none =>
        let br := readOperand (sramReader c rqArray) hr.1 e.recB bf cols pad
        match br.fail with
        | some f => (br.st, some f, sums)
        | none =>
          let u := unitLen bf hf e.bGs 0
          let xrow := fun i => ((hr.2.2.find? (fun x => x.1 == i)).map (·.2)).getD []
          let cells := (addTiles false u .one .one (fun i n _ => (br.rows.getD n []).zip (xrow i)) sums.cells {}
            (rows.flatMap (fun i => (List.range cols).map (fun n => (i, n, 0))))).1
          let parts := if o.gang = 1 ∨ o.gang = 3 then
              (addTiles false u .one .one
                (fun ji n _ => (br.rows.getD (gangLo o.gang (ji / 256) + n) []).zip (xrow (ji % 256))) sums.parts {}
                ((gangBanks o.gang base).flatMap (fun j => rows.flatMap (fun i =>
                  (List.range 128).map (fun n => (256 * j + i, n, 0)))))).1
            else sums.parts
          let vals := fun (l : List Elem) => l.map (fun x => x.value .one)
          let lanes := laneTiles br.st.freeAt false (4 * pad) sums.lanes 0 ((gangBanks o.gang base).map (fun j =>
            (j, rows.map (fun i => (i, vals (xrow i))),
              (List.range 128).map (fun n => vals (br.rows.getD (gangLo o.gang j + n) [])))))
          State.segUpSlots (br.st.draw (16 * pad)) c base o p ix ⟨cells, parts, lanes⟩ rest

/-- A SEG_UP's products added to a bank's cells. -/
def State.segUpRun (s : State) (c base : Nat) (o : SegUpOp) (sums : Sums) : Step Sums ⊕ (State × ReadFail) :=
  match s.readAdapters c o.list o.idx o.slots o.rows none with
  | .stop s' st => .inl (.stop s' st)
  | .go s' (es, ix) =>
    let r := s'.segUpSlots c base o (hPitch o.h es) ix sums ((List.range es.length).zip es)
    match r.2.1 with
    | some f => .inr (r.1, f)
    | none => .inl (.go r.1 r.2.2)

/-! ## Running a chain's command -/

/-- What running a command of a chain answers: the new sums and saturations, or the status it aborts with (R58, R373). -/
structure RunGot where
  st    : State
  fail  : Option Status
  sums  : Sums
  sat   : SatCount

/-- A read failure turned into the status of the abort; FMT and GS are the failing operand's (R51). -/
def State.abortOf (s : State) (c : Nat) (fmt gs : Nat) (f : ReadFail) (sums : Sums) : RunGot :=
  let r := s.readFailed c 0 fmt gs f
  ⟨r.1, some r.2, sums, {}⟩

/-- A command of a chain of base array `base` run into its sums (R45, R61, R66, R73); `final` takes the scale choices after
replacement (R85). -/
def State.runKind (s : State) (c base : Nat) (k : ChainKind) (final : Bool) (sums : Sums) : RunGot :=
  match k with
  | .mma o =>
    let r := s.readMma c o (if final then o.final else o.first)
    match r.fail with
    | some f => r.st.abortOf c (if r.second then o.x.fmt else o.w.fmt) (if r.second then o.x.gs else o.w.gs) f sums
    | none =>
      let a := mmaAdd o r.w r.x sums.cells
      let l := mmaLanes o base r.w r.x
      ⟨r.st.draw (1024 * l.length), none,
        ⟨a.1, mmaParts o r.w r.x sums.parts, laneTiles r.st.freeAt (o.wf == .int8) 1024 sums.lanes 0 l⟩, a.2⟩
  | .opx o =>
    let r := s.readOpx c o
    match r.fail with
    | some f => r.st.abortOf c (if r.second then o.v.fmt else o.u.fmt) (if r.second then o.v.gs else o.u.gs) f sums
    | none =>
      let a := opxAdd o r.w r.x sums.cells
      ⟨r.st.draw (4 * o.steps), none,
        ⟨a.1, sums.parts, laneTiles r.st.freeAt (o.uf == .int8) (4 * o.steps) sums.lanes 0 (opxLanes base r.w r.x)⟩, a.2⟩
  | .segUp o =>
    match s.segUpRun c base o sums with
    | .inl (.stop s' st) => ⟨s', some st, sums, {}⟩
    | .inl (.go s' k) => ⟨s', none, k, {}⟩
    | .inr (s', f) => s'.abortOf c o.h.fmt o.h.gs f sums

/-! ## Chains: their table, their ends (R56-R58) -/

/-- The key of a chain. -/
def chainKey (base b : Nat) : Nat := 4 * base + b

def State.chain (s : State) (c base b : Nat) : Option Chain := Tbl.find (s.core c).chains (chainKey base b)

def State.setChain (s : State) (c base b : Nat) (x : Chain) : State :=
  s.setCore c { s.core c with chains := Tbl.set (s.core c).chains (chainKey base b) x }

def State.delChain (s : State) (c base b : Nat) : State :=
  s.setCore c { s.core c with chains := Tbl.del (s.core c).chains (chainKey base b) }

/-- A command in flight on the matrix queue completes with a status. -/
def State.complete0 (s : State) (c idx : Nat) (st : Status) : State :=
  match (s.queue c 0).inflight.find? (fun x => x.index == idx) with
  | some x => (s.dropInflight c 0 idx).finish c 0 idx x.word st
  | none => s

/-- Commands of a chain complete one after another with one status. -/
def State.completeAll (s : State) (c : Nat) (st : Status) : List Nat → State
  | [] => s
  | i :: is => State.completeAll (s.complete0 c i st) c st is

/-- The ring indexes of a chain's commands, its DRAIN last. -/
def Chain.indexes (x : Chain) : List Nat := x.cmds.map (·.index) ++ (x.drain.map (·.index)).toList

/-- A chain aborts (R58): the bank goes ABORTED - or EMPTY where its DRAIN has issued - the command at `idx` completes with its
status and the others ABORTED. -/
def State.abortChain (s : State) (c base b : Nat) (x : Chain) (idx : Nat) (st : Status) : State :=
  let s1 := (s.delChain c base b).setBanks c b (if x.drain.isSome then bankEmpty else bankAborted) (gangBanks x.gang base)
  let before := x.indexes.filter (· != idx)
  (s1.completeAll c .aborted before).complete0 c idx st

/-! ## Replay, compare, spare and fence (R61-R65, R85) -/

/-- The commands of a chain run again into empty cells, in order; the first that fails is named. -/
def State.rerun (s : State) (c base : Nat) (final : Bool) (sums : Sums) : List ChainCmd → State × Option (Nat × Status) × Sums
  | [] => (s, none, sums)
  | k :: ks =>
    let r := s.runKind c base k.kind final sums
    match r.fail with
    | some st => (r.st, some (k.index, st), sums)
    | none => State.rerun r.st c base final r.sums ks

/-- The slots whose groups a replay of a chain replaces (R85). -/
def breachSlots (ks : List ChainCmd) : List Nat :=
  (ks.filterMap (fun k => match k.kind with
    | .mma o => match o.use with
      | some u => if o.first ≠ o.final ∧ u.stats then some u.slot else none
      | none => none
    | _ => none)).eraseDups

/-- REPLAYS counted for slots: once a chain or block each (R85, R89). -/
def State.countReplays (s : State) (c : Nat) : List Nat → State
  | [] => s
  | n :: ns => State.countReplays (s.addFld GUARD_STAT.REPLAYS c (8 * n) 1) c ns

/-- The chain's bank is emptied and the chain replayed from its ACC = 0 command (R64, R85). -/
def State.replay (s : State) (c base b : Nat) (x : Chain) : State :=
  let r := s.rerun c base true {} x.cmds
  let s1 := if x.breach then r.1.countReplays c (breachSlots x.cmds) else r.1
  match r.2.1 with
  | some (idx, st) => s1.abortChain c base b x idx st
  | none => s1.setChain c base b { x with cells := r.2.2.cells, parts := r.2.2.parts, lanes := r.2.2.lanes, breach := false,
                                          passed := [] }

/-! ### What a compare sees (R61-R63) -/

/-- One row or column as an array's compare sees it (R62): its code (0-127, with bit 15 for a column, R77), the array a
mismatch is charged to (R63), the sum of its outputs, its check and bound, and whether it is left out. -/
structure Line where
  code  : Nat
  array : Nat
  sum   : Num
  chk   : Num
  bnd   : Num
  skip  : Bool
  deriving DecidableEq, Repr

/-- The difference and the band of a line (R62). -/
def Line.judge (l : Line) (int : Bool) (tol : Nat) : Num × Num :=
  ((l.sum.sub l.chk).abs, if int then .zero else (l.bnd.mul (.pow2 (-tol))).add (.pow2 (-126)))

/-- A line that is not left out and whose difference exceeds its band (R62). -/
def Line.bad (l : Line) (int : Bool) (tol : Nat) : Bool := !l.skip && (l.judge int tol).2.lt (l.judge int tol).1

/-- A line from its outputs: their sum is FP32, of INT8 pairs exact (log 37); NaN, infinity or a saturated value leaves it
out (R62). -/
def lineOf (int : Bool) (code array : Nat) (outs : List Num) (sat : Bool) (lane : Num × Num) : Line :=
  let sum := if int then Num.sum outs else rneFp32 (Num.sum outs)
  ⟨code, array, sum, lane.1, lane.2,
    !(outs.all Num.isFinite && sum.isFinite && lane.1.isFinite && lane.2.isFinite) || (int && sat)⟩

/-- The decoded output of a cell; of a chain of mixed factors or accumulators a free value (log 27). -/
def Chain.cellOut (x : Chain) (free : Nat → Nat) (k : Nat) (a : Acc) : Num :=
  if x.mixed then ofFp32 (free k % 2 ^ 32) else a.out x.int x.f

/-- The rows and columns of one array's 128 (or 64) columns. -/
def Chain.linesOf (x : Chain) (free : Nat → Nat) (cells : Tbl Acc) (key : Nat → Nat → Nat) (lane : Nat → Num × Num)
    (array width : Nat) : List Line :=
  let line := fun (code : Nat) (ks : List Nat) =>
    let as := ks.map (fun k => (k, Tbl.at cells k {}))
    lineOf x.int code array (as.map (fun p => x.cellOut free p.1 p.2)) (as.any (fun p => p.2.sat)) (lane code)
  (List.range x.rows).map (fun i => line i ((List.range width).map (key i))) ++
  (List.range width).map (fun n => line (2 ^ 15 + n) ((List.range x.rows).map (fun i => key i n)))

/-- Disturbances applied to accumulators: the bits a fault has inverted (R63). -/
def upsetCells (int : Bool) (lo : Nat) (cells : Tbl Acc) : List Upset → Tbl Acc
  | [] => cells
  | u :: us =>
    let k := cellKey u.row (lo + u.col)
    let a := Tbl.at cells k {}
    let a' : Acc := if int then { a with int := signedOf 32 (unsignedOf 32 a.int ^^^ u.bits.toNat) }
      else { a with main := a.main ^^^ u.bits.toNat }
    upsetCells int lo (Tbl.set cells k a') us

/-- Every cell's pending terms added, each in its own free order; `k` numbers the free values used. -/
def settleCells (free : Nat → Nat) : Nat → Tbl Acc → Tbl Acc
  | _, [] => []
  | k, (i, a) :: r => (i, a.settle (free k) (free (k + 1))) :: settleCells free (k + 2) r

/-- The terms of a check cell added. -/
def Lane.settle (l : Lane) (int : Bool) (c1 c2 : Nat) : Lane :=
  { chk := laneSum int l.chk l.cTerm c1, bnd := laneSum int l.bnd l.bTerm c2 }

/-- Every check cell's pending terms added. -/
def settleLanes (free : Nat → Nat) (int : Bool) : Nat → Tbl Lane → Tbl Lane
  | _, [] => []
  | k, (i, l) :: r => (i, l.settle int (free k) (free (k + 1))) :: settleLanes free int (k + 2) r

/-- A fault in an array's own partial sum reaches the bank it is added into: the cell moves by what the sum moved (R63). -/
def Acc.carry (a : Acc) (int : Bool) (old new : Acc) : Acc :=
  if int then { a with int := satInt32 (a.int + (new.int - old.int)) }
  else { a with main := toFp32 ((ofFp32 a.main).add ((ofFp32 new.main).sub (ofFp32 old.main))) }

/-- Faults in the arrays' own partial sums, carried into the cells of the compared array's columns. -/
def upsetParts (int : Bool) (lo : Nat) (cells parts : Tbl Acc) : List (Nat × Upset) → Tbl Acc × Tbl Acc
  | [] => (cells, parts)
  | (j, u) :: us =>
    let k := cellKey (256 * j + u.row) u.col
    let p := upsetCells int 0 parts [{ u with row := 256 * j + u.row }]
    let d := cellKey u.row (lo + u.col)
    upsetParts int lo (Tbl.set cells d ((Tbl.at cells d {}).carry int (Tbl.at parts k {}) (Tbl.at p k {}))) p us

/-- What a compare of an accumulating array finds: the cells, partial sums and check cells after it, and every line it looks
at: those of each array whose sums meet in the bank, then the bank's own (R63). -/
structure Compared where
  cells : Tbl Acc
  parts : Tbl Acc
  lanes : Tbl Lane
  lines : List Line

/-- A compare's view; the terms still pending are added in free orders. -/
def Chain.compared (x : Chain) (free : Nat → Nat) (j : Nat) (upsets : List Upset) : Compared :=
  let width := if x.compat then 64 else 128
  let lo := gangLo x.gang j
  let cs := contributors x.gang j
  let own := if cs.length = 1 then [] else upsets.filterMap (fun u => u.own.bind (fun k => if cs.contains k then some (k, u) else none))
  let n1 := 2 * x.cells.length
  let n2 := n1 + 2 * x.parts.length
  let n3 := n2 + 2 * x.lanes.length
  let lanes := settleLanes free x.int n2 x.lanes
  let m := upsetParts x.int lo (settleCells free 0 x.cells) (settleCells free n1 x.parts) own
  let cells := upsetCells x.int lo m.1 (if cs.length = 1 then upsets else upsets.filter (fun u => u.own.isNone))
  let at_ := fun k l => Tbl.at lanes (laneKey k l) ({} : Lane)
  let ownLines := if cs.length = 1 then [] else cs.flatMap (fun k =>
    x.linesOf (fun i => free (n3 + i)) m.2 (fun i n => cellKey (256 * k + i) n) (fun l => ((at_ k l).chk, (at_ k l).bnd)) k 128)
  let total := x.linesOf (fun i => free (n3 + i)) cells (fun i n => cellKey i (lo + n))
    (fun l => match cs with
      | [k] => ((at_ k l).chk, (at_ k l).bnd)
      | _ => (laneSum x.int .zero (cs.map (fun k => (at_ k l).chk)) (free (n3 + 2 ^ 20 + l)),
          laneSum x.int .zero (cs.map (fun k => (at_ k l).bnd)) (free (n3 + 2 ^ 20 + 2 ^ 16 + l)))) j width
  ⟨cells, m.2, lanes, ownLines ++ total⟩

/-- Free values a compare uses. -/
def Chain.compareDraws (x : Chain) : Nat :=
  2 * x.cells.length + 2 * x.parts.length + 2 * x.lanes.length + (if x.mixed ∨ x.gang = 1 ∨ x.gang = 3 then 2 ^ 21 else 0)

/-- CHK_SKIP counted, CHK_SKIPPED at each 256 (R62, R77). -/
def State.countSkips (s : State) (c j n : Nat) (int : Bool) : State :=
  if n = 0 then s else s.countPast256 ARRAY_STAT.CHK_SKIP c 0 n .CHK_SKIPPED (siteOf c) (coreNo c) [(1, j), (1, if int then 1 else 0)]

/-- ARRAY_CHK_RETRY (R77): one of the lines that mismatch, which one is free; of an INT8 pair, whose compare is exact, the ratio
to the band is free. -/
def State.retryEvent (s : State) (c j b : Nat) (int : Bool) (tol : Nat) (bad : List Line) : State :=
  let l := bad[s.freeVal % bad.length]?.getD ⟨0, 0, .zero, .zero, .zero, false⟩
  let v := l.judge int tol
  (s.draw 2).raise .ARRAY_CHK_RETRY (siteOf c) (coreNo c)
    [(1, j), (1, s.physArray c j), (1, b), (2, l.code), (4, if int then s.freeAt 1 % 2 ^ 32 else ratioFp32 v.1 v.2)]

/-- A physical array is fenced (R65). -/
def State.fenceArray (s : State) (c j b : Nat) : State :=
  let p := s.physArray c j
  (s.setFld ARRAY_MAP.FENCED c 0 (putBits (s.fld ARRAY_MAP.FENCED c 0) p p 1)).raise .ARRAY_FENCED (siteOf c) (coreNo c)
    [(1, j), (1, p), (1, b)]

/-- The core still has its spare array (R65). -/
def State.hasSpare (s : State) (c : Nat) : Bool :=
  s.fld ARRAY_MAP.SPARE c 0 != 7 && !(s.fld ARRAY_MAP.FENCED c 0).testBit (s.fld ARRAY_MAP.SPARE c 0)

/-- A physical array is fenced after a second mismatch, and the spare takes its logical number where it may (R65 step 1):
whether it did. -/
def State.arraySpareIn (s : State) (c j b : Nat) : State × Bool :=
  let old := s.physArray c j
  let s1 := s.fenceArray c j b
  if s1.fld ARRAY_MAP.AUTO_SPARE c 0 = 1 ∧ s1.hasSpare c then
    let sp := s1.fld ARRAY_MAP.SPARE c 0
    (((s1.setFld (ARRAY_MAP.PHYS j) c 0 sp).setFld ARRAY_MAP.SPARE c 0 7).raise .ARRAY_SPARE_IN (siteOf c) (coreNo c)
      [(1, j), (1, old), (1, sp)], true)
  else (s1, false)

/-- No spare is left (R65 step 2): the core is fenced. -/
def State.arrayCoreFence (s : State) (c : Nat) : State :=
  (s.raise .ARRAY_CORE_FENCED (siteOf c) (coreNo c) [(1, if s.fld ARRAY_MAP.AUTO_SPARE c 0 = 1 then 0 else 1)]).fenceCore c causeArray

/-- A second mismatch (R65): the array is fenced; the spare takes its number and the chain is replayed, or the chain completes
INTEGRITY and the core is fenced. -/
def State.secondMismatch (s : State) (c base b j : Nat) (x : Chain) : State :=
  let r := s.arraySpareIn c j b
  if r.2 then r.1.replay c base b { x with mism := 0, retry := [], passed := [] }
  else ((r.1.delChain c base b).completeAll c .integrity x.indexes).arrayCoreFence c

/-- A pass of array `j`: RETRY_PASS counts a replay once every accumulating array has passed since it (R64). -/
def State.retryPass (s : State) (c j : Nat) (x : Chain) : State × List Nat :=
  let left := x.retry.filter (· != j)
  (if !x.retry.isEmpty && left.isEmpty then s.addFld ARRAY_STAT.RETRY_PASS c 0 1 else s, left)

/-- A compare of one accumulating array of a chain (R62-R65; the outputs of a chain of mixed F are free, log 27): a mismatch is
charged to the array whose own compare failed, else to the accumulating array (R63); `onPass` says what follows a pass. -/
def State.compare (s : State) (c base b j : Nat) (x : Chain) (upsets : List Upset) (onPass : State → Chain → State) : State :=
  let k := x.compared s.freeAt j upsets
  let x1 := { x with cells := k.cells, parts := k.parts, lanes := k.lanes }
  let bad := k.lines.filter (fun l => l.bad x.int x.tol)
  let s1 := (s.draw x.compareDraws).countSkips c j (k.lines.filter (·.skip)).length x.int
  match bad with
  | [] =>
    let r := s1.retryPass c j x
    onPass r.1 { x1 with retry := r.2 }
  | l :: _ =>
    let charged := l.array
    let s2 := s1.setFld ARRAY_STAT.LAST_MISMATCH c 0 (s1.physArray c charged)
    if x.mism = 0 then
      (s2.retryEvent c charged b x.int x.tol (bad.filter (fun y => y.array == charged))).replay c base b
        { x1 with mism := 1, retry := gangBanks x.gang base }
    else s2.secondMismatch c base b charged x1

/-- The chain that an accumulating array and a bank belong to, with its base. -/
def State.chainAt (s : State) (c j b : Nat) : Option (Nat × Chain) :=
  match s.chain c j b with
  | some x => some (j, x)
  | none =>
    match s.chain c 0 b with
    | some x => if (gangBanks x.gang 0).contains j then some (0, x) else none
    | none => none

/-! ## Issue of bank commands -/

/-- The new chain an ACC = 0 command opens. -/
def State.newChain (s : State) (c rows gang : Nat) (compat int : Bool) (f : Nat) : Chain :=
  { cmds := [], rows := rows, gang := gang, compat := compat, int := int, f := f, tol := s.fld ARRAY_CFG.CHK_TOL c 0, cells := [] }

/-- The status a bank's state gives a writing command, where it may not write (R56, R110). -/
def State.bankRefuses (s : State) (c : Nat) (fd : Fetched) (acc : Bool) (rows : Option Nat) : Option Status :=
  let base := if cmdGang fd.word = 0 then cmdArray fd.word else 0
  let b := cmdBank fd.word
  let st := s.bank c base b
  if acc then
    if st = bankAborted then some .aborted
    else match s.chain c base b with
      | some x =>
        if st ≠ bankAccum then some .stateConflict
        else if rows.isSome && rows != some x.rows then some .stateConflict
        else if 64 ≤ x.cmds.length then some .noResource
        else none
      | none => some .stateConflict
  else if st = bankEmpty ∨ st = bankAborted then none else some .stateConflict

/-- What a writing command does before it runs into the bank: the state after it, its failure, the command as it runs, and
whether it breaches (R85). -/
abbrev Prep := State → State × Option Status × ChainKind × Bool

/-- A bank-writing command after its operand checks (R56, R58, R110): it opens or extends the chain and runs into it, or aborts
it. `rows`, `int`, `f` are what it asks of the chain; `prep` comes first and only where the bank takes the command. -/
def State.writeBank (s : State) (c : Nat) (fd : Fetched) (prep : Prep) (compat : Bool) (acc : Bool) (rows : Option Nat)
    (int : Bool) (f : Nat) (slots : List Nat) : State :=
  let gang := cmdGang fd.word
  let base := if gang = 0 then cmdArray fd.word else 0
  let b := cmdBank fd.word
  let run := fun (s : State) (x : Chain) =>
    let p := prep s
    let r : RunGot := match p.2.1 with
      | some e => ⟨p.1, some e, ⟨x.cells, x.parts, x.lanes⟩, {}⟩
      | none => p.1.runKind c base p.2.2.1 false ⟨x.cells, x.parts, x.lanes⟩
    let x1 : Chain := { x with
      cmds := x.cmds ++ [⟨fd.index, p.2.2.1⟩], cells := r.sums.cells, parts := r.sums.parts, lanes := r.sums.lanes,
      breach := x.breach || p.2.2.2, mixed := x.mixed || x.int != int || (!int && x.f != f) }
    let s1 := (r.st.start c 0 { index := fd.index, word := fd.word, chain := some (base, b), slots := slots }).countSat c r.sat
    match r.fail with
    | some e => s1.abortChain c base b x1 fd.index e
    | none => (s1.setChain c base b x1).setBanks c b bankAccum (gangBanks gang base)
  match s.bankRefuses c fd acc rows with
  | some e => s.finishNow c 0 fd e
  | none =>
    match acc, s.chain c base b with
    | true, some x => run s x
    | _, _ => run ((s.setGang c fd.word).setCompat c compat (gangArrays gang base)) (s.newChain c (rows.getD 128) gang compat int f)

/-- A checked command issues, or completes with the status of its check. -/
def Step.issue {α : Type} (x : Step α) (c q : Nat) (fd : Fetched) (f : State → α → State) : State :=
  match x with
  | .stop s st => s.finishNow c q fd st
  | .go s a => f s a

/-- ARRAY is 0 in a gang (R110). -/
def gangOk (w : BitVec 128) : Bool := cmdGang w == 0 || cmdArray w == 0

/-! ### MMA (R55, R81, R109-R111) -/

/-- The activation operand's target: its own format, or the slot's (R82, R109). -/
def State.xTarget (s : State) (c q : Nat) (x : OpRec) (sw : SlotWord) : Step (Fmt × Fmt × Nat) :=
  if sw.en then
    (s.needFmt c q x.fmt x.gs (orReason (fmtReason x.fmt x.gs) (if x.fmt = 0 ∨ x.fmt = 2 then none else some 0))).next fun s _ =>
    (s.needFmt c q sw.fmt sw.gs (orReason (fmtReason sw.fmt sw.gs) (factorReason sw.fmt x.f))).next fun s _ =>
    .go s ((Fmt.ofCode x.fmt).getD .bf16, (Fmt.ofCode sw.fmt).getD .bf16, sw.gs)
  else (s.recFmt c q x.fmt x.gs x.f).next fun s f => .go s (f, f, x.gs)

/-- F of a pair, rounded to FP32 once at issue (R45). -/
def pairFactor (wf xf : Fmt) (w x : OpRec) : Nat := toFp32 ((factorOf wf w.f).mul (factorOf xf x.f))

/-- The escape stream of an FT4 operand stays in the SRAM (R54): two bytes for each escape its scale records count (R36). -/
def State.escFit (s : State) (c : Nat) (r : OpRec) (f : Fmt) (rows R : Nat) : Bool :=
  !f.isFt4 || decide (r.esc + 2 * ((List.range (rows * rowGroups f r.gs R)).map (fun i =>
    bitsOf (leNat (memBytes s.mem (sramByte c (r.scale + 2 * i)) 2)) 15 12)).sum ≤ sramSize)

/-- An MMA's descriptor checked (R31, R44, R54, R78, R109-R111). FMT_REFUSED's reason 1 carries the weight record's FMT and
GS: the model's choice (R51; log 123). -/
def State.mmaParse (s : State) (c : Nat) (fd : Fetched) : Step (MmaOp × SlotWord) :=
  (s.need (gangOk fd.word) .badFormat).next fun s _ =>
  (s.readDesc c fd.word).next fun s d =>
  let w := OpRec.ofBits (bitsOf d 127 0)
  let x := OpRec.ofBits (bitsOf d 255 128)
  let sw := SlotWord.ofBits (bitsOf d 287 256)
  let kt := cmdBits fd.word 110 105 + 1
  let rows := cmdBits fd.word 104 98 + 1
  (s.need (bitsOf d 511 288 == 0 && sw.mbz) .badFormat).next fun s _ =>
  (s.recFmt c 0 w.fmt w.gs w.f).next fun s wf =>
  (s.xTarget c 0 x sw).next fun s (src, xf, xgs) =>
  match pairClass wf xf with
  | none => .stop (s.fmtRefuse c 0 w.fmt w.gs 1) .badFormat
  | some cl =>
    let tk := cl.tileK * gangK (cmdGang fd.word)
    let cols := 128 * gangN (cmdGang fd.word)
    (s.needLevel c [wf, xf]).next fun s _ =>
    (s.need (w.shapeOk wf && w.rstride == 0 && x.shapeOk src && w.fits wf (kt * cols) tk sramSize &&
      x.fits src rows (kt * tk) sramSize && s.escFit c w wf (kt * cols) tk && s.escFit c x src rows (kt * tk) &&
      (decide (rows = 1) || x.rowStep src (kt * tk) % 64 == 0)) .badFormat).next fun s _ =>
    (if sw.en then s.needSlot c sw sw.fmt sw.gs (kt * tk / groupLen xf xgs) else .go s ()).next fun s _ =>
    (s.needGang c fd.word).next fun s _ =>
    (s.needCompat c (cmdArrays fd.word) false).next fun s _ =>
    .go s ({ w := w, x := x, wf := wf, xf := xf, src := src, kt := kt, rows := rows, gang := cmdGang fd.word,
             use := if sw.en then some (s.slotUse c rqArray sw xf (factorOf xf x.f)) else none, first := [], final := [] }, sw)

/-- The guard's work on a quantise-on-load operand at its issue (R80-R85): measurements made once, the scale choices kept. -/
def State.guardX (s : State) (c : Nat) (x : OpRec) (src : Fmt) (u : SlotUse) (rows R : Nat) :
    State × Option Status × List (List ScaleMode) × List (List ScaleMode) :=
  let r := readOperand (sramReader c u.who) s x src rows R
  match r.fail with
  | some (.status st) => (r.st, some st, [], [])
  | some _ => (r.st, some .badFormat, [], [])
  | none =>
    let g := r.st.guardRows u (r.rows.map (fun l => l.map (fun e => e.val)))
    if g.2.1 ≠ .ok then (g.1, some g.2.1, [], [])
    else
      (g.1, none, g.2.2.map (fun row => row.map (fun (k : GuardGot) => k.mode)),
        g.2.2.map (fun row => row.map (fun (k : GuardGot) => k.plan)))

/-- The guard's work of an MMA that quantises on load, before it runs (R80-R85). -/
def mmaGuard (c : Nat) (o : MmaOp) (u : SlotUse) (R : Nat) : Prep := fun s =>
  let g := s.guardX c o.x o.src u o.rows R
  (g.1, g.2.1, .mma { o with first := g.2.2.1, final := g.2.2.2 }, g.2.2.1 != g.2.2.2)

/-- MMA's effect once it issues; a failed read of the guard ends the chain as R58 says (R373). -/
def State.mmaAct (s : State) (c : Nat) (fd : Fetched) : State :=
  (s.mmaParse c fd).issue c 0 fd fun s om =>
    let o := om.1
    let int := o.wf == .int8
    let f := pairFactor o.wf o.xf o.w o.x
    let tk := (match pairClass o.wf o.xf with
      | some cl => cl.tileK
      | none => 128) * gangK o.gang
    match o.use with
    | none => s.writeBank c fd (fun s => (s, none, .mma o, false)) false (cmdAcc fd.word) (some o.rows) int f []
    | some u => s.writeBank c fd (mmaGuard c o u (o.kt * tk)) false (cmdAcc fd.word) (some o.rows) int f [u.slot]

/-! ### DRAIN and DISCARD (R55-R57, R110) -/

/-- The accumulating array whose bank a command names: 0 in a gang. -/
def cmdBase (w : BitVec 128) : Nat := if cmdGang w = 0 then cmdArray w else 0

/-- The columns of a chain's output. -/
def Chain.cols (x : Chain) : Nat := if x.compat then 64 else 128 * gangN x.gang

/-- The DRAIN a command word names. -/
def drainOf (f : Fetched) : DrainCmd :=
  { index := f.index, dst := cmdBits f.word 127 105, stride := 64 * (cmdBits f.word 104 98 + 1), ofmt := cmdBits f.word 90 89 }

/-- A DRAIN's rows stay in the core's SRAM (R54). -/
def DrainCmd.fits (d : DrainCmd) (x : Chain) : Bool :=
  d.dst % 64 == 0 && decide (d.dst + (x.rows - 1) * d.stride + x.cols * outSize d.ofmt ≤ sramSize)

/-- DRAIN's effect once it issues (R56). -/
def State.drainAct (s : State) (c : Nat) (fd : Fetched) : State :=
  let base := cmdBase fd.word
  let b := cmdBank fd.word
  let d := drainOf fd
  ((s.need (gangOk fd.word && d.ofmt != 3 && d.dst % 64 == 0) .badFormat).next fun s _ =>
    (s.needGang c fd.word)).issue c 0 fd fun s _ =>
  if s.bank c base b = bankAborted then
    (s.setBanks c b bankEmpty (gangBanks (cmdGang fd.word) base)).finishNow c 0 fd .aborted
  else match s.chain c base b with
    | some x =>
      if s.bank c base b ≠ bankAccum then s.finishNow c 0 fd .stateConflict
      else if !d.fits x then s.finishNow c 0 fd .badFormat
      else
        ((s.start c 0 { index := fd.index, word := fd.word, chain := some (base, b) }).setChain c base b
          { x with drain := some d, passed := [] }).setBanks c b bankDraining (gangBanks x.gang base)
    | none => s.finishNow c 0 fd .stateConflict

/-- DISCARD's effect once it issues (R56): the chain's commands complete ABORTED, nothing is committed. -/
def State.discardAct (s : State) (c : Nat) (fd : Fetched) : State :=
  let base := cmdBase fd.word
  let b := cmdBank fd.word
  ((s.need (gangOk fd.word) .badFormat).next fun s _ => (s.needGang c fd.word)).issue c 0 fd fun s _ =>
  let st := s.bank c base b
  if st = bankDraining then s.finishNow c 0 fd .stateConflict
  else
    let s1 := (s.setGang c fd.word).setBanks c b bankEmpty (gangBanks (cmdGang fd.word) base)
    match s1.chain c base b with
    | some x => ((s1.delChain c base b).completeAll c .aborted x.indexes).finishNow c 0 fd .ok
    | none => s1.finishNow c 0 fd .ok

/-- The output bits of one element of a drain; a chain of mixed factors or accumulators drains free values (log 27). -/
def Chain.bits (x : Chain) (free : Nat → Nat) (ofmt i n : Nat) : Nat :=
  if x.mixed then free (i * x.cols + n) % 2 ^ (8 * outSize ofmt)
  else outBits ofmt ((Tbl.at x.cells (cellKey i n) {}).result x.int x.f)

/-- One row of a drain. -/
def Chain.rowData (x : Chain) (free : Nat → Nat) (ofmt i : Nat) : List Byte :=
  (List.range x.cols).flatMap (fun n => leBytes (outSize ofmt) (x.bits free ofmt i n))

/-- The rows of a drain written one after another. -/
def State.drainRows (s : State) (c : Nat) (x : Chain) (d : DrainCmd) (free : Nat → Nat) : List Nat → State
  | [] => s
  | i :: is =>
    State.drainRows (s.localWrite c (d.dst + i * d.stride) (x.rowData free d.ofmt i) rqArray).st c x d free is

/-- The commit of a drain (R57): its rows are written, the bank is EMPTY, and the chain's commands complete OK in order. -/
def State.commitChain (s : State) (c base b : Nat) (x : Chain) (d : DrainCmd) : State :=
  let s1 := (s.draw (if x.mixed then x.rows * x.cols else 0)).drainRows c x d s.freeAt (List.range x.rows)
  ((s1.delChain c base b).setBanks c b bankEmpty (gangBanks x.gang base)).completeAll c .ok x.indexes

/-! ### OPX (R66, R67) -/

/-- The pairs OPX accepts (R67). -/
def opxPair (u v : Fmt) : Bool :=
  (u == .bf16 && v == .bf16) || (u == .int8 && v == .int8) ||
  ((u == .mxE4m3 || u == .mxE5m2) && (v == .mxE4m3 || v == .mxE5m2))

/-- A stream of OPX stays in the SRAM. -/
def laneFits (r : OpRec) (f : Fmt) (steps : Nat) : Bool :=
  r.shapeOk f && (if f.scaled then r.fits f 64 steps sramSize else r.fits f steps 64 sramSize)

/-- An OPX's descriptor checked. -/
def State.opxParse (s : State) (c : Nat) (fd : Fetched) : Step OpxOp :=
  (s.need (gangOk fd.word) .badFormat).next fun s _ =>
  (s.need (cmdGang fd.word == 0) .stateConflict).next fun s _ =>
  (s.readDesc c fd.word).next fun s d =>
  let u := OpRec.ofBits (bitsOf d 127 0)
  let v := OpRec.ofBits (bitsOf d 255 128)
  let steps := cmdBits fd.word 110 99 + 1
  (s.need (bitsOf d 511 256 == 0) .badFormat).next fun s _ =>
  (s.recFmt c 0 u.fmt u.gs u.f).next fun s uf =>
  (s.recFmt c 0 v.fmt v.gs v.f).next fun s vf =>
  (s.needFmt c 0 u.fmt u.gs (if opxPair uf vf then none else some 1)).next fun s _ =>
  (s.need (laneFits u uf steps && laneFits v vf steps && (!uf.scaled || steps % 32 == 0)) .badFormat).next fun s _ =>
  (s.needGang c fd.word).next fun s _ =>
  (s.needCompat c [cmdArray fd.word] true).next fun s _ =>
  .go s { u := u, v := v, uf := uf, vf := vf, steps := steps }

/-- OPX's effect once it issues. -/
def State.opxAct (s : State) (c : Nat) (fd : Fetched) : State :=
  (s.opxParse c fd).issue c 0 fd fun s o =>
    s.writeBank c fd (fun s => (s, none, .opx o, false)) true (cmdAcc fd.word) (some 64) (o.uf == .int8) 0x3F800000 []

/-! ### EWOP (R68) -/

/-- A record of which only DATA and FMT may be set (R111). -/
def OpRec.plainOnly (r : OpRec) : Bool :=
  r.f == 0 && r.esc == 0 && r.scale == 0 && r.tag == 0 && r.gs == 0 && r.rstride == 0 && r.mbz

/-- An EWOP's checked operands. -/
structure EwOp where
  a   : OpRec
  b   : OpRec
  af  : Fmt
  bf  : Fmt
  out : OpRec
  n   : Nat
  add : Bool

/-- An EWOP's descriptor checked (R68, R110, R111). -/
def State.ewParse (s : State) (c : Nat) (fd : Fetched) : Step EwOp :=
  (s.need (gangOk fd.word && cmdBank fd.word == 0) .badFormat).next fun s _ =>
  (s.readDesc c fd.word).next fun s d =>
  let a := OpRec.ofBits (bitsOf d 127 0)
  let b := OpRec.ofBits (bitsOf d 255 128)
  let o := OpRec.ofBits (bitsOf d 383 256)
  let n := cmdBits fd.word 79 64 + 1
  (s.need (bitsOf d 511 384 == 0 && o.plainOnly) .badFormat).next fun s _ =>
  (s.recFmt c 0 a.fmt a.gs a.f).next fun s af =>
  (s.recFmt c 0 b.fmt b.gs b.f).next fun s bf =>
  (s.needFmt c 0 a.fmt a.gs (if (pairClass af bf).isSome && groupLen af a.gs == groupLen bf b.gs then none else some 1)).next
    fun s _ =>
  (s.needFmt c 0 o.fmt o.gs (if o.fmt = 0 ∨ o.fmt = 2 then none else some 0)).next fun s _ =>
  (s.needLevel c [af, bf]).next fun s _ =>
  (s.need (s.escFit c a af 1 n && s.escFit c b bf 1 n && o.data % 64 == 0 && a.shapeOk af && b.shapeOk bf && a.fits af 1 n sramSize &&
    b.fits bf 1 n sramSize && decide (o.data + n * (if o.fmt = 0 then 2 else 4) ≤ sramSize)) .badFormat).next fun s _ =>
  (s.needGang c fd.word).next fun s _ =>
  (s.need (s.allEmpty c (cmdArrays fd.word)) .stateConflict).next fun s _ =>
  .go s { a := a, b := b, af := af, bf := bf, out := o, n := n, add := cmdAcc fd.word }

/-- One element of an EWOP, formed in FP32 (R68). -/
def ewElem (add : Bool) (fa fb : Num) (out : Nat) (p : Elem × Elem) : List Byte :=
  let x := p.1.value fa
  let y := p.2.value fb
  let v := rneFp32 (if add then x.add y else x.mul y)
  if out = 0 then leBytes 2 (toBf16 v) else leBytes 4 (toFp32 v)

/-- A command on the matrix queue aborts on a failed operand read. -/
def State.readAbort (s : State) (c : Nat) (fd : Fetched) (fmt gs : Nat) (f : ReadFail) : State :=
  let r := s.readFailed c 0 fmt gs f
  r.1.finishNow c 0 fd r.2

/-- EWOP's effect once it issues: counted in EW_UNCHECKED, its results written by its completion. -/
def State.ewopAct (s : State) (c : Nat) (fd : Fetched) : State :=
  (s.ewParse c fd).issue c 0 fd fun s o =>
    let s1 := (s.setGang c fd.word).setCompat c false (cmdArrays fd.word)
    let ra := readOperand (sramReader c rqArray) s1 o.a o.af 1 o.n
    match ra.fail with
    | some f => ra.st.readAbort c fd o.a.fmt o.a.gs f
    | none =>
      let rb := readOperand (sramReader c rqArray) ra.st o.b o.bf 1 o.n
      match rb.fail with
      | some f => rb.st.readAbort c fd o.b.fmt o.b.gs f
      | none =>
        let bytes := ((ra.rows.flatten).zip rb.rows.flatten).flatMap
          (ewElem o.add (factorOf o.af o.a.f) (factorOf o.bf o.b.f) o.out.fmt)
        (rb.st.addFld ARRAY_STAT.EW_UNCHECKED c 0 1).start c 0
          { index := fd.index, word := fd.word, writes := [.sram o.out.data bytes] }

/-! ### SEG_DOWN and SEG_UP (R73, R74) -/

/-- The slot list as it stands in SRAM at issue. -/
def State.adapterPeek (s : State) (c list slots : Nat) : List AdEntry :=
  (List.range slots).map (fun i => AdEntry.ofBits (leNat (memBytes s.mem (sramByte c (list + 32 * i)) 32)))

/-- A weight operand of `n` columns of K elements that an entry names keeps R54: its base is 64-byte aligned and its streams lie
in the SRAM. Of a format the entry may not use nothing is asked here: that entry is bad (R74). -/
def State.adOperandOk (s : State) (c : Nat) (r : OpRec) (n K : Nat) : Bool :=
  match adFmtOk r.fmt r.gs with
  | some f => r.data % 64 == 0 && r.fits f n K sramSize && s.escFit c r f n K
  | none => true

/-- The list, the row indexes and the h rows of a command on adapters lie in the SRAM (R54). -/
def adRangesOk (h : OpRec) (es : List AdEntry) (list idx slots rows : Nat) : Bool :=
  let p := hPitch h es
  decide (list + 32 * slots ≤ sramSize) && decide (idx + rows ≤ sramSize) && decide (h.data + rows * p.bytes ≤ sramSize) &&
  (es.all (fun e => e.bFmt == 0) || decide (h.scale + 2 * (rows * p.recs) ≤ sramSize))

/-- A SEG_DOWN's checked operands. -/
structure SegDownOp where
  x     : OpRec
  h     : OpRec
  xf    : Fmt
  src   : Fmt
  use   : Option SlotUse
  rows  : Nat
  slots : Nat
  list  : Nat
  idx   : Nat
  k     : Nat

/-- A SEG_DOWN's descriptor `d` checked for K. -/
def State.segDownChecks (s : State) (c : Nat) (fd : Fetched) (d k : Nat) : Step SegDownOp :=
  let x := OpRec.ofBits (bitsOf d 127 0)
  let h := OpRec.ofBits (bitsOf d 255 128)
  let sw := SlotWord.ofBits (bitsOf d 351 320)
  let rows := cmdBits fd.word 110 104 + 1
  (s.need (bitsOf d 287 279 == 0 && bitsOf d 319 311 == 0 && bitsOf d 511 352 == 0 && sw.mbz && h.f == 0 && h.esc == 0 &&
    h.gs == 0 && h.fmt == 0 && h.rstride == 0 && h.mbz && h.data % 64 == 0 && h.scale % 64 == 0 &&
    bitsOf d 278 256 % 64 == 0) .badFormat).next fun s _ =>
  (s.xTarget c 0 x sw).next fun s (src, xf, xgs) =>
  (s.needLevel c [xf]).next fun s _ =>
  let slots := cmdBits fd.word 103 98 + 1
  let es := s.adapterPeek c (bitsOf d 278 256) slots
  (s.need (x.shapeOk src && x.fits src rows k sramSize && s.escFit c x src rows k &&
    (decide (rows = 1) || x.rowStep src k % 64 == 0) && adRangesOk h es (bitsOf d 278 256) (bitsOf d 310 288) slots rows &&
    es.all (fun e => e.rank == 0 || decide (64 < e.rank) || s.adOperandOk c e.recA e.rank k)) .badFormat).next fun s _ =>
  (if sw.en then s.needSlot c sw sw.fmt sw.gs (k / groupLen xf xgs) else .go s ()).next fun s _ =>
  (s.needGang c fd.word).next fun s _ =>
  (s.need (s.bank c (cmdArray fd.word) (cmdBank fd.word) == bankEmpty) .stateConflict).next fun s _ =>
  (s.needCompat c [cmdArray fd.word] false).next fun s _ =>
  .go s { x := x, h := h, xf := xf, src := src,
          use := if sw.en then some (s.slotUse c rqArray sw xf (factorOf xf x.f)) else none,
          rows := rows, slots := slots, list := bitsOf d 278 256, idx := bitsOf d 310 288, k := k }

/-- A SEG_DOWN's descriptor read and checked; K, which no field of the command states, is a free multiple of 128 (log 29). -/
def State.segDownParse (s : State) (c : Nat) (fd : Fetched) : Step SegDownOp :=
  (s.need (gangOk fd.word && cmdGang fd.word == 0) .badFormat).next fun s _ =>
  (s.readDesc c fd.word).next fun s d => (s.draw).segDownChecks c fd d (128 * (1 + s.freeVal % 512))

/-- The encoded h of one row: its data bytes and its scale records (R73), and the encoded groups. -/
def hRow (hf : Fmt) (r pad tag g : Nat) (vals : List Num) : List Byte × List Byte × List GroupEnc :=
  if hf = .bf16 then ((vals.map toBf16 ++ List.replicate (pad - r) 0).flatMap (leBytes 2), [], [])
  else
    let es := (List.range (pad / 32)).map (fun j =>
      encodeGroup hf .one 0 0 32 false (fun _ => .near) .jit ((vals.drop (32 * j)).take 32))
    (es.flatMap (fun e => packCodes 8 e.codes),
      ((List.range (pad / 32)).zip es).flatMap (fun p => leBytes 2 (scaleRecord 0 (tag + g + p.1) p.2.scale)), es)

/-- The products of one slot as a chain of their own (R73): its rows through the K-chunks of A, which take `rank` columns, in the
cells and check cells of one array. -/
def segDownChain (free : Nat → Nat) (o : SegDownOp) (tol j : Nat) (e : AdEntry) (af : Fmt) (a : List (List Elem))
    (rows : List (Nat × List Elem)) : Chain :=
  let fx := factorOf o.xf o.x.f
  let int := af == .int8 && o.xf == .int8
  let T := match pairClass o.xf af with
    | some cl => cl.tileK
    | none => 128
  let chunks := List.range ((o.k + T - 1) / T)
  let u := unitLen af o.xf e.aGs (match o.use with
    | some v => v.gs
    | none => o.x.gs)
  let xrow := fun i => ((rows.find? (fun r => r.1 == i)).map (·.2)).getD []
  let part := fun (l : List Elem) (t : Nat) => (l.drop (t * T)).take T
  let cells := (addTiles int u .one fx (fun i n t => (part (a.getD n []) t).zip (part (xrow i) t)) [] {}
    (chunks.flatMap (fun t => rows.flatMap (fun r => (List.range e.rank).map (fun n => (r.1, n, t)))))).1
  let lanes := laneTiles free int (4 * T) [] 0 (chunks.map (fun t =>
    (j, rows.map (fun r => (r.1, (part r.2 t).map (fun x => x.value fx))), a.map (fun c => (part c t).map (fun w => w.value .one)))))
  { cmds := [], rows := o.rows, gang := 0, compat := false, int := int, f := toFp32 fx, tol := tol, cells := cells, lanes := lanes }

/-- A row of h before its encode (R73): alpha times the compared results, in FP32. -/
def segRow (x : Chain) (cells : Tbl Acc) (alpha rank i : Nat) : List Num :=
  (List.range rank).map (fun n => rneFp32 ((ofFp32 alpha).mul ((Tbl.at cells (cellKey i n) {}).result x.int x.f)))

/-- NaN groups of h counted one after another. -/
def State.countNans (s : State) (c : Nat) : List GroupEnc → State
  | [] => s
  | e :: es => State.countNans (s.countNan c none e) c es

/-- What a run of a SEG_DOWN gives: a failed read with its FMT and GS, the lines of the first slot that mismatch, and the
writes of h. -/
structure SegDownGot where
  st     : State
  fail   : Option (ReadFail × Nat × Nat)
  int    : Bool
  bad    : List Line
  writes : List Store

/-- Slots of a SEG_DOWN one after another, in list order (R73): their results pass the compares (R61-R63), then their rows are
encoded; a slot that mismatches ends the run. -/
def State.segDownSlots (s : State) (c j : Nat) (o : SegDownOp) (p : HPitch) (ix : List Nat) (xs : List (Nat × List Elem))
    (upsets : List Upset) : List (Nat × AdEntry) → SegDownGot
  | [] => ⟨s, none, false, [], []⟩
  | (k, e) :: rest =>
    let rows := xs.filter (fun r => ix.getD r.1 0xFF == k)
    if rows = [] then State.segDownSlots s c j o p ix xs upsets rest
    else
      let af := (Fmt.ofCode e.aFmt).getD .bf16
      let hf := (hFmt ((Fmt.ofCode e.bFmt).getD .bf16)).getD .bf16
      let ra := readOperand (sramReader c rqArray) s e.recA af e.rank o.k
      match ra.fail with
      | some f => ⟨ra.st, some (f, e.aFmt, e.aGs), false, [], []⟩
      | none =>
        let x := segDownChain ra.st.freeAt o (s.fld ARRAY_CFG.CHK_TOL c 0) j e af ra.rows rows
        let s1 := ra.st.draw (8 * o.k)
        let g := x.compared s1.freeAt j (upsets.filter (fun u => rows.any (fun r => r.1 == u.row)))
        let s2 := (s1.draw x.compareDraws).countSkips c j (g.lines.filter (·.skip)).length x.int
        let bad := g.lines.filter (fun l => l.bad x.int x.tol)
        if bad ≠ [] then ⟨s2, none, x.int, bad, []⟩
        else
          let out := rows.map (fun r => (r.1, hRow hf e.rank (padRank e.rank) o.h.tag (r.1 * p.grps)
            (segRow x g.cells e.alpha e.rank r.1)))
          let s3 := s2.countNans c (out.flatMap (fun r => r.2.2.2))
          let w := out.flatMap (fun r => [Store.sram (o.h.data + r.1 * p.bytes) r.2.1] ++
            (if r.2.2.1 = [] then [] else [Store.sram (o.h.scale + 2 * (r.1 * p.recs)) r.2.2.1]))
          let m := State.segDownSlots s3 c j o p ix xs upsets rest
          { m with writes := w ++ m.writes }

/-- The zeros of the rows that take no adapter (R73). -/
def zeroRows (o : SegDownOp) (p : HPitch) (mx : Bool) (ix : List Nat) : List Store :=
  ((List.range o.rows).filter (fun r => ix.getD r 0xFF == 0xFF)).flatMap (fun r =>
    [Store.sram (o.h.data + r * p.bytes) (List.replicate p.bytes 0)] ++
    (if mx then [Store.sram (o.h.scale + 2 * (r * p.recs))
      ((List.range p.grps).flatMap (fun j => leBytes 2 (scaleRecord 0 (o.h.tag + r * p.grps + j) 0)))] else []))

/-- The activation rows of a SEG_DOWN that take an adapter, quantised on load where the descriptor says so (R81, R85). -/
def State.segDownX (s : State) (c : Nat) (o : SegDownOp) (ix : List Nat) :
    State × Option (ReadFail × Nat × Nat) × List (Nat × List Elem) × List Nat :=
  let live := (List.range o.rows).filter (fun r => ix.getD r 0xFF != 0xFF)
  match o.use with
  | none =>
    let r := readOperand (sramReader c rqArray) s o.x o.xf o.rows o.k
    (r.st, r.fail.map (fun f => (f, o.x.fmt, o.x.gs)), live.map (fun i => (i, r.rows.getD i [])), [])
  | some u =>
    let r := readOperand (sramReader c rqArray) s o.x o.src o.rows o.k
    match r.fail with
    | some f => (r.st, some (f, o.x.fmt, o.x.gs), [], [])
    | none =>
      let vals := live.map (fun i => (r.rows.getD i []).map (fun e => e.val))
      let g := r.st.guardRows u vals
      if g.2.1 ≠ .ok then (g.1, some (.status g.2.1, o.x.fmt, o.x.gs), [], [])
      else
        let plans := g.2.2.map (fun row => row.map (fun (k : GuardGot) => k.plan))
        let repl := g.2.2.any (fun row => row.any (fun (k : GuardGot) => k.replaced))
        let s1 := if repl && u.stats then g.1.addFld GUARD_STAT.REPLAYS c (8 * u.slot) 1 else g.1
        (s1, none, live.zip (encodeByPlan u plans vals), [u.slot])

/-- A SEG_DOWN's runs (R64, R65, R73): a first mismatch replays it, a second fences the array, and the spare, where there is one,
starts the count afresh; `runs` are the disturbances of each run. A run that passes leaves its writes to its completion, its
scratch bank showing DRAINING until then (log 30). -/
def State.segDownRuns (c : Nat) (fd : Fetched) (o : SegDownOp) (es : List AdEntry) (ix : List Nat) (xs : List (Nat × List Elem))
    (slots : List Nat) : Nat → State → Nat → Bool → List (List Upset) → State
  | 0, s, _, _, _ => (s.finishNow c 0 fd .integrity).arrayCoreFence c
  | n + 1, s, mism, retried, runs =>
    let j := cmdArray fd.word
    let b := cmdBank fd.word
    let p := hPitch o.h es
    let m := s.segDownSlots c j o p ix xs (runs.headD []) ((List.range es.length).zip es)
    match m.fail, m.bad with
    | some (f, fmt, gs), _ => m.st.readAbort c fd fmt gs f
    | none, [] =>
      ((if retried then m.st.addFld ARRAY_STAT.RETRY_PASS c 0 1 else m.st).start c 0
        { index := fd.index, word := fd.word, slots := slots, scratch := some (j, b),
          writes := m.writes ++ zeroRows o p (es.any (fun e => e.bFmt != 0)) ix }).setBanks c b bankDraining [j]
    | none, bad =>
      let s1 := m.st.setFld ARRAY_STAT.LAST_MISMATCH c 0 (m.st.physArray c j)
      if mism = 0 then
        State.segDownRuns c fd o es ix xs slots n (s1.retryEvent c j b m.int (s.fld ARRAY_CFG.CHK_TOL c 0) bad) 1 true (runs.drop 1)
      else
        let r := s1.arraySpareIn c j b
        if r.2 then State.segDownRuns c fd o es ix xs slots n r.1 0 false (runs.drop 1)
        else (r.1.finishNow c 0 fd .integrity).arrayCoreFence c

/-- The disturbances of one run of a SEG_DOWN, spelled by a free value: the command brings none of its own, and whether faults
strike, and where, is free (log 110). -/
def upsetsOf (k : Nat) : List Upset :=
  (List.range (k % 2 ^ 16)).map (fun i =>
    let w := k / 2 ^ (16 + 64 * i)
    { row := bitsOf w 6 0, col := bitsOf w 13 7, bits := BitVec.ofNat 32 (bitsOf w 45 14),
      own := if w.testBit 46 then some (bitsOf w 48 47) else none })

/-- SEG_DOWN's effect once it issues: the mode it names is in force (R60), and it runs. -/
def State.segDownAct (s : State) (c : Nat) (fd : Fetched) : State :=
  (s.segDownParse c fd).issue c 0 fd fun s o =>
    let s0 := (s.setGang c fd.word).setCompat c false [cmdArray fd.word]
    match s0.readAdapters c o.list o.idx o.slots o.rows (some o.xf) with
    | .stop s' st => s'.finishNow c 0 fd st
    | .go s' (es, ix) =>
      let x := s'.segDownX c o ix
      match x.2.1 with
      | some (f, fmt, gs) => x.1.readAbort c fd fmt gs f
      | none => State.segDownRuns c fd o es ix x.2.2.1 x.2.2.2 6 (x.1.draw 6) 0 false
          ((List.range 6).map (fun r => upsetsOf (x.1.freeAt r)))

/-- A SEG_UP's descriptor checked; with ACC = 0 the output buffer's record beside it. -/
def State.segUpParse (s : State) (c : Nat) (fd : Fetched) : Step (SegUpOp × OpRec) :=
  (s.need (gangOk fd.word && (cmdAcc fd.word || cmdBank fd.word == 0)) .badFormat).next fun s _ =>
  (s.readDesc c fd.word).next fun s d =>
  let h := OpRec.ofBits (bitsOf d 255 128)
  let out := OpRec.ofBits (bitsOf d 511 384)
  let rows := cmdBits fd.word 110 104 + 1
  let cols := 128 * gangN (cmdGang fd.word)
  let slots := cmdBits fd.word 103 98 + 1
  let es := s.adapterPeek c (bitsOf d 278 256) slots
  (s.recFmt c 0 h.fmt h.gs h.f).next fun s hf =>
  (if cmdAcc fd.word then .go s () else
    s.needFmt c 0 out.fmt out.gs (orReason (fmtReason out.fmt out.gs) (if out.fmt = 2 then none else some 0))).next fun s _ =>
  (s.need (bitsOf d 127 0 == 0 && bitsOf d 287 279 == 0 && bitsOf d 383 311 == 0 && h.shapeOk hf && h.scale % 64 == 0 &&
    bitsOf d 278 256 % 64 == 0 && adRangesOk h es (bitsOf d 278 256) (bitsOf d 310 288) slots rows &&
    es.all (fun e => e.rank == 0 || decide (64 < e.rank) || s.adOperandOk c e.recB cols (padRank e.rank)) &&
    (if cmdAcc fd.word then bitsOf d 511 384 == 0 else
      out.shapeOk .fp32 && out.fits .fp32 rows cols sramSize)) .badFormat).next fun s _ =>
  (s.needGang c fd.word).next fun s _ =>
  (s.needCompat c (cmdArrays fd.word) false).next fun s _ =>
  .go s ({ h := h, rows := rows, slots := slots, list := bitsOf d 278 256, idx := bitsOf d 310 288,
           gang := cmdGang fd.word }, out)

/-- The FP32 values of a buffer row with a SEG_UP's sums added, each with one rounding (R73). -/
def bufRow (cells : Tbl Acc) (free : Nat → Nat) (i : Nat) (row : List Elem) : List Byte :=
  ((List.range row.length).zip row).flatMap (fun p =>
    let a := (Tbl.at cells (cellKey i p.1) {}).settle (free (2 * cellKey i p.1)) (free (2 * cellKey i p.1 + 1))
    leBytes 4 (toFp32 (p.2.val.add (a.result false 0x3F800000))))

/-- SEG_UP with ACC = 0: the sums added into an FP32 buffer (R73). -/
def State.segUpBuf (s : State) (c : Nat) (fd : Fetched) (o : SegUpOp) (out : OpRec) : State :=
  match ((s.setGang c fd.word).setCompat c false (cmdArrays fd.word)).segUpRun c (cmdBase fd.word) o {} with
  | .inl (.stop s' st) => s'.finishNow c 0 fd st
  | .inr (s', f) => s'.readAbort c fd o.h.fmt o.h.gs f
  | .inl (.go s' sums) =>
    let cells := sums.cells
    let r := readOperand (sramReader c rqArray) s' out .fp32 o.rows (128 * gangN o.gang)
    match r.fail with
    | some f => r.st.readAbort c fd out.fmt out.gs f
    | none =>
      let live := (List.range o.rows).filter (fun i => cells.any (fun k => k.1 / 512 == i))
      let w : List Store := live.map (fun i => .sram (out.data + i * out.rowStep .fp32 (128 * gangN o.gang))
        (bufRow cells r.st.freeAt i (r.rows.getD i [])))
      (r.st.draw (2 * 512 * 128)).start c 0 { index := fd.index, word := fd.word, writes := w }

/-- SEG_UP's effect once it issues. -/
def State.segUpAct (s : State) (c : Nat) (fd : Fetched) : State :=
  (s.segUpParse c fd).issue c 0 fd fun s o =>
    if cmdAcc fd.word then
      s.writeBank c fd (fun s => (s, none, .segUp o.1, false)) false true (some o.1.rows) false 0x3F800000 []
    else s.segUpBuf c fd o.1 o.2

/-! ## Commands -/

/-- MMA (R55). -/
def execMma (core : Nat) (s : State) : Host.Outcome State Fault Refusal :=
  .next (s.issue core 0 5 0 (fun f => s.slotReady core f.word 256) (fun f t => t.mmaAct core f))

/-- DRAIN (R56). -/
def execDrain (core : Nat) (s : State) : Host.Outcome State Fault Refusal :=
  .next (s.issue core 0 5 1 (fun _ => true) (fun f t => t.drainAct core f))

/-- DISCARD (R56). -/
def execDiscard (core : Nat) (s : State) : Host.Outcome State Fault Refusal :=
  .next (s.issue core 0 5 2 (fun _ => true) (fun f t => t.discardAct core f))

/-- OPX (R66). -/
def execOpx (core : Nat) (s : State) : Host.Outcome State Fault Refusal :=
  .next (s.issue core 0 5 3 (fun _ => true) (fun f t => t.opxAct core f))

/-- EWOP (R68). -/
def execEwop (core : Nat) (s : State) : Host.Outcome State Fault Refusal :=
  .next (s.issue core 0 5 4 (fun _ => true) (fun f t => t.ewopAct core f))

/-- SEG_DOWN (R73). -/
def execSegDown (core : Nat) (s : State) : Host.Outcome State Fault Refusal :=
  .next (s.issue core 0 5 5 (fun f => s.slotReady core f.word 320) (fun f t => t.segDownAct core f))

/-- SEG_UP (R73). -/
def execSegUp (core : Nat) (s : State) : Host.Outcome State Fault Refusal :=
  .next (s.issue core 0 5 6 (fun _ => true) (fun f t => t.segUpAct core f))

/-- CHAIN_STREAM_END (R85): the last command of a draining chain has streamed; a chain that breached is replayed once. -/
def execChainStreamEnd (core array bank : Nat) (s : State) : Host.Outcome State Fault Refusal :=
  .next (match s.chainAt core array bank with
    | some (base, x) => if x.drain.isSome && x.breach then s.replay core base bank x else s
    | none => s)

/-- DRAIN_COMPARE (R62): one accumulating array's compare at its drain, once the guard has decided (R55). -/
def execDrainCompare (core array bank : Nat) (upsets : List Upset) (s : State) : Host.Outcome State Fault Refusal :=
  .next (match s.chainAt core array bank with
    | some (base, x) =>
      if x.drain.isSome && !x.breach && !x.passed.contains array then
        s.compare core base bank array x upsets (fun t y => t.setChain core base bank { y with passed := y.passed ++ [array] })
      else s
    | none => s)

/-- DRAIN_COMMIT (R55, R57): once every accumulating array has passed. -/
def execDrainCommit (core array bank : Nat) (s : State) : Host.Outcome State Fault Refusal :=
  .next (match s.chainAt core array bank with
    | some (base, x) =>
      match x.drain with
      | some d =>
        if !x.breach && (gangBanks x.gang base).all x.passed.contains then s.commitChain core base bank x d else s
      | none => s
    | none => s)

/-- ARRAY_INPLACE_COMPARE (R63): a compare of a bank in place; nothing follows a pass. -/
def execArrayInplaceCompare (core array bank : Nat) (upsets : List Upset) (s : State) : Host.Outcome State Fault Refusal :=
  .next (match s.chainAt core array bank with
    | some (base, x) => s.compare core base bank array x upsets (fun t y => t.setChain core base bank y)
    | none => s)

end Sys2Proof.Machine
end

