-- ==== Sys2Proof/Machine/MvPath.lean ====
section
/-! DEFINITION. The matrix-vector path (R69-R72, R112): MVM, its block checks, restreams and fence. -/

namespace Sys2Proof.Machine

/-- The core's DRAM slice as a reader (R69). -/
def sliceReader (c : Nat) : Reader := fun s off n => s.sliceRead c (off % 2 ^ 30) n (coreNo c)

/-- Bytes of a slice. -/
def sliceSize : Nat := 2 ^ 30

/-- Outputs of a block that are narrowed to FP32 or BF16. -/
def mvSize (ofmt : Nat) : Nat := if ofmt = 0 then 4 else 2

/-- The descriptor bits that must be zero (R112). -/
def mvZero (d : Nat) : Bool :=
  bitsOf d 511 448 == 0 && bitsOf d 415 407 == 0 && bitsOf d 255 193 == 0 && bitsOf d 127 126 == 0 && bitsOf d 95 94 == 0 &&
  bitsOf d 63 62 == 0 && bitsOf d 31 30 == 0

/-- The weight record of an MVM descriptor; offsets are slice offsets. -/
def mvWeights (d : Nat) : OpRec :=
  { f := bitsOf d 159 128, esc := bitsOf d 93 64, scale := bitsOf d 61 32, data := bitsOf d 29 0, tag := bitsOf d 169 166,
    gs := bitsOf d 165 164, fmt := bitsOf d 163 160, rstride := 0, mbz := true }

/-- Bytes of one activation vector, scale records included (R69). -/
def vecBytes (f : Fmt) (gs k : Nat) : Nat := rowBytes f gs k + (if f.scaled then 2 * rowGroups f gs k else 0)

/-- An MVM's descriptor checked (R69, R71, R112). -/
def State.mvParse (s : State) (c : Nat) (fd : Fetched) : Step (MvOp × SlotWord) :=
  (s.readDesc c fd.word).next fun s d =>
  let w := mvWeights d
  let x := OpRec.ofBits (bitsOf d 383 256)
  let sw := SlotWord.ofBits (bitsOf d 447 416)
  let b := cmdBits fd.word 110 108 + 1
  let brows := 512 * 2 ^ cmdBits fd.word 107 106
  let add := cmdBits fd.word 105 105 == 1
  let ofmt := cmdBits fd.word 104 103
  let k := 32 * (bitsOf d 192 182 + 1)
  let n := bitsOf d 181 170 + 1
  let out := bitsOf d 406 384
  let chk := bitsOf d 125 96
  (s.need (mvZero d && sw.mbz && decide (ofmt ≤ 1) && (!add || ofmt == 0)) .badFormat).next fun s _ =>
  (s.recFmt c 0 w.fmt w.gs w.f).next fun s wf =>
  (s.xTarget c 0 x sw).next fun s (src, xf, xgs) =>
  (s.needFmt c 0 w.fmt w.gs (if (pairClass wf xf).isSome then none else some 1)).next fun s _ =>
  (s.needLevel c [wf, xf]).next fun s _ =>
  (s.need (k % groupLen wf w.gs == 0 && decide (brows * k ≤ (if wf = .bf16 then 2 ^ 22 else 2 ^ 23)) && w.shapeOk wf &&
    x.shapeOk src && out % 64 == 0 && chk % 64 == 0 && w.fits wf n k sliceSize &&
    decide (chk + (n + brows - 1) / brows * (8 * k) ≤ sliceSize) && x.fits src b k sramSize &&
    decide (b * vecBytes src x.gs k ≤ 2 ^ 18) && decide (out + n * b * mvSize ofmt ≤ sramSize)) .badFormat).next fun s _ =>
  (if sw.en then s.needSlot c sw sw.fmt sw.gs ((k + groupLen xf xgs - 1) / groupLen xf xgs) else .go s ()).next fun s _ =>
  .go s ({ index := fd.index, w := w, x := x, wf := wf, xf := xf, src := src,
           use := if sw.en then some (s.slotUse c rqMvPath sw xf (factorOf xf x.f)) else none, first := [], final := [], n := n,
           k := k, b := b, brows := brows, add := add, ofmt := ofmt, out := out, check := chk, f := pairFactor wf xf w x,
           tol := s.fld ARRAY_CFG.CHK_TOL c 0 }, sw)

/-- A core's running MVM set or ended. -/
def State.setMv (s : State) (c : Nat) (m : Option MvOp) : State := s.setCore c { s.core c with mv := m }

/-- MVM's effect once it issues: it runs until its last block commits. -/
def State.mvAct (s : State) (c : Nat) (fd : Fetched) : State :=
  (s.mvParse c fd).issue c 0 fd fun s om =>
    let o := om.1
    match o.use with
    | none => (s.start c 0 { index := fd.index, word := fd.word, ready := false }).setMv c (some o)
    | some u =>
      let g := s.guardX c o.x o.src u o.b o.k
      match g.2.1 with
      | some st => g.1.finishNow c 0 fd st
      | none =>
        (g.1.start c 0 { index := fd.index, word := fd.word, ready := false, slots := [u.slot] }).setMv c
          (some { o with first := g.2.2.1, final := g.2.2.2, breach := g.2.2.1 != g.2.2.2 })

/-! ## Blocks -/

/-- First row and number of rows of block `j`. -/
def MvOp.first0 (o : MvOp) (j : Nat) : Nat := j * o.brows
def MvOp.rowsOf (o : MvOp) (j : Nat) : Nat := min o.brows (o.n - o.first0 j)
/-- Blocks of the operation. -/
def MvOp.blocks (o : MvOp) : Nat := (o.n + o.brows - 1) / o.brows

/-- The weight record of block `j`; its escapes begin where the last block's ended. -/
def MvOp.blockRec (o : MvOp) (j : Nat) : OpRec :=
  let g := o.first0 j * rowGroups o.wf o.w.gs o.k
  { o.w with data := o.w.data + o.first0 j * rowBytes o.wf o.w.gs o.k, scale := o.w.scale + 2 * g, tag := (o.w.tag + g) % 16 }

/-- A skew within a block names the group of the whole stream. -/
def ReadFail.shift (g : Nat) : ReadFail → ReadFail
  | .skew k => .skew { k with group := k.group + g }
  | f => f

/-- What a block's streams bring: weights, activations, and the two check vectors; a failed read with its FMT and GS. -/
structure MvRead where
  st   : State
  fail : Option (ReadFail × Nat × Nat)
  w    : List (List Elem)
  x    : List (List Elem)
  c    : List Num
  a    : List Num

/-- A block streamed (R71, R85): its weights and check vectors from the slice, the activations from SRAM. -/
def State.mvRead (s : State) (c : Nat) (o : MvOp) : MvRead :=
  let wr := readOperand (sliceReader c) s (o.blockRec o.block) o.wf (o.rowsOf o.block) o.k
  match wr.fail with
  | some f => ⟨wr.st, some (f.shift (o.first0 o.block * rowGroups o.wf o.w.gs o.k), o.w.fmt, o.w.gs), wr.rows, [], [], []⟩
  | none =>
    let xr := wr.st.readX c rqMvPath o.x o.src o.use (if o.breach then o.first else o.final) o.b o.k
    match xr.fail with
    | some f => ⟨xr.st, some (f, o.x.fmt, o.x.gs), wr.rows, [], [], []⟩
    | none =>
      let ck := sliceReader c xr.st (o.check + 8 * o.k * o.block) (8 * o.k)
      if ck.status ≠ .ok then ⟨ck.st, some (.status ck.status, o.w.fmt, o.w.gs), wr.rows, [], [], []⟩
      else
        let v := (unpackCodes 32 (2 * o.k) ck.data).map ofFp32
        ⟨ck.st, none, wr.rows, xr.rows, v.take o.k, v.drop o.k⟩

/-- Escape codes among decoded rows. -/
def escCount (w : List (List Elem)) : Nat := (w.map (fun row => (row.filter (·.esc)).length)).sum

/-- A channel that the streaming block reads from is not ready, and the path stalls (R69): weight data, scale records, the
escapes the block takes, and check vectors. -/
def State.mvStalled (s : State) (c : Nat) (o : MvOp) : Bool :=
  let b := o.blockRec o.block
  let n := o.rowsOf o.block
  s.sliceHeld c b.data (n * rowBytes o.wf b.gs o.k) ||
  (o.wf.scaled && s.sliceHeld c b.scale (2 * (n * rowGroups o.wf b.gs o.k))) ||
  s.sliceHeld c (o.check + 8 * o.k * o.block) (8 * o.k) ||
  s.sliceHeld c b.esc (2 * escCount (s.mvRead c o).w)

/-- The outputs of a block over its first `k` entries: row by row, vector by vector (R45, R46), disturbed by faults. -/
def MvOp.outs (o : MvOp) (k : Nat) (w x : List (List Elem)) (free : Nat → Nat) (upsets : List Upset) : List (List Acc) :=
  let int := o.wf == .int8
  let u := unitLen o.wf o.xf o.w.gs (match o.use with
    | some v => v.gs
    | none => o.x.gs)
  ((List.range w.length).zip w).map (fun r => ((List.range x.length).zip x).map (fun v =>
    let a := (({} : Acc).tile int u (factorOf o.wf o.w.f) (factorOf o.xf o.x.f) ((r.2.take k).zip (v.2.take k))).settle
      (free (2 * (8 * r.1 + v.1))) (free (2 * (8 * r.1 + v.1) + 1))
    (upsets.filter (fun p => p.row == r.1 && p.col == v.1)).foldl (fun (a : Acc) p =>
      if int then { a with int := signedOf 32 (unsignedOf 32 a.int ^^^ p.bits.toNat) }
      else { a with main := a.main ^^^ p.bits.toNat }) a))

/-- What the compare of one vector finds (R71, R62): a mismatch, or that it is left out. -/
def MvOp.judge (o : MvOp) (k : Nat) (outs : List Acc) (x : List Elem) (cv av : List Num) : Bool × Bool :=
  let int := o.wf == .int8
  let vals := (x.take k).map (fun e => e.value (factorOf o.xf o.x.f))
  let ys := outs.map (fun a => a.result int o.f)
  let sum := Num.sum ys
  let chk := Num.sum ((cv.zip vals).map (fun p => p.1.mul p.2))
  let bound := Num.sum ((av.zip vals).map (fun p => p.1.mul p.2.abs))
  let skip := !(ys.all Num.isFinite && sum.isFinite && chk.isFinite && bound.isFinite) || (int && outs.any (·.sat))
  let band := if int then Num.zero else (bound.mul (.pow2 (-o.tol))).add (.pow2 (-126))
  (!skip && band.lt (sum.sub chk).abs, skip)

/-- Column `v` of a block's outputs. -/
def column (outs : List (List Acc)) (v : Nat) : List Acc := outs.map (fun r => r.getD v {})

/-- The verdicts of every vector of a block. -/
def MvOp.verdicts (o : MvOp) (k : Nat) (outs : List (List Acc)) (x : List (List Elem)) (cv av : List Num) : List (Bool × Bool) :=
  (List.range o.b).map (fun v => o.judge k (column outs v) (x.getD v []) cv av)

/-- A restream that carries out the guard's replay is counted (R89). -/
def State.mvReplay (s : State) (c : Nat) (o : MvOp) : State :=
  match o.use with
  | some u => if o.breach && u.stats then s.addFld GUARD_STAT.REPLAYS c (8 * u.slot) 1 else s
  | none => s

/-- A block mismatch (R72): the first restreams the block, the second fences the core. Which mismatching vector the record
names is free. -/
def State.mvMismatch (s : State) (c : Nat) (o : MvOp) (bad : List Nat) : State :=
  let v := bad[s.freeVal % bad.length]?.getD 0
  let s1 := (s.draw).setFld ARRAY_STAT.LAST_MISMATCH c 0 8
  if o.mism = 0 then
    (s1.raise .MV_CHK_MISMATCH (siteOf c) (coreNo c) [(1, o.block), (1, v), (1, 0)]).setMv c
      (some { o with mism := 1, breach := false })
  else
    let s2 := ((s1.setMv c none).complete0 c o.index .integrity).raise .MV_CHK_MISMATCH (siteOf c) (coreNo c)
      [(1, o.block), (1, v), (1, 1)] { sev := some 2 }
    (s2.raise .ARRAY_CORE_FENCED (siteOf c) (coreNo c) [(1, 2)]).fenceCore c causeMvPath

/-- The output bytes of a block's rows for one vector. -/
def MvOp.bytes (o : MvOp) (ys : List Num) : List Byte :=
  ys.flatMap (fun y => leBytes (mvSize o.ofmt) (if o.ofmt = 0 then toFp32 y else toBf16 y))

/-- A block's rows written for the listed vectors, added into the buffer where ADD is 1 (R69); a POISON ends them. -/
def State.mvWrite (s : State) (c : Nat) (o : MvOp) (outs : List (List Acc)) : List Nat → State × Status
  | [] => (s, .ok)
  | v :: vs =>
    let ys := (column outs v).map (fun a => a.result (o.wf == .int8) o.f)
    let off := o.out + (v * o.n + o.first0 o.block) * mvSize o.ofmt
    let old := s.localRead c off (4 * ys.length) rqMvPath
    if o.add && old.status != .ok then (old.st, old.status)
    else
      let vals := if o.add then ((unpackCodes 32 ys.length old.data).zip ys).map (fun p => (ofFp32 p.1).add p.2) else ys
      let p := (if o.add then old.st else s).localWrite c off (o.bytes vals) rqMvPath
      if p.status ≠ .ok then (p.st, p.status) else State.mvWrite p.st c o outs vs

/-- The MVM ends with a status. -/
def State.mvEnd (s : State) (c : Nat) (o : MvOp) (st : Status) : State := (s.setMv c none).complete0 c o.index st

/-- The MVM's unit has finished: only its completion is outstanding. -/
def State.mvReady (s : State) (c : Nat) (o : MvOp) : State :=
  let s1 := s.setMv c none
  s1.setQueue c 0 { s1.queue c 0 with
    inflight := (s1.queue c 0).inflight.map (fun x => if x.index = o.index then { x with ready := true } else x) }

/-- A block that passed commits (R72): its rows are written, and the next block streams. -/
def State.mvCommit (s : State) (c : Nat) (o : MvOp) (outs : List (List Acc)) (escs : Nat) : State :=
  let s1 := if o.mism = 0 then s else s.addFld ARRAY_STAT.MV_RETRY c 0 1
  let p := s1.mvWrite c o outs (List.range o.b)
  if p.2 ≠ .ok then p.1.mvEnd c o p.2
  else if o.block + 1 < o.blocks then
    p.1.setMv c (some { o with block := o.block + 1, mism := 0, w := { o.w with esc := o.w.esc + 2 * escs } })
  else p.1.mvReady c o

/-- Saturations of a block's first stream counted (R46). -/
def satsOf (o : MvOp) (outs : List (List Acc)) : SatCount :=
  let hits := ((List.range outs.length).zip outs).filter (fun r => r.2.any (·.sat))
  ⟨(outs.map (fun r => (r.filter (·.sat)).length)).sum, ((hits.getLast?).map (fun r => o.first0 o.block + r.1)).getD 0⟩

/-- CHK_SKIP of the path: the record's logical array is free. -/
def State.mvSkips (s : State) (c n : Nat) (int : Bool) : State := (s.draw).countSkips c (s.freeVal % 256) n int

/-- The check at the end of the streaming block (R71, R72, R85). -/
def State.mvCheck (s : State) (c : Nat) (o : MvOp) (upsets : List Upset) : State :=
  let r := s.mvRead c o
  match r.fail with
  | some (f, fmt, gs) =>
    let k := r.st.readFailed c 0 fmt gs f
    k.1.mvEnd c o k.2
  | none =>
    let outs := o.outs o.k r.w r.x r.st.freeAt upsets
    let s1 := r.st.draw (2 * 8 * 4096)
    let s2 := if o.mism = 0 ∧ (o.block ≠ 0 ∨ o.breach = true ∨ o.first = o.final) then s1.countSat c (satsOf o outs) else s1
    let vs := o.verdicts o.k outs r.x r.c r.a
    let bad := (List.range o.b).filter (fun v => (vs.getD v (false, false)).1)
    let s3 := s2.mvSkips c (vs.filter (·.2)).length (o.wf == .int8)
    let s4 := s3.mvReplay c o
    if bad ≠ [] then s4.mvMismatch c o bad
    else if o.breach then s4.setMv c (some { o with breach := false })
    else s4.mvCommit c o outs (escCount r.w)

/-- The compare in place over the K range streamed so far (R71). -/
def State.mvPartial (s : State) (c : Nat) (o : MvOp) (k : Nat) (upsets : List Upset) : State :=
  let r := s.mvRead c o
  match r.fail with
  | some (f, fmt, gs) =>
    let k := r.st.readFailed c 0 fmt gs f
    k.1.mvEnd c o k.2
  | none =>
    let outs := o.outs k r.w r.x r.st.freeAt upsets
    let vs := o.verdicts k outs r.x (r.c.take k) (r.a.take k)
    let bad := (List.range o.b).filter (fun v => (vs.getD v (false, false)).1)
    let s1 := (r.st.draw (2 * 8 * 4096)).mvSkips c (vs.filter (·.2)).length (o.wf == .int8)
    if bad ≠ [] then (s1.mvReplay c o).mvMismatch c o bad else s1

/-! ## Commands -/

/-- MVM (R69): the path runs one at a time. -/
def execMvm (core : Nat) (s : State) : Host.Outcome State Fault Refusal :=
  .next (s.issue core 0 6 0 (fun f => (s.core core).mv.isNone && s.slotReady core f.word 416) (fun f t => t.mvAct core f))

/-- MV_BLOCK_CHECK (R71): a block whose streams meet a channel that retrains has not ended (R69). -/
def execMvBlockCheck (core : Nat) (upsets : List Upset) (s : State) : Host.Outcome State Fault Refusal :=
  .next (match (s.core core).mv with
    | some o => if s.mvStalled core o then s else s.mvCheck core o upsets
    | none => s)

/-- MV_INPLACE_COMPARE (R71): over whole units of the first `k` entries of K, streamed already; it runs while the path stalls,
too. -/
def execMvInplaceCompare (core k : Nat) (upsets : List Upset) (s : State) : Host.Outcome State Fault Refusal :=
  .next (match (s.core core).mv with
    | some o => if k ≤ o.k then s.mvPartial core o (k - k % 32) upsets else s
    | none => s)

end Sys2Proof.Machine
end

