-- ==== Sys2Proof/Machine/Real.lean ====
section
/-! DEFINITION. FP32 arithmetic of the vector unit and the attention engine (R48): rounded operations, and exp, reciprocal and
reciprocal square root within 2 ulp, which result within the bound being free (log 12). -/

namespace Sys2Proof.Machine

/-- A NaN keeps its sign, any other value is rounded to FP32. -/
def widen (x : Num) : Num :=
  match x with
  | .nan n => .nan n
  | y => rneFp32 y

/-- Rounded FP32 operations. -/
def fAdd (x y : Num) : Num := rneFp32 (x.add y)
def fMul (x y : Num) : Num := rneFp32 (x.mul y)
def fFma (x y z : Num) : Num := rneFp32 ((x.mul y).add z)

/-- x * y + z * w in one of the ways R48's operations form it: both products rounded, or either one fused. -/
def fDot2 (free : Nat) (x y z w : Num) : Num :=
  match free % 3 with
  | 0 => fAdd (fMul x y) (fMul z w)
  | 1 => fFma x y (fMul z w)
  | _ => fFma z w (fMul x y)

/-- The larger of two; which of two zeros, and what a NaN gives beside a number, no rule states (free). -/
def fMax (free : Nat) (x y : Num) : Num :=
  match x, y with
  | .nan _, .nan _ => .nan false
  | .nan _, b => if free % 2 = 0 then .nan false else b
  | a, .nan _ => if free % 2 = 0 then .nan false else a
  | a, b => if a.lt b then b else if b.lt a then a else if free % 2 = 0 then a else b

/-- A positive value truncated to m * 2^e, exact or not, with an error of at most 2 ulp chosen by a free number (R48). -/
def within2 (neg exact : Bool) (m : Nat) (e : Int) (free : Nat) : Num :=
  let f := codeOf 23 (-149) (.draw 0) m e
  let back := magOf 23 (-149) false f
  let whole := exact && !(back.lt (.fin false m e)) && !((Num.fin false m e).lt back)
  let lo := if whole then 2 else 1
  let n := if whole then 5 else 4
  if flFp32.top < f then .inf neg
  else magOf 23 (-149) neg (min flFp32.top (f + free % n - lo))

/-- The integer square root, from `k` bits down. -/
def isqrtFrom (n : Nat) : Nat → Nat → Nat
  | 0, r => r
  | k + 1, r => let t := r + 2 ^ k; isqrtFrom n k (if t * t ≤ n then t else r)

def isqrt (n : Nat) : Nat := isqrtFrom n (n.log2 / 2 + 1) 0

/-- 1 / x (R48). -/
def fRecip (free : Nat) (x : Num) : Num :=
  match x with
  | .nan _ => .nan false
  | .inf n => .fin n 0 0
  | .fin n m e =>
    if m = 0 then .inf n
    else let d := divSticky 1 0 m e; within2 n (d.1 % 2 == 0) d.1 d.2 free

/-- 1 / sqrt(x) (R48); of a zero, the infinity that IEEE 754 gives its square root's reciprocal. -/
def fRsqrt (free : Nat) (x : Num) : Num :=
  match x with
  | .nan _ => .nan false
  | .inf n => if n then .nan false else .fin false 0 0
  | .fin n m e =>
    if m = 0 then .inf n
    else if n then .nan false
    else
      let m' := if e % 2 = 0 then m else 2 * m
      let e' := if e % 2 = 0 then e else e - 1
      let k := 64 + m'.log2
      let r := isqrt (2 ^ (2 * k) / m')
      let exact := r * r * m' == 2 ^ (2 * k)
      within2 false exact (if exact then 2 * r else 2 * r + 1) (-(e' / 2) - k - 1) free

/-- ln 2 in units of 2^-192. -/
def ln2Fix : Nat := 0xB17217F7D1CF79ABC9E3B39803F2F6AF40F343267298B62D

/-- The Taylor terms of exp of `r` (units of 2^-192), from term `i` on. -/
def expTerms (r : Nat) : Nat → Nat → Nat → Nat
  | 0, _, _ => 0
  | k + 1, i, t => t + expTerms r k (i + 1) (t * r / 2 ^ 192 / (i + 1))

/-- exp of a number in (-104, 89) in fixed point: mantissa and exponent. -/
def expFix (neg : Bool) (m : Nat) (e : Int) : Nat × Int :=
  let x : Int := scaledInt neg (if e < -192 then m / 2 ^ (-(e + 192)).toNat else m) (max e (-192)) (-192)
  let k := x / (ln2Fix : Int)
  let r := (x - k * (ln2Fix : Int)).toNat
  (expTerms r 48 0 (2 ^ 192), k - 192)

/-- exp x (R48). -/
def fExp (free : Nat) (x : Num) : Num :=
  match x with
  | .nan _ => .nan false
  | .inf n => if n then .fin false 0 0 else .inf false
  | .fin n m e =>
    if m = 0 then within2 false true 1 0 free
    else if !n && (Num.fin false 8872 0).lt (Num.mul (.fin false m e) (.fin false 100 0)) then .inf false
    else if n && (Num.fin false 10397 0).lt (Num.mul (.fin false m e) (.fin false 100 0)) then .fin false 0 0
    else let t := expFix n m e; within2 false false t.1 t.2 free

/-- A list summed pairwise in a free tree of rounded additions (R47, R113). -/
def sumTree : Nat → List Num → Nat → Num
  | 0, l, _ => l.headD .zero
  | _ + 1, [], _ => .zero
  | _ + 1, [x], _ => x
  | n + 1, x :: y :: l, code =>
    let all := x :: y :: l
    let i := code % all.length
    let l1 := all.eraseIdx i
    let j := code / all.length % l1.length
    sumTree n (fAdd (all.getD i .zero) (l1.getD j .zero) :: l1.eraseIdx j) (code / all.length / l1.length)

/-- The sum of a list in a free order. -/
def fSum (free : Nat) (l : List Num) : Num := sumTree l.length l free

end Sys2Proof.Machine
end

