-- ==== Sys2Proof/Machine/Vector.lean ====
section
/-! DEFINITION. The vector unit (R48, R113): descriptors, rows and the thirteen operations. -/

namespace Sys2Proof.Machine

/-- The vector operations (R113), in the order of their codes. -/
inductive VOp where
  | add | mul | axpby | max | exp | recip | rsqrt | rowsum | rowmax | rmsnorm | rope | gate | cvt
  deriving DecidableEq, Repr

/-- The operation uses the B record. -/
def VOp.usesB : VOp → Bool
  | .add | .mul | .axpby | .max | .rmsnorm | .rope | .gate => true
  | _ => false

/-- The operation writes one value per row. -/
def VOp.reduces : VOp → Bool
  | .rowsum | .rowmax => true
  | _ => false

/-- A vector command's checked operands. -/
structure VecOp where
  op    : VOp
  a     : OpRec
  b     : OpRec
  out   : OpRec
  af    : Fmt
  bf    : Fmt
  outf  : Fmt
  rows  : Nat
  cols  : Nat
  bcast : Bool
  p0    : Num
  p1    : Num
  use   : Option SlotUse

/-- BF16, FP16 and FP32: the formats the vector unit computes with. -/
def plainFmt (f : Fmt) : Bool := f == .bf16 || f == .fp16 || f == .fp32

/-- A record's format for the vector unit: R31 (a scaled format is for CVT only) and R35 with their report, then R113's own
limit. -/
def State.vecFmt (s : State) (c : Nat) (r : OpRec) (any : Bool) : Step Fmt :=
  let f := (Fmt.ofCode r.fmt).getD .bf16
  (s.needFmt c 1 r.fmt r.gs (orReason (fmtReason r.fmt r.gs) (orReason (if any || !f.scaled then none else some 0)
    (factorReason r.fmt r.f)))).next fun s _ =>
  (s.need (any || plainFmt f) .badFormat).next fun s _ => .go s f

/-- A record's streams are aligned and stay in the SRAM. -/
def recOk (r : OpRec) (f : Fmt) (rows cols : Nat) : Bool := r.shapeOk f && r.fits f rows cols sramSize

/-- A vector command's descriptor checked (R31, R35, R78, R109, R113). -/
def State.vecParse (s : State) (c : Nat) (op : VOp) (fd : Fetched) : Step VecOp :=
  (s.readDesc c fd.word).next fun s d =>
  let a := OpRec.ofBits (bitsOf d 127 0)
  let b := OpRec.ofBits (bitsOf d 255 128)
  let o := OpRec.ofBits (bitsOf d 383 256)
  let sw := SlotWord.ofBits (bitsOf d 479 448)
  let rows := cmdBits fd.word 110 96 + 1
  let cols := cmdBits fd.word 95 80 + 1
  let bcast := cmdBits fd.word 79 79 == 1
  (s.vecFmt c a (op == .cvt)).next fun s af =>
  (if op.usesB then s.vecFmt c b false else .go s .bf16).next fun s bf =>
  (s.vecFmt c o (op == .cvt)).next fun s of_ =>
  (s.need (recOk a af rows cols && (!op.usesB || recOk b bf (if bcast then 1 else rows) cols) &&
    recOk o of_ rows (if op.reduces then 1 else cols) && sw.mbz &&
    (!sw.en || (op == .cvt && of_.scaled))) .badFormat).next fun s _ =>
  (s.needLevel c [af, of_]).next fun s _ =>
  (if sw.en then s.needSlot c sw o.fmt o.gs (rowGroups of_ o.gs cols) else .go s ()).next fun s _ =>
  .go s { op := op, a := a, b := b, out := o, af := af, bf := bf, outf := of_, rows := rows, cols := cols, bcast := bcast,
          p0 := ofFp32 (bitsOf d 415 384), p1 := ofFp32 (bitsOf d 447 416),
          use := if sw.en then some (s.slotUse c rqVector sw of_ (factorOf of_ o.f)) else none }

/-! ## One row -/

/-- RMSNORM of a row: the mean of the squares in a free order, each square fused into its sum or not (R48, R113). -/
def rmsRow (free : Nat → Nat) (p0 : Num) (a b : List Num) : List Num :=
  let sq := if free 0 % 2 = 0 then fSum (free 1) (a.map (fun x => fMul x x)) else a.foldl (fun acc x => fFma x x acc) .zero
  let n := a.length
  let mean := ofFp32 (match sq with
    | .fin neg m e => let d := divSticky m e n 0; toFp32 (.fin neg d.1 d.2)
    | y => toFp32 y)
  let r := fRsqrt (free 2) (fAdd mean p0)
  (a.zip b).map (fun p => if free 3 % 2 = 0 then fMul (fMul p.1 r) p.2 else fMul p.1 (fMul r p.2))

/-- ROPE of a row, pair by pair; of an odd last element no rule states the result (free). -/
def ropeRow (free : Nat → Nat) : Nat → List Num → List Num → List Num
  | k, x :: y :: xs, c :: s :: cs =>
    fDot2 (free k) x c y s.neg :: fDot2 (free (k + 1)) x s y c :: ropeRow free (k + 2) xs cs
  | k, _ :: _, _ => [ofFp32 (free k)]
  | _, [], _ => []

/-- a * b / (1 + exp(-a)), the quotient as a product with the reciprocal (R48). -/
def gateElem (free : Nat → Nat) (k : Nat) (a b : Num) : Num :=
  fMul (fMul a b) (fRecip (free (3 * k)) (fAdd .one (fExp (free (3 * k + 1)) a.neg)))

/-- Elements of a row one by one, `k` numbering the free values. -/
def mapFree (f : Nat → Num → Num) : Nat → List Num → List Num
  | _, [] => []
  | k, x :: xs => f k x :: mapFree f (k + 1) xs

/-- The same with two operands. -/
def zipFree (f : Nat → Num → Num → Num) : Nat → List Num → List Num → List Num
  | k, x :: xs, y :: ys => f k x y :: zipFree f (k + 1) xs ys
  | _, _, _ => []

/-- The results of one row as FP32 numbers (R113). -/
def VecOp.row (o : VecOp) (free : Nat → Nat) (a b : List Num) : List Num :=
  match o.op with
  | .add => zipFree (fun _ x y => fAdd x y) 0 a b
  | .mul => zipFree (fun _ x y => fMul x y) 0 a b
  | .axpby => zipFree (fun k x y => fDot2 (free k) o.p0 x o.p1 y) 0 a b
  | .max => zipFree (fun k x y => fMax (free k) x y) 0 a b
  | .exp => mapFree (fun k x => fExp (free k) (fMul o.p0 x)) 0 a
  | .recip => mapFree (fun k x => fRecip (free k) x) 0 a
  | .rsqrt => mapFree (fun k x => fRsqrt (free k) x) 0 a
  | .rowsum => [fSum (free 0) a]
  | .rowmax => [(a.drop 1).foldl (fMax (free 0)) (a.headD .zero)]
  | .rmsnorm => rmsRow free o.p0 a b
  | .rope => ropeRow free 0 a b
  | .gate => zipFree (gateElem free) 0 a b
  | .cvt => a.map widen

/-! ## Writing rows -/

/-- The code of a number in an unscaled output format (R42, R43). -/
def plainCode (f : Fmt) (x : Num) : Nat :=
  match f with
  | .bf16 => toBf16 x
  | .fp16 => flFp16.encode x
  | .int8 => toInt8 x
  | _ => toFp32 x

/-- Output elements per row. -/
def VecOp.outCols (o : VecOp) : Nat := if o.op.reduces then 1 else o.cols

/-- The writes of a row in an unscaled format. -/
def VecOp.plainStore (o : VecOp) (i : Nat) (row : List Num) : List Store :=
  [.sram (o.out.data + i * o.out.rowStep o.outf o.outCols) (packCodes o.outf.bits (row.map (plainCode o.outf)))]

/-- The writes of a row's groups in a scaled format (R36, R37): data, scale records, and its escapes from `ep` on. -/
def VecOp.scaledStore (o : VecOp) (i ep : Nat) (es : List GroupEnc) : List Store :=
  let G := rowGroups o.outf o.out.gs o.cols
  [.sram (o.out.data + i * o.out.rowStep o.outf o.cols) (es.flatMap (fun e => packCodes o.outf.bits e.codes)),
   .sram (o.out.scale + 2 * (i * o.out.recStep o.outf o.cols)) (((List.range es.length).zip es).flatMap (fun p =>
     leBytes 2 (scaleRecord p.2.escs.length (o.out.tag + i * G + p.1) p.2.scale)))] ++
  (if o.outf.isFt4 then [.sram ep (es.flatMap (fun e => e.escs.flatMap (leBytes 2)))] else [])

/-- The writes of encoded rows one after another. -/
def VecOp.scaledRows (o : VecOp) : Nat → Nat → List (List GroupEnc) → List Store
  | _, _, [] => []
  | i, ep, r :: rs =>
    o.scaledStore i ep r ++ o.scaledRows (i + 1) (ep + 2 * (r.map (fun e => e.escs.length)).sum) rs

/-- A row encoded without a slot: just-in-time scales, nearest even (R39-R43). -/
def State.freeRow (s : State) (c : Nat) (o : VecOp) (row : List Num) : List GroupEnc :=
  (groupsOf (groupLen o.outf o.out.gs) row.length row).map
    (encodeGroup o.outf (factorOf o.outf o.out.f) (s.outlierH c) o.outf.escapes (groupLen o.outf o.out.gs)
      (s.fld QUANT_CTRL.E5M2_OVF c 0 == 1) (fun _ => .near) .jit)

/-- NaNs converted to INT8 zero, counted (R43). -/
def State.countNanInt (s : State) (c : Nat) (o : VecOp) (rows : List (List Num)) : State :=
  if o.outf = .int8 then s.addFld FMT_STAT.NAN_TO_INT c 0 ((rows.map (fun r => (r.filter Num.isNan).length)).sum) else s

/-- A vector command's rows: what it writes, the status it completes with, and the state after its reads and measurements
(R373: rows before one that meets POISON are written; a skew or a negative scale writes nothing). -/
structure VecGot where
  st     : State
  status : Status
  writes : List Store

/-- The rows of an operand that were read whole. -/
def wholeRows (r : OpRead) (cols : Nat) : List (List Elem) := r.rows.takeWhile (fun x => x.length == cols)

/-- The results written in the output format, guarded where a slot is named (R81). -/
def State.vecPut (s : State) (c : Nat) (o : VecOp) (st : Status) (rows : List (List Num)) : VecGot :=
  if !o.outf.scaled then
    ⟨s.countNanInt c o rows, st, ((List.range rows.length).zip rows).flatMap (fun p => o.plainStore p.1 p.2)⟩
  else match o.use with
    | none =>
      let es := rows.map (s.freeRow c o)
      ⟨s.countNans c es.flatten, st, o.scaledRows 0 o.out.esc es⟩
    | some u =>
      let g := s.guardRows u rows
      ⟨g.1, if g.2.1 = .ok then st else g.2.1,
        o.scaledRows 0 o.out.esc (g.2.2.map (fun r => r.map (fun (k : GuardGot) => k.final)))⟩

/-- Free values set aside for a row. -/
def rowFree : Nat := 2 ^ 20

/-- A vector command run on its rows. -/
def State.vecRun (s : State) (c : Nat) (o : VecOp) : VecGot :=
  let ra := readOperand (sramReader c rqVector) s o.a o.af o.rows o.cols
  let as := wholeRows ra o.cols
  let rb := if o.op.usesB then
      readOperand (sramReader c rqVector) ra.st o.b o.bf (if o.bcast then 1 else min o.rows (as.length + 1)) o.cols
    else ⟨ra.st, none, []⟩
  let bs := wholeRows rb o.cols
  let n := if !o.op.usesB then as.length else if o.bcast then (if bs = [] then 0 else as.length) else min as.length bs.length
  let fail := if rb.fail.isSome && (o.bcast || decide (bs.length ≤ as.length)) then rb.fail else ra.fail
  let fa := factorOf o.af o.a.f
  let rows := (List.range n).map (fun i => o.row (fun k => rb.st.freeAt (i * rowFree + k))
    ((as.getD i []).map (fun e => widen (e.value fa)))
    ((bs.getD (if o.bcast then 0 else i) []).map (fun e => e.val)))
  let s1 := rb.st.draw (o.rows * rowFree)
  match fail with
  | none => s1.vecPut c o .ok rows
  | some (.status st) => s1.vecPut c o st rows
  | some f =>
    let k := s1.readFailed c 1 o.a.fmt o.a.gs f
    ⟨k.1, k.2, []⟩

/-- A vector command's effect once it issues. -/
def State.vecAct (s : State) (c : Nat) (op : VOp) (fd : Fetched) : State :=
  (s.vecParse c op fd).issue c 1 fd fun s o =>
    let g := s.vecRun c o
    g.st.start c 1 { index := fd.index, word := fd.word, status := g.status, writes := g.writes,
                     slots := match o.use with
                       | some u => [u.slot]
                       | none => [] }

/-- A vector operation at the head of queue 1; a CVT that names a busy slot waits (R86). -/
def State.vector (s : State) (c : Nat) (op : VOp) (code : Nat) : State :=
  s.issue c 1 7 code (fun f => op != .cvt || s.slotReady c f.word 448) (fun f t => t.vecAct c op f)

/-! ## Commands (R113) -/

/-- ADD. -/
def execAdd (core : Nat) (s : State) : Host.Outcome State Fault Refusal := .next (s.vector core .add 0)
/-- MUL. -/
def execMul (core : Nat) (s : State) : Host.Outcome State Fault Refusal := .next (s.vector core .mul 1)
/-- AXPBY. -/
def execAxpby (core : Nat) (s : State) : Host.Outcome State Fault Refusal := .next (s.vector core .axpby 2)
/-- MAX. -/
def execMax (core : Nat) (s : State) : Host.Outcome State Fault Refusal := .next (s.vector core .max 3)
/-- EXP. -/
def execExp (core : Nat) (s : State) : Host.Outcome State Fault Refusal := .next (s.vector core .exp 4)
/-- RECIP. -/
def execRecip (core : Nat) (s : State) : Host.Outcome State Fault Refusal := .next (s.vector core .recip 5)
/-- RSQRT. -/
def execRsqrt (core : Nat) (s : State) : Host.Outcome State Fault Refusal := .next (s.vector core .rsqrt 6)
/-- ROWSUM. -/
def execRowsum (core : Nat) (s : State) : Host.Outcome State Fault Refusal := .next (s.vector core .rowsum 7)
/-- ROWMAX. -/
def execRowmax (core : Nat) (s : State) : Host.Outcome State Fault Refusal := .next (s.vector core .rowmax 8)
/-- RMSNORM. -/
def execRmsnorm (core : Nat) (s : State) : Host.Outcome State Fault Refusal := .next (s.vector core .rmsnorm 9)
/-- ROPE. -/
def execRope (core : Nat) (s : State) : Host.Outcome State Fault Refusal := .next (s.vector core .rope 10)
/-- GATE. -/
def execGate (core : Nat) (s : State) : Host.Outcome State Fault Refusal := .next (s.vector core .gate 11)
/-- CVT. -/
def execCvt (core : Nat) (s : State) : Host.Outcome State Fault Refusal := .next (s.vector core .cvt 12)

end Sys2Proof.Machine
end

