-- ==== Sys2Proof/Machine/Control.lean ====
section
/-! DEFINITION. Commands of a core's queues that need no register bus (R19, R93-R107): tails, fetches, RESUME and SKIP, the
control, sync and check classes, and the message FIFO. -/

namespace Sys2Proof.Machine

/-- A control command at the head of a queue that completes OK at issue. -/
def State.control (s : State) (c q cls op : Nat) (unitOk : Fetched → Bool) (act : Fetched → State → State) : State :=
  s.issue c q cls op unitOk (fun f t => (act f t).finishNow c q f .ok)

/-- The queue's own commands in flight have all completed. -/
def State.quiet (s : State) (c q : Nat) : Bool := (s.queue c q).inflight.isEmpty

/-- HALT's effect (R107): HALTED, CODE and INDEX recorded, the signal performed, one interrupt. -/
def State.haltAct (s : State) (c q : Nat) (f : Fetched) : State :=
  let s1 := ((s.setFld QSTAT.STATE c q qHalted).setFld QSTAT.CODE c q (cmdBits f.word 63 32)).setFld QSTAT.INDEX c q f.index
  (s1.finish c q f.index (BitVec.ofNat 128 (putBits f.word.toNat 31 31 0)) .ok).coreIrq c

/-- MSG's effect (R107). -/
def State.msgAct (s : State) (c q : Nat) (f : Fetched) : State :=
  (s.setCore c { s.core c with msgFifo := (s.core c).msgFifo ++ [(q, cmdBits f.word 63 32)] }).coreIrq c

/-- SEM_SET's effect (R101, R107). -/
def State.semSetAct (s : State) (c q : Nat) (f : Fetched) : State :=
  let p := s.localWrite c (s.semOff c (cmdBits f.word 37 32)) (leBytes 4 (cmdBits f.word 95 64)) rqDma
  p.st.finishNow c q f p.status

/-- FENCE's condition (R105): no command of the queues of QMASK, nor of its own, is in flight. -/
def State.fenceOk (s : State) (c q : Nat) (f : Fetched) : Bool :=
  (List.range 4).all (fun k => !((cmdBits f.word 35 32).testBit k || k == q) || s.quiet c k)

/-- One bit of the reflected CRC-32C. -/
def crcBit (r : Nat) : Nat := if r % 2 = 1 then (r / 2) ^^^ 0x82F63B78 else r / 2

/-- One byte of the reflected CRC-32C (R107). -/
def crcByte (r : Nat) (b : Byte) : Nat := crcBit (crcBit (crcBit (crcBit (crcBit (crcBit (crcBit (crcBit (r ^^^ b.toNat))))))))

/-- CRC-32C: initial and final value 0xFFFF_FFFF. -/
def crc32c (bytes : List Byte) : Nat := bytes.foldl crcByte 0xFFFFFFFF ^^^ 0xFFFFFFFF

/-- CRC's effect (R107). -/
def State.crcAct (s : State) (c q : Nat) (f : Fetched) : State :=
  let base := cmdBits f.word 54 32
  let len := cmdBits f.word 77 55
  let dst := cmdBits f.word 100 78
  if len = 0 ∨ 2 ^ 23 < base + len ∨ dst % 4 ≠ 0 then s.finishNow c q f .badFormat
  else
    let g := s.localRead c base len rqDma
    if g.status ≠ .ok then g.st.finishNow c q f g.status
    else g.st.start c q { index := f.index, word := f.word, writes := [.sram dst (leBytes 4 (crc32c g.data))] }

/-- CMP's effect (R107). -/
def State.cmpAct (s : State) (c q : Nat) (f : Fetched) : State :=
  let addr := cmdBits f.word 54 32
  if addr % 4 ≠ 0 then s.finishNow c q f .badFormat
  else
    let g := s.localRead c addr 4 rqDma
    g.st.finishNow c q f (if g.status ≠ .ok then g.status
      else if leNat g.data &&& cmdBits f.word 127 96 = cmdBits f.word 95 64 then .ok else .aborted)

/-- The wait of a head command reaches its limit (R102). -/
def State.waitLimit (s : State) (c q : Nat) : State :=
  match (s.queue c q).fetched with
  | f :: _ =>
    if s.qState c q = qWaiting ∧ s.fld SEQ_CFG.WAIT_LIMIT c 0 ≠ 0 ∧ (s.queue c q).warned = false ∧ cmdWaitCnt f.word ≠ 0 then
      (s.setQueue c q { s.queue c q with warned := true }).raise .SEQ_WAIT_LONG (siteOf c) (coreNo c)
        [(1, q), (1, cmdWaitSem f.word), (1, cmdWaitCnt f.word)]
    else s
  | [] => s

/-- A read of CORE.MSG_FIFO: the entry it answers, and the FIFO without it (R107). -/
def State.msgPop (s : State) (c : Nat) : State × Word :=
  match (s.core c).msgFifo with
  | (q, t) :: r => (s.setCore c { s.core c with msgFifo := r }, BitVec.ofNat 64 (2 ^ 63 + q % 4 * 2 ^ 32 + t % 2 ^ 32))
  | [] => (s, 0)

/-- A write of CORE.QUANT_CTRL: the generator restarts from SR_SEED, 0 as 1 (R42). -/
def State.quantWrite (s : State) (c : Nat) (v : Word) (mask : Word := BitVec.allOnes 64) : State :=
  let s1 := s.writeRw .QUANT_CTRL c 0 v mask
  let seed := s1.fld QUANT_CTRL.SR_SEED c 0
  if getBits mask 63 32 = 0 then s1 else s1.setCore c { s1.core c with srState := if seed = 0 then 1 else seed }

/-- The corrected lane that waits longest is written back (R19). -/
def State.sramWriteback (s : State) (c : Nat) : State :=
  match (s.core c).sramWb with
  | l :: r =>
    let s1 := s.setCore c { s.core c with sramWb := r }
    if s1.laneMark c l = some .laneCorrectable then s1.setMark (sramByte c (8 * l)) none else s1
  | [] => s

/-! ## Commands -/

/-- TAIL_WRITE (R94). -/
def execTailWrite (core q value : Nat) (s : State) : Host.Outcome State Fault Refusal := .next (s.tailWrite core q value)

/-- RESUME (R100). -/
def execResume (core q : Nat) (sigFailed : Bool) (s : State) : Host.Outcome State Fault Refusal :=
  .next (s.qctl core q false sigFailed)

/-- SKIP (R100). -/
def execSkip (core q : Nat) (sigFailed : Bool) (s : State) : Host.Outcome State Fault Refusal :=
  .next (s.qctl core q true sigFailed)

/-- RING_FETCH_DONE (R95). -/
def execRingFetchDone (core q : Nat) (s : State) : Host.Outcome State Fault Refusal := .next (s.ringFetch core q)

/-- WAIT_LIMIT_EXPIRY (R102). -/
def execWaitLimitExpiry (core q : Nat) (s : State) : Host.Outcome State Fault Refusal := .next (s.waitLimit core q)

/-- NOP (R107). -/
def execNop (core q : Nat) (s : State) : Host.Outcome State Fault Refusal :=
  .next (s.control core q 0 0 (fun _ => true) (fun _ t => t))

/-- HALT (R107). -/
def execHalt (core q : Nat) (s : State) : Host.Outcome State Fault Refusal :=
  .next (s.issue core q 0 1 (fun _ => true) (fun f t => t.haltAct core q f))

/-- MSG (R107): a full FIFO of 16 holds it. -/
def execMsg (core q : Nat) (s : State) : Host.Outcome State Fault Refusal :=
  .next (s.control core q 0 2 (fun _ => decide ((s.core core).msgFifo.length < 16)) (fun f t => t.msgAct core q f))

/-- SEM_WAIT (R107). -/
def execSemWait (core q : Nat) (s : State) : Host.Outcome State Fault Refusal :=
  .next (s.control core q 1 0 (fun _ => true) (fun _ t => t))

/-- SEM_SIG (R107). -/
def execSemSig (core q : Nat) (s : State) : Host.Outcome State Fault Refusal :=
  .next (s.control core q 1 1 (fun _ => true) (fun _ t => t))

/-- SEM_SET (R107). -/
def execSemSet (core q : Nat) (s : State) : Host.Outcome State Fault Refusal :=
  .next (s.issue core q 1 2 (fun _ => true) (fun f t => t.semSetAct core q f))

/-- FENCE (R105). -/
def execFence (core q : Nat) (s : State) : Host.Outcome State Fault Refusal :=
  .next (s.control core q 1 4 (s.fenceOk core q) (fun _ t => t))

/-- CRC (R107). -/
def execCrc (core q : Nat) (s : State) : Host.Outcome State Fault Refusal :=
  .next (s.issue core q 3 1 (fun _ => true) (fun f t => t.crcAct core q f))

/-- CMP (R107). -/
def execCmp (core q : Nat) (s : State) : Host.Outcome State Fault Refusal :=
  .next (s.issue core q 3 2 (fun _ => true) (fun f t => t.cmpAct core q f))

/-- QUANT_CTRL_WRITE (R42, R50). -/
def execQuantCtrlWrite (core : Nat) (val : Word) (s : State) : Host.Outcome State Fault Refusal :=
  .next (s.quantWrite core val)

/-- SRAM_CE_WRITEBACK (R19). -/
def execSramCeWriteback (core : Nat) (s : State) : Host.Outcome State Fault Refusal := .next (s.sramWriteback core)

end Sys2Proof.Machine
end

