-- ==== Sys2Proof/Machine/Request.lean ====
section
/-! DEFINITION. Memory requests of the module's own units at device addresses: split at 256-byte boundaries (R14), checked and
refused as R26 says. A control and status window never takes such a request; moves, which may name one, are in `Dma.lean`. -/

namespace Sys2Proof.Machine

/-- One read request of an agent (R14, R26). -/
def State.reqRead (s : State) (a : Agent) (da len : Nat) : Got :=
  match s.checkReq .read a da len with
  | .pass => s.memRead a (s.decodeDa da) len
  | c => ⟨s.refuse a da c, c.status, []⟩

/-- One write request of an agent. -/
def State.reqWrite (s : State) (a : Agent) (da : Nat) (data : List Byte) : Put :=
  match s.checkReq .write a da data.length with
  | .pass => s.memWrite a (s.decodeDa da) data
  | c => ⟨s.refuse a da c, c.status⟩

/-- The requests a range splits into: (address, length). -/
def splitDa : Nat → Nat → Nat → List (Nat × Nat)
  | 0, _, _ => []
  | k + 1, da, n => if n = 0 then [] else (da, min n (256 - da % 256)) :: splitDa k (da + min n (256 - da % 256)) (n - min n (256 - da % 256))

/-- Requests read one after another; the first that is not OK ends them. -/
def State.readAll (s : State) (a : Agent) : List (Nat × Nat) → Got
  | [] => ⟨s, .ok, []⟩
  | (da, n) :: r =>
    let g := s.reqRead a da n
    if g.status ≠ .ok then ⟨g.st, g.status, []⟩
    else
      let k := State.readAll g.st a r
      ⟨k.st, k.status, g.data ++ k.data⟩

/-- Bytes read at a device address. -/
def State.daRead (s : State) (a : Agent) (da n : Nat) : Got := s.readAll a (splitDa (n / 256 + 2) da n)

/-- Requests written one after another; the first that is not OK ends them. -/
def State.writeAll (s : State) (a : Agent) (data : List Byte) : List (Nat × Nat) → Put
  | [] => ⟨s, .ok⟩
  | (da, n) :: r =>
    let p := s.reqWrite a da (data.take n)
    if p.status ≠ .ok then p else State.writeAll p.st a (data.drop n) r

/-- Bytes written at a device address. -/
def State.daWrite (s : State) (a : Agent) (da : Nat) (data : List Byte) : Put :=
  s.writeAll a data (splitDa (data.length / 256 + 2) da data.length)

/-- A write a command performs (R104). -/
def State.store (s : State) (c who : Nat) : Store → Put
  | .sram off data => s.localWrite c off data who
  | .req da data => s.daWrite (.core c) da data

/-- Writes performed in order; the first that is not OK ends them. -/
def State.storeAll (s : State) (c who : Nat) : List Store → Put
  | [] => ⟨s, .ok⟩
  | w :: ws =>
    let p := s.store c who w
    if p.status ≠ .ok then p else State.storeAll p.st c who ws

end Sys2Proof.Machine
end

