-- ==== Sys2Proof/Machine/Attention.lean ====
section
/-! DEFINITION. The attention engine (07): descriptors, handles and pages, KV_APPEND through the codec, ATT_WALK with its
generation check, and ATT_MERGE. -/

namespace Sys2Proof.Machine

/-! ## Descriptor (R130-R132) -/

/-- The storage of K or of V in a page (R125). -/
structure KvForm where
  fmt : Fmt
  f   : Num
  /-- Group length and its code. -/
  g   : Nat
  gs  : Nat

/-- An attention descriptor's fields with the body's. -/
structure AttP where
  rx    : Nat
  w     : Nat
  ring  : Bool
  hd    : Nat
  h     : Nat
  qpk   : Nat
  in32  : Bool
  out16 : Bool
  fp8   : Bool
  kv    : Nat → KvForm
  ps    : Nat
  pool  : Nat
  mbuf  : Nat
  out   : Nat
  vin   : Nat
  kin   : Nat
  q     : Nat
  htab  : Nat
  lt    : Nat
  slot  : Nat → SlotWord
  scale : Num
  part  : Nat
  npart : Nat
  nent  : Nat

/-- The form of a storage code and tensor factor. -/
def kvForm (code f : Nat) : KvForm :=
  let x := (Fmt.ofCode code).getD .mxE4m3
  { fmt := x, f := factorOf x f, g := if x.isFt4 then 64 else 32, gs := if x.isFt4 then 1 else 0 }

/-- A descriptor read with the command's body. -/
def AttP.of (d : Nat) (w : BitVec 128) : AttP :=
  { rx := bitsOf d 350 345 + 1, w := 2 ^ (bitsOf d 344 341 + 8), ring := d.testBit 340, hd := 64 * 2 ^ bitsOf d 339 338,
    h := bitsOf d 337 335 + 1, qpk := bitsOf d 334 331 + 1, in32 := d.testBit 330, out16 := d.testBit 329, fp8 := d.testBit 328,
    kv := fun x => if x = 0 then kvForm (bitsOf d 323 320) (bitsOf d 63 32) else kvForm (bitsOf d 327 324) (bitsOf d 95 64),
    ps := bitsOf d 319 308 * 256, pool := bitsOf d 307 296, mbuf := bitsOf d 295 262 * 64, out := bitsOf d 261 245 * 64,
    vin := bitsOf d 244 228 * 64, kin := bitsOf d 227 211 * 64, q := bitsOf d 210 194 * 64, htab := bitsOf d 193 177 * 64,
    lt := bitsOf d 176 160 * 64,
    slot := fun x => SlotWord.ofBits (if x = 0 then bitsOf d 127 96 else bitsOf d 159 128),
    scale := ofFp32 (bitsOf d 31 0), part := cmdBits w 102 100, npart := cmdBits w 99 97 + 1, nent := cmdBits w 110 103 + 1 }

/-- Bits of an element of K (0) or V (1). -/
def AttP.bits (p : AttP) (x : Nat) : Nat := (p.kv x).fmt.bits
/-- Groups of a head. -/
def AttP.groups (p : AttP) (x : Nat) : Nat := p.hd / (p.kv x).g
/-- HB of R125. -/
def AttP.hb (p : AttP) : Nat := 8 * p.hd * (p.bits 0 + p.bits 1) + 128 * p.groups 0 + 128 * p.groups 1
/-- The data and scale areas of head `h` in a page, and the pool (R125). -/
def AttP.dataOff (p : AttP) (x h : Nat) : Nat := 64 + h * p.hb + (if x = 0 then 0 else 8 * p.hd * p.bits 0)
def AttP.scaleOff (p : AttP) (x h : Nat) : Nat :=
  64 + h * p.hb + 8 * p.hd * (p.bits 0 + p.bits 1) + (if x = 0 then 0 else 128 * p.groups 0)
def AttP.poolOff (p : AttP) : Nat := 64 + p.h * p.hb
/-- PMIN of R125. -/
def AttP.pmin (p : AttP) : Nat := p.poolOff + 64 * ((2 * p.pool + 63) / 64)
/-- Bytes of a data row of one head. -/
def AttP.rowLen (p : AttP) (x : Nat) : Nat := p.hd * p.bits x / 8
/-- Bytes of an output element and of a partial record (R139). -/
def AttP.osz (p : AttP) : Nat := if p.out16 then 2 else 4
def AttP.recLen (p : AttP) : Nat := 4 * p.hd + 64

/-- The storage codes the codec takes (R131). -/
def kvCode (c : Nat) : Bool := c == 4 || (decide (0xA ≤ c) && decide (c ≤ 0xD))

/-- A length-table entry read from its 128 bits (R122). -/
def LtEntry.ofBits (w : Nat) : LtEntry :=
  { kvh := bitsOf w 111 96, len := bitsOf w 79 64, start := bitsOf w 63 32, seq := bitsOf w 31 0,
    mbz := bitsOf w 127 112 == 0 && bitsOf w 95 92 == 0 }

/-- Query rows of a table (R122). -/
def tokensOf (t : List LtEntry) : Nat := (t.map (·.len)).sum
/-- Token rows before entry `i`. -/
def tokensBefore (t : List LtEntry) (i : Nat) : Nat := tokensOf (t.take i)

/-- The limits of R122 and R129 on a table. -/
def tableOk (t : List LtEntry) : Bool :=
  t.all (fun e => e.mbz && decide (e.len ≤ 1024) && decide (e.start + e.len ≤ 2 ^ 31) && decide (e.start < 2 ^ 31)) &&
  decide (tokensOf t ≤ 1024)

/-- Codes of the operations. -/
def attAppend : Nat := 0
def attWalk : Nat := 1
def attMerge : Nat := 2

/-- The partial-record buffer is where the operation needs it (R132). -/
def State.mbufOk (s : State) (c op : Nat) (p : AttP) (R : Nat) : Bool :=
  if op = attMerge then
    match s.decodeDa p.mbuf with
    | .sram k off => k == c && decide (off + p.npart * R * p.recLen ≤ sramSize)
    | _ => false
  else if op = attWalk ∧ 1 < p.npart then
    match s.decodeDa p.mbuf with
    | .sram _ _ => true
    | .unmapped => true
    | _ => false
  else true

/-- The areas of the core's SRAM an operation names (R132). -/
def AttP.areasOk (p : AttP) (op R T : Nat) (t : List LtEntry) : Bool :=
  decide (p.htab + 16 * ((t.map (·.kvh)).foldl max 0 + 1) ≤ sramSize) &&
  (op != attWalk || decide (p.q + R * p.hd * 2 ≤ sramSize)) &&
  (!(op == attMerge || (op == attWalk && p.npart == 1)) || decide (p.out + R * p.hd * p.osz ≤ sramSize)) &&
  (op != attAppend || (let n := T * p.h * p.hd * (if p.in32 then 4 else 2)
    decide (p.kin + n ≤ sramSize) && decide (p.vin + n ≤ sramSize)))

/-- The format a page area stores obeys R31 and R35 (R132). -/
def State.kvFmtOk (s : State) (c : Nat) (p : AttP) (x code f : Nat) : Step Unit :=
  s.needFmt c 2 code (p.kv x).gs (if !kvCode code then some 0 else factorReason code f)

/-- A slot word of an append obeys R78 and R109. -/
def State.kvSlotOk (s : State) (c : Nat) (p : AttP) (x : Nat) : Step Unit :=
  let sw := p.slot x
  if sw.en then
    (s.need sw.mbz .badFormat).next fun s _ =>
    s.needSlot c sw (Fmt.all.findIdx (· == (p.kv x).fmt)) (p.kv x).gs (p.h * p.groups x)
  else s.need sw.mbz .badFormat

/-- An attention command's descriptor and length table, checked at issue (R130-R132). -/
def State.attParse (s : State) (c op : Nat) (fd : Fetched) : Step (AttP × Nat × List LtEntry) :=
  (s.readDesc c fd.word).next fun s d =>
  let p := AttP.of d fd.word
  (s.kvFmtOk c p 0 (bitsOf d 323 320) (bitsOf d 63 32)).next fun s _ =>
  (s.kvFmtOk c p 1 (bitsOf d 327 324) (bitsOf d 95 64)).next fun s _ =>
  (s.need (bitsOf d 511 351 == 0 && bitsOf d 339 338 != 3 && (!p.ring || decide (bitsOf d 344 341 ≤ 8)) &&
    (p.pool == 0 || (p.kv 0).fmt.isFt4 || (p.kv 1).fmt.isFt4) && decide (p.pmin ≤ p.ps) &&
    (op != attWalk || p.scale.isFinite) && decide (p.part < p.npart) && (op == attWalk || p.part == 0) &&
    (op != attAppend || p.npart == 1) && (op == attAppend || bitsOf d 159 96 == 0) &&
    decide (p.lt + 16 * p.nent ≤ sramSize)) .badFormat).next fun s _ =>
  let g := s.localRead c p.lt (16 * p.nent) rqAttention
  if g.status ≠ .ok then .stop g.st g.status
  else
    let s := g.st
    let t := (List.range p.nent).map (fun i => LtEntry.ofBits (leNat ((g.data.drop (16 * i)).take 16)))
    let T := tokensOf t
    let R := T * p.h * p.qpk
    (s.need (tableOk t && p.areasOk op R T t && s.mbufOk c op p R) .badFormat).next fun s _ =>
    (if op = attAppend then (s.kvSlotOk c p 0).next (fun s _ => s.kvSlotOk c p 1) else .go s ()).next fun s _ =>
    (s.needLevel c [(p.kv 0).fmt, (p.kv 1).fmt]).next fun s _ => .go s (p, d, t)

/-! ## Failures (R140) -/

/-- Where an attention command ended, kept in CORE.ATT_LAST. -/
def State.attMark (s : State) (c entry kvh block : Nat) : State :=
  ((s.setFld ATT_LAST.ENTRY c 0 entry).setFld ATT_LAST.KVH c 0 kvh).setFld ATT_LAST.BLOCK c 0 block

/-- A step that stops is marked with its entry, handle and block. -/
def Step.at {α : Type} (x : Step α) (c entry kvh block : Nat) : Step α :=
  match x with
  | .stop s st => .stop (s.attMark c entry kvh block) st
  | .go s a => .go s a

/-- The counts and ATT_LAST of a command that does not complete OK. -/
def State.attFailed (s : State) (c op : Nat) (st : Status) : State :=
  let s1 := (s.setFld ATT_LAST.STATUS c 0 st.code).setFld ATT_LAST.OP c 0 op
  if st = .retry then s1.addFld ATT_STAT.RETRY c 0 1
  else if st = .poison then s1.addFld ATT_STAT.POISON c 0 1
  else s1

/-- A failure that names no entry: its ATT_LAST fields are free. -/
def State.attNowhere (s : State) (c : Nat) : State :=
  (s.draw 3).attMark c (s.freeVal % 256) (s.freeAt 1 % 2 ^ 16) (s.freeAt 2 % 2 ^ 25)

/-- A page read (R144, R147): POISON raises ATT_POISON with the page's DA. -/
def State.pageRead (s : State) (c kvh page off n : Nat) : Step (List Byte) :=
  let g := s.daRead (.core c) (page + off) n
  if g.status = .ok then .go g.st g.data
  else .stop (if g.status = .poison then g.st.raise .ATT_POISON (siteOf c) (coreNo c) [(2, kvh), (8, page)] else g.st) g.status

/-- A handle entry (R124): locator, GEN and SEQ. -/
structure Handle where
  loc : Nat
  gen : Nat
  seq : Nat

/-- A handle read with one access (R124). -/
def State.readHandle (s : State) (c : Nat) (p : AttP) (kvh : Nat) : Step Handle :=
  let g := s.localRead c (p.htab + 16 * kvh) 16 rqAttention
  if g.status = .ok then .go g.st ⟨bitsOf (leNat g.data) 63 0, bitsOf (leNat g.data) 127 96, bitsOf (leNat g.data) 95 64⟩
  else .stop g.st g.status

/-- SEQ of an entry against its handle's (R124). -/
def State.checkSeq (s : State) (c : Nat) (e : LtEntry) (h : Handle) : Step Unit :=
  if h.seq = e.seq then .go s ()
  else .stop (s.raise .KV_HANDLE_MISMATCH (siteOf c) (coreNo c) [(2, e.kvh), (4, e.seq), (4, h.seq)]) .stateConflict

/-- The page that holds block `b` of a sequence (R128, R129), as its DA. -/
def State.locate (s : State) (c : Nat) (p : AttP) (kvh : Nat) (h : Handle) (b : Nat) : Step Nat :=
  if p.ring then .go s (bitsOf h.loc 63 32 * 256 + b % (p.w / 64 + p.rx) * p.ps)
  else
    let n := bitsOf h.loc 46 34
    let absent := fun (t : State) => Step.stop (α := Nat)
      (t.raise .KV_PAGE_ABSENT (siteOf c) (coreNo c) [(2, kvh), (4, b), (2, n)]) .noResource
    if b < n then
      let g := s.localRead c (bitsOf h.loc 63 47 * 64 + 4 * b) 4 rqAttention
      if g.status ≠ .ok then .stop g.st g.status
      else
        let e := leNat g.data
        if e.testBit 31 then .go g.st (bitsOf e 29 24 * 2 ^ 32 + bitsOf e 23 22 * 2 ^ 30 + bitsOf e 21 0 * 2 ^ 8) else absent g.st
    else absent s

/-- A page header's fields (R126). -/
structure PageHdr where
  pos0  : Nat
  count : Nat
  fill  : Nat

def State.readHdr (s : State) (c kvh page : Nat) : Step PageHdr :=
  (s.pageRead c kvh page 0 32).next fun s bs => .go s ⟨bitsOf (leNat bs) 31 0, bitsOf (leNat bs) 38 32, bitsOf (leNat bs) 51 40⟩

/-- KV_PAGE_MISMATCH (R147). -/
def State.pageMismatch (s : State) (c kvh block expected : Nat) (h : PageHdr) : State :=
  s.raise .KV_PAGE_MISMATCH (siteOf c) (coreNo c) [(2, kvh), (4, block), (4, expected), (4, h.pos0), (1, h.count)]

/-! ## KV_APPEND (R133, R134) -/

/-- The bytes of a header (R126). -/
def hdrBytes (pos0 count fill : Nat) : List Byte := leBytes 32 (pos0 % 2 ^ 32 + count * 2 ^ 32 + fill * 2 ^ 40)

/-- A write of the codec to a page (R26). -/
def State.pageWrite (s : State) (c page off : Nat) (data : List Byte) : Step Unit :=
  let p := s.daWrite (.core c) (page + off) data
  if p.status = .ok then .go p.st () else .stop p.st p.status

/-- An entry of an append after its check phase: its handle, its pages by block, and COUNT and ESC_FILL of the first. -/
structure AppEntry where
  index : Nat
  e     : LtEntry
  pages : List Nat
  fill  : Nat

/-- Blocks of an entry that take new positions. -/
def newBlocks (e : LtEntry) : List Nat :=
  (List.range ((e.start + e.len - 1) / 64 + 1 - e.start / 64)).map (fun j => e.start / 64 + j)

/-- Pages of the listed blocks, all of them present. -/
def State.locateAll (s : State) (c : Nat) (p : AttP) (i kvh : Nat) (h : Handle) : List Nat → Step (List Nat)
  | [] => .go s []
  | b :: bs =>
    ((s.locate c p kvh h b).at c i kvh b).next fun s pg =>
    (State.locateAll s c p i kvh h bs).next fun s r => .go s (pg :: r)

/-- The check phase of one entry (R133). -/
def State.appCheck (s : State) (c : Nat) (p : AttP) (i : Nat) (e : LtEntry) : Step AppEntry :=
  ((s.readHandle c p e.kvh).at c i e.kvh (e.start / 64)).next fun s h =>
  ((s.checkSeq c e h).at c i e.kvh (e.start / 64)).next fun s _ =>
  if e.len = 0 then .go s ⟨i, e, [], 0⟩
  else
    (s.locateAll c p i e.kvh h (newBlocks e)).next fun s pages =>
    if e.start % 64 = 0 then .go s ⟨i, e, pages, 0⟩
    else
      ((s.readHdr c e.kvh (pages.headD 0)).at c i e.kvh (e.start / 64)).next fun s hd =>
      if hd.pos0 = e.start - e.start % 64 ∧ hd.count = e.start % 64 then .go s ⟨i, e, pages, hd.fill⟩
      else .stop ((s.pageMismatch c e.kvh (e.start / 64) (e.start - e.start % 64) hd).attMark c i e.kvh (e.start / 64)) .stateConflict

/-- The check phase of every entry, in table order. -/
def State.appChecks (s : State) (c : Nat) (p : AttP) : List (Nat × LtEntry) → Step (List AppEntry)
  | [] => .go s []
  | (i, e) :: r =>
    (s.appCheck c p i e).next fun s a => (State.appChecks s c p r).next fun s as => .go s (a :: as)

/-- Values the codec's generator gives next, and its state after them (R42). -/
def srDraws : Nat → Nat → List Nat × Nat
  | 0, x => ([], x)
  | n + 1, x =>
    let y := srNext x
    let k := srDraws n y
    (bitsOf y 31 20 :: k.1, k.2)

/-- The rounding of a group's elements: to nearest, or by the generator's values in a free order of lanes (R42). DESIGN CHOICE
(log 36): which elements take a value no rule says; one is drawn for every element of every group, escapes, zeros and groups
with a NaN scale included, and a group encoded again in its replacement (R85) uses the values of its first encoding. -/
def State.kvRound (s : State) (c n : Nat) : State × (Nat → Rnd) :=
  if s.fld QUANT_CTRL.SR_KV c 0 = 1 then
    let d := srDraws n (s.core c).srState
    let l := freeOrder d.1 s.freeVal
    ((s.draw).setCore c { (s.draw).core c with srState := d.2 }, fun i => .draw (l.getD i 0))
  else (s, fun _ => .near)

/-- One group of the codec (R134): its encoding, the elements that lost their escape counted and reported. -/
def State.kvGroup (s : State) (c : Nat) (p : AttP) (e : LtEntry) (pos x h g fill : Nat) (u : Option SlotUse) (xs : List Num) :
    Step GroupEnc :=
  let k := p.kv x
  let cap := if k.fmt.isFt4 then min k.fmt.escapes (p.pool - fill) else 0
  let r := s.kvRound c xs.length
  let lost := fun (mode : ScaleMode) (en : GroupEnc) =>
    (encodeGroup k.fmt k.f (s.outlierH c) k.fmt.escapes k.g false r.2 mode xs).escs.length - en.escs.length
  let report := fun (t : State) (n : Nat) =>
    if n = 0 then t
    else (t.addFld ATT_STAT.POOL_OVF c 0 n).raise .KV_POOL_FULL (siteOf c) (coreNo c) [(2, e.kvh), (4, pos), (4, n)]
  match u with
  | none =>
    let en := encodeGroup k.fmt k.f (s.outlierH c) cap k.g false r.2 .jit xs
    .go ((report r.1 (lost .jit en)).countNan c none en) en
  | some v =>
    let gg := r.1.guardGroup v (h * p.groups x + g) cap r.2 xs
    if gg.status ≠ .ok then .stop gg.st gg.status
    else .go (report gg.st (lost gg.plan gg.final)) gg.final

/-- Groups of one head of K or V one after another; the escapes placed so far go with them. -/
def State.kvGroups (s : State) (c : Nat) (p : AttP) (e : LtEntry) (pos x h : Nat) (u : Option SlotUse) :
    Nat → Nat → List (List Num) → Step (List GroupEnc)
  | _, _, [] => .go s []
  | g, fill, xs :: r =>
    (s.kvGroup c p e pos x h g fill u xs).next fun s en =>
    (State.kvGroups s c p e pos x h u (g + 1) (fill + en.escs.length) r).next fun s l => .go s (en :: l)

/-- A head of K or of V of a position written (R125, R127, R134): ESC_FILL after it. -/
def State.kvHead (s : State) (c : Nat) (p : AttP) (e : LtEntry) (page pos x h fill : Nat) (u : Option SlotUse) (row : List Num) :
    Step Nat :=
  let k := p.kv x
  let j := pos % 64
  (s.kvGroups c p e pos x h u 0 fill (groupsOf k.g p.hd ((row.drop (h * p.hd)).take p.hd))).next fun s es =>
  let escs := es.flatMap (fun en => en.escs)
  (s.pageWrite c page (p.dataOff x h + j * p.rowLen x) (es.flatMap (fun en => packCodes k.fmt.bits en.codes))).next fun s _ =>
  (s.pageWrite c page (p.scaleOff x h + 2 * j * p.groups x)
    (es.flatMap (fun en => leBytes 2 (scaleRecord en.escs.length (pos % 16) en.scale)))).next fun s _ =>
  (if escs = [] then .go s () else s.pageWrite c page (p.poolOff + 2 * fill) (escs.flatMap (leBytes 2))).next fun s _ =>
  .go s (fill + escs.length)

/-- Heads and kinds of a position in R127's order. -/
def State.kvHeads (s : State) (c : Nat) (p : AttP) (e : LtEntry) (page pos : Nat) (use : Nat → Option SlotUse)
    (rows : Nat → List Num) : Nat → List (Nat × Nat) → Step Nat
  | fill, [] => .go s fill
  | fill, (h, x) :: r =>
    (s.kvHead c p e page pos x h fill (use x) (rows x)).next fun s f => State.kvHeads s c p e page pos use rows f r

/-- A new K or V row (R131). -/
def State.newRow (s : State) (c : Nat) (p : AttP) (x t : Nat) : Step (List Num) :=
  let n := p.h * p.hd
  let w := if p.in32 then 4 else 2
  let g := s.localRead c ((if x = 0 then p.kin else p.vin) + t * n * w) (n * w) rqAttention
  if g.status ≠ .ok then .stop g.st g.status
  else .go g.st ((unpackCodes (8 * w) n g.data).map (if p.in32 then ofFp32 else ofBf16))

/-- One position appended (R133): ESC_FILL after it. -/
def State.appPos (s : State) (c : Nat) (p : AttP) (use : Nat → Option SlotUse) (a : AppEntry) (t pos fill : Nat) : Step Nat :=
  let page := a.pages.getD (pos / 64 - a.e.start / 64) 0
  let fill0 := if pos % 64 = 0 then 0 else fill
  (if pos % 64 = 0 then s.pageWrite c page 0 (hdrBytes pos 0 0) else .go s ()).next fun s _ =>
  (s.newRow c p 0 t).next fun s k =>
  (s.newRow c p 1 t).next fun s v =>
  (s.kvHeads c p a.e page pos use (fun x => if x = 0 then k else v) fill0
    ((List.range p.h).flatMap (fun h => [(h, 0), (h, 1)]))).next fun s f =>
  (s.pageWrite c page 0 (hdrBytes (pos - pos % 64) (pos % 64 + 1) f)).next fun s _ => .go s f

/-- Positions of an entry one after another. -/
def State.appPositions (s : State) (c : Nat) (p : AttP) (use : Nat → Option SlotUse) (a : AppEntry) (t0 : Nat) :
    Nat → List Nat → Step Unit
  | _, [] => .go s ()
  | fill, k :: ks =>
    ((s.appPos c p use a (t0 + k) (a.e.start + k) fill).at c a.index a.e.kvh ((a.e.start + k) / 64)).next fun s f =>
    State.appPositions s c p use a t0 f ks

/-- The write phase, entry by entry. -/
def State.appWrite (s : State) (c : Nat) (p : AttP) (use : Nat → Option SlotUse) (t : List LtEntry) : List AppEntry → Step Unit
  | [] => .go s ()
  | a :: as =>
    (s.appPositions c p use a (tokensBefore t a.index) a.fill (List.range a.e.len)).next fun s _ =>
    State.appWrite s c p use t as

/-- Two entries with new tokens name one handle (R133). -/
def dupHandle : List LtEntry → Bool
  | [] => false
  | e :: es => (e.len != 0 && es.any (fun x => x.len != 0 && x.kvh == e.kvh)) || dupHandle es

/-- The entry that breaks R133's first two checks: of two that name one handle, either (free); then a ring entry too long for
R129. -/
def State.appendBad (s : State) (p : AttP) (t : List LtEntry) : Option (Nat × LtEntry) :=
  let es := (List.range t.length).zip t
  let l := if dupHandle t then
      es.filter (fun a => a.2.len != 0 && es.any (fun b => b.1 != a.1 && b.2.len != 0 && b.2.kvh == a.2.kvh))
    else (es.filter (fun a => p.ring && a.2.len != 0 && decide (64 * p.rx - 62 < a.2.len))).take 1
  l[s.freeVal % (max 1 l.length)]?

/-- KV_APPEND's two phases (R133). -/
def State.append (s : State) (c : Nat) (p : AttP) (t : List LtEntry) : Step Unit :=
  match s.appendBad p t with
  | some (i, e) => .stop ((s.draw).attMark c i e.kvh (e.start / 64)) .badFormat
  | none =>
    let use := fun x =>
      if (p.slot x).en then some (s.slotUse c rqAttention (p.slot x) (p.kv x).fmt (p.kv x).f) else none
    (s.appChecks c p ((List.range t.length).zip t)).next fun s as => s.appWrite c p use t as

/-! ## ATT_WALK (R135-R140) -/

/-- A query row of an entry as the walk goes. -/
structure WalkRow where
  /-- Its number in the table (R122). -/
  r   : Nat
  /-- Its position, the lowest position of its range, its KV head. -/
  q   : Nat
  lo  : Nat
  h   : Nat
  qv  : List Num
  m   : Num := .inf true
  l   : Num := .zero
  o   : List Num
  nan : Bool := false

/-- Numbers encoded to MXFP8 E4M3 with a just-in-time scale and decoded again (R138). -/
def mxRound (xs : List Num) : List Num :=
  let e := encodeGroup .mxE4m3 .one 0 0 32 false (fun _ => .near) .jit xs
  (e.elems .mxE4m3 xs.length).map (fun y => y.value .one)

/-- Query groups whose scale is NaN counted (R40). -/
def State.countQueryNans (s : State) (c : Nat) : List (List Num) → State
  | [] => s
  | g :: gs => State.countQueryNans
      (s.countNan c none (encodeGroup .mxE4m3 .one 0 0 32 false (fun _ => .near) .jit g)) c gs

/-- A row's query as the score units take it (R131, R138). -/
def State.readQuery (s : State) (c : Nat) (p : AttP) (r : Nat) : Step (List Num) :=
  let g := s.localRead c (p.q + r * p.hd * 2) (p.hd * 2) rqAttention
  if g.status ≠ .ok then .stop g.st g.status
  else
    let v := (unpackCodes 16 p.hd g.data).map ofBf16
    if p.fp8 then .go (g.st.countQueryNans c (groupsOf 32 p.hd v)) ((groupsOf 32 p.hd v).flatMap mxRound) else .go g.st v

/-- The rows of an entry (R122, R135). -/
def State.walkRows (s : State) (c : Nat) (p : AttP) (e : LtEntry) (t0 : Nat) : List Nat → Step (List WalkRow)
  | [] => .go s []
  | k :: ks =>
    let r := t0 * p.h * p.qpk + k
    let q := e.start + k / (p.h * p.qpk)
    (s.readQuery c p r).next fun s qv =>
    (State.walkRows s c p e t0 ks).next fun s rows =>
    .go s ({ r := r, q := q, lo := if p.ring then q + 1 - p.w else 0, h := k / p.qpk % p.h, qv := qv,
             o := List.replicate p.hd .zero } :: rows)

/-- A scale record of a block in R127's order: slot, head, kind, group, the record. -/
structure KvRec where
  j   : Nat
  h   : Nat
  x   : Nat
  g   : Nat
  word : Nat

/-- Records of the areas listed (head, kind), every slot of the page. -/
def State.readRecs (s : State) (c kvh page : Nat) (p : AttP) : List (Nat × Nat) → Step (List (Nat × Nat × List Nat))
  | [] => .go s []
  | (h, x) :: r =>
    (s.pageRead c kvh page (p.scaleOff x h) (128 * p.groups x)).next fun s bs =>
    (State.readRecs s c kvh page p r).next fun s l => .go s ((h, x, unpackCodes 16 (64 * p.groups x) bs) :: l)

/-- The heads and kinds of a page in R127's order. -/
def headKinds (p : AttP) : List (Nat × Nat) := (List.range p.h).flatMap (fun h => [(h, 0), (h, 1)])

/-- The records of slots 0 to `j1` in R127's order. -/
def recOrder (p : AttP) (areas : List (Nat × Nat × List Nat)) (j1 : Nat) : List KvRec :=
  (List.range (j1 + 1)).flatMap (fun j => areas.flatMap (fun a =>
    (List.range (p.groups a.2.1)).map (fun g => ⟨j, a.1, a.2.1, g, a.2.2.getD (j * p.groups a.2.1 + g) 0⟩)))

/-- ESC of a record. -/
def KvRec.esc (k : KvRec) : Nat := bitsOf k.word 15 12

/-- A record is needed: of a slot that is walked, or, where escapes are found by prefix sums (R127), of any slot below. -/
def AttP.needs (p : AttP) (j0 j : Nat) : Bool := decide (j0 ≤ j) || (p.kv 0).fmt.isFt4 || (p.kv 1).fmt.isFt4

/-- The first record check of R137 that fails, before data is read: `pre` escapes lie before, `i` numbers the group. -/
def recCheck (p : AttP) (b j0 lim : Nat) : Nat → Nat → List KvRec → Option Skew
  | _, _, [] => none
  | pre, i, k :: ks =>
    let tag := bitsOf k.word 11 8
    let want := (64 * b + k.j) % 16
    let f := (p.kv k.x).fmt
    if p.needs j0 k.j = false then recCheck p b j0 lim pre (i + 1) ks
    else if tag ≠ want then some ⟨0, i, want, tag, k.esc⟩
    else if f.isFt4 = true ∧ f.escapes < k.esc then some ⟨2, i, want, tag, k.esc⟩
    else if f.isFt4 = false ∧ k.esc ≠ 0 then some ⟨3, i, want, tag, k.esc⟩
    else if lim < pre + k.esc then some ⟨2, i, want, tag, k.esc⟩
    else recCheck p b j0 lim (pre + k.esc) (i + 1) ks

/-- Data codes of the areas listed, slots `j0` to `j1`. -/
def State.readCodes (s : State) (c kvh page : Nat) (p : AttP) (j0 j1 : Nat) : List (Nat × Nat) → Step (List (Nat × Nat × List Nat))
  | [] => .go s []
  | (h, x) :: r =>
    (s.pageRead c kvh page (p.dataOff x h + j0 * p.rowLen x) ((j1 + 1 - j0) * p.rowLen x)).next fun s bs =>
    (State.readCodes s c kvh page p j0 j1 r).next fun s l =>
      .go s ((h, x, unpackCodes (p.bits x) ((j1 + 1 - j0) * p.hd) bs) :: l)

/-- One decoded group of a block, at (slot, head, kind, group). -/
structure KvVals where
  j  : Nat
  h  : Nat
  x  : Nat
  g  : Nat
  el : List Elem

/-- The groups of the needed slots decoded (R38, R138): `pre` escapes lie before; a group whose ESC differs from its codes, or
a fine code with its sign set, ends it. -/
def decodeKv (p : AttP) (b j0 : Nat) (codes : List (Nat × Nat × List Nat)) (pool : List Nat) :
    Nat → Nat → List KvRec → Option (Skew ⊕ Nat) × List KvVals
  | _, _, [] => (none, [])
  | pre, i, k :: ks =>
    if k.j < j0 then decodeKv p b j0 codes pool (pre + k.esc) (i + 1) ks
    else
      let f := p.kv k.x
      let area := ((codes.find? (fun a => a.1 == k.h && a.2.1 == k.x)).map (fun a => a.2.2)).getD []
      let cs := (area.drop ((k.j - j0) * p.hd + k.g * f.g)).take f.g
      let want := (64 * b + k.j) % 16
      if f.fmt.isFt4 = true ∧ (cs.filter (· == 8)).length ≠ k.esc then (some (.inl ⟨1, i, want, bitsOf k.word 11 8, k.esc⟩), [])
      else if f.fmt.fine && decide (128 ≤ k.word % 256) then (some (.inr k.x), [])
      else
        let r := decodeKv p b j0 codes pool (pre + k.esc) (i + 1) ks
        (r.1, ⟨k.j, k.h, k.x, k.g, decodeGroup f.fmt (scaleCode f.fmt (k.word % 256)) cs (pool.drop pre)⟩ :: r.2)

/-- A block checked and read (R137): the decoded groups of slots `j0` to `j1`. -/
def State.readBlock (s : State) (c : Nat) (p : AttP) (e : LtEntry) (page b j0 j1 : Nat) : Step (List KvVals) :=
  (s.readHdr c e.kvh page).next fun s hd =>
  if hd.pos0 ≠ 64 * b ∨ hd.count ≤ j1 then .stop (s.pageMismatch c e.kvh b (64 * b) hd) .stateConflict
  else
    (s.readRecs c e.kvh page p (headKinds p)).next fun s areas =>
    let recs := recOrder p areas j1
    match recCheck p b j0 (min hd.fill p.pool) 0 0 recs with
    | some k => .stop (s.skewAbort c 2 k) .scaleSkew
    | none =>
      (s.readCodes c e.kvh page p j0 j1 (headKinds p)).next fun s codes =>
      let n := (recs.map KvRec.esc).sum
      (if n = 0 then .go s [] else s.pageRead c e.kvh page p.poolOff (2 * n)).next fun s pb =>
      match decodeKv p b j0 codes (unpackCodes 16 n pb) 0 0 recs with
      | (some (.inl k), _) => .stop (s.skewAbort c 2 k) .scaleSkew
      | (some (.inr x), _) =>
        .stop (s.fmtRefuse c 2 (Fmt.all.findIdx (· == (p.kv x).fmt)) (p.kv x).gs 3) .badFormat
      | (none, v) => .go s v

/-- K or V of a head at a slot, its groups joined; on the BF16 path elements other than escapes are rounded (R138). -/
def kvRow (p : AttP) (v : List KvVals) (x h j : Nat) : List Elem :=
  let f := (p.kv x).f
  (v.filter (fun k => k.x == x && k.h == h && k.j == j)).flatMap (fun k => k.el.map (fun el =>
    if el.esc then el
    else if p.fp8 then ⟨el.value f, .one, false⟩ else ⟨ofBf16 (toBf16 (el.value f)), .one, false⟩))

/-- A score's dot product (R138): the products exact, their sum rounded once, each escape product added with one rounding. -/
def attDot (free : Nat) (q : List Num) (k : List Elem) : Num :=
  let ps := q.zip k
  let plain := (ps.filter (fun x => !x.2.esc)).map (fun x => x.1.mul x.2.val)
  let escs := (ps.filter (fun x => x.2.esc)).map (fun x => x.1.mul x.2.val)
  ofFp32 (sumTerms 0 (rneFp32 (Num.sum plain) :: escs) free)

/-- One output component after a block (R138). -/
def attOut (free : Nat) (o c : Num) (pv : List (Num × Elem)) : Num :=
  let plain := (pv.filter (fun x => !x.2.esc)).map (fun x => x.1.mul x.2.val)
  let escs := (pv.filter (fun x => x.2.esc)).map (fun x => x.1.mul x.2.val)
  ofFp32 (sumTerms (toFp32 (fMul o c)) (Num.sum plain :: escs) free)

/-- The probabilities as the output units take them: on the FP8 path, groups of 32 slots in MXFP8 (R138). -/
def attProbs (p : AttP) (js : List Nat) (ps : List Num) : List Num :=
  if p.fp8 then
    let at_ := fun j => (((js.zip ps).find? (fun x => x.1 == j)).map (·.2)).getD .zero
    let coded := (List.range 2).flatMap (fun half => mxRound ((List.range 32).map (fun k => at_ (32 * half + k))))
    js.map (fun j => coded.getD j .zero)
  else ps

/-- A row after a block (R136, R138): rescaled once; a NaN or +infinite score makes the row NaN, -infinity adds nothing. -/
def WalkRow.block (w : WalkRow) (p : AttP) (b j0 j1 : Nat) (v : List KvVals) (free : Nat → Nat) : WalkRow :=
  let js := ((List.range (j1 + 1)).drop j0).filter (fun j => decide (w.lo ≤ 64 * b + j) && decide (64 * b + j ≤ w.q))
  let sc := js.map (fun j => fMul p.scale (attDot (free j) w.qv (kvRow p v 0 w.h j)))
  if w.nan || sc.any (fun x => x.isNan || x == .inf false) then { w with nan := true }
  else
    let live := (js.zip sc).filter (fun x => x.2.isFinite)
    if live = [] then w
    else
      let mn := live.foldl (fun a x => if a.lt x.2 then x.2 else a) w.m
      let cf := if w.m = .inf true then .zero else fExp (free 64) (fAdd w.m mn.neg)
      let ps := live.map (fun x => fExp (free (65 + x.1)) (fAdd x.2 mn.neg))
      let pq := attProbs p (live.map (·.1)) ps
      let vs := live.map (fun x => kvRow p v 1 w.h x.1)
      { w with
        m := mn, l := rneFp32 ((fMul w.l cf).add (Num.sum ps)),
        o := ((List.range p.hd).zip w.o).map (fun d =>
          attOut (free (129 + d.1)) d.2 cf (pq.zip (vs.map (fun row => row.getD d.1 ⟨.zero, .one, false⟩)))) }

/-- Key positions a row walks in a block. -/
def WalkRow.count (w : WalkRow) (b j0 j1 : Nat) : Nat :=
  (((List.range (j1 + 1)).drop j0).filter (fun j => decide (w.lo ≤ 64 * b + j) && decide (64 * b + j ≤ w.q))).length

/-- Blocks of a part one after another (R135, R136). -/
def State.walkBlocks (s : State) (c : Nat) (p : AttP) (i : Nat) (e : LtEntry) (h : Handle) (lo : Nat) :
    List Nat → List WalkRow → Step (List WalkRow)
  | [], rows => .go s rows
  | b :: bs, rows =>
    let j0 := lo - 64 * b
    let j1 := min 63 (e.start + e.len - 1 - 64 * b)
    ((s.locate c p e.kvh h b).at c i e.kvh b).next fun s page =>
    ((s.readBlock c p e page b j0 j1).at c i e.kvh b).next fun s v =>
    let s1 := (s.draw (2 ^ 40)).addFld ATT_WORK.POSITIONS c 0 ((rows.map (fun w => w.count b j0 j1)).sum)
    State.walkBlocks s1 c p i e h lo bs (((List.range rows.length).zip rows).map (fun w =>
      w.2.block p b j0 j1 v (fun k => s.freeAt (w.1 * 2 ^ 20 + k))))

/-- The blocks of a part (R135). -/
def partBlocks (p : AttP) (lo hi : Nat) : List Nat :=
  let nb := hi / 64 + 1 - lo / 64
  let b0 := lo / 64 + p.part * nb / p.npart
  let b1 := lo / 64 + (p.part + 1) * nb / p.npart
  (List.range (b1 - b0)).map (fun j => b0 + j)

/-- One entry walked from its handle (R136): its rows. -/
def State.walkEntry (s : State) (c : Nat) (p : AttP) (t : List LtEntry) (i : Nat) (e : LtEntry) (h : Handle) : Step (List WalkRow) :=
  let lo := if p.ring then e.start + 1 - p.w else 0
  ((s.checkSeq c e h).at c i e.kvh (lo / 64)).next fun s _ =>
  ((s.walkRows c p e (tokensBefore t i) (List.range (e.len * p.h * p.qpk))).at c i e.kvh (lo / 64)).next fun s rows =>
  s.walkBlocks c p i e h lo (partBlocks p lo (e.start + e.len - 1)) rows

/-- A row's output values in the named format (R136); of a row whose every score is -infinity no rule states them (free). -/
def WalkRow.final (w : WalkRow) (p : AttP) (free : Nat → Nat) : List Byte :=
  let vals := if w.nan then w.o.map (fun _ => Num.nan false)
    else if w.l.isZero then (List.range p.hd).map (fun d => ofFp32 (free (d + 1)))
    else w.o.map (fun x => fMul x (fRecip (free 0) w.l))
  vals.flatMap (fun x => if p.out16 then leBytes 2 (toBf16 x) else leBytes 4 (toFp32 x))

/-- A partial record (R139). -/
def WalkRow.record (w : WalkRow) (p : AttP) : List Byte :=
  (if w.nan then w.o.map (fun _ => Num.nan false) else w.o).flatMap (fun x => leBytes 4 (toFp32 x)) ++
  leBytes 4 (toFp32 w.m) ++ leBytes 4 (toFp32 w.l) ++ [BitVec.ofNat 8 p.part, 1] ++ List.replicate 54 0

/-- The write of a row's output or record. -/
def WalkRow.store (w : WalkRow) (p : AttP) (R : Nat) (free : Nat → Nat) : Store :=
  if p.npart = 1 then .sram (p.out + w.r * p.hd * p.osz) (w.final p free)
  else .req (p.mbuf + (p.part * R + w.r) * p.recLen) (w.record p)

/-- Rows of an entry cut into runs of at most 128 KiB (R136). -/
def runsOf (per : Nat) : Nat → List Store → List (List Store)
  | 0, _ => []
  | _ + 1, [] => []
  | k + 1, x :: xs => (x :: xs).take per :: runsOf per k ((x :: xs).drop per)

/-- A run committed: its rows are written and counted. -/
def State.commitRun (s : State) (c : Nat) (run : List Store) : Step Unit :=
  let p := s.storeAll c rqAttention run
  if p.status = .ok then .go (p.st.addFld ATT_WORK.ROWS c 0 run.length) () else .stop p.st p.status

/-- Runs committed one after another. -/
def State.commitRuns (s : State) (c : Nat) : List (List Store) → Step Unit
  | [] => .go s ()
  | r :: rs => (s.commitRun c r).next fun s _ => State.commitRuns s c rs

/-- ATT_RETRY (R147), and where the walk ended (R140). -/
def State.attRetry (s : State) (c i kvh block old new : Nat) : State :=
  (s.raise .ATT_RETRY (siteOf c) (coreNo c) [(1, i), (2, kvh), (4, old), (4, new)]).attMark c i kvh block

/-- The lowest position of an entry's key span (R135). -/
def AttP.lowest (p : AttP) (e : LtEntry) : Nat := if p.ring then e.start + 1 - p.w else 0

/-- The first and the last block of an entry that a walk's part takes; of a part with none, the span's first. -/
def AttP.firstBlock (p : AttP) (e : LtEntry) : Nat :=
  (partBlocks p (p.lowest e) (e.start + e.len - 1)).headD (p.lowest e / 64)
def AttP.lastBlock (p : AttP) (e : LtEntry) : Nat :=
  ((partBlocks p (p.lowest e) (e.start + e.len - 1)).getLast?).getD (p.lowest e / 64)

/-- What walking one entry leaves to be committed. -/
structure EntryGot where
  st   : State
  /-- GEN as read at its start, if that read succeeded. -/
  gen  : Option Nat
  fail : Option Status
  runs : List (List Store)

/-- One entry from its handle read to its rows. -/
def State.entryRun (s : State) (c : Nat) (p : AttP) (t : List LtEntry) (i : Nat) (e : LtEntry) : EntryGot :=
  match (s.readHandle c p e.kvh).at c i e.kvh (p.firstBlock e) with
  | .stop s' st => ⟨s', none, some st, []⟩
  | .go s' h =>
    match s'.walkEntry c p t i e h with
    | .stop s2 st => ⟨s2, some h.gen, some st, []⟩
    | .go s2 rows =>
      let R := tokensOf t * p.h * p.qpk
      let per := max 1 (2 ^ 17 / (if p.npart = 1 then p.hd * p.osz else p.recLen))
      let stores := ((List.range rows.length).zip rows).map (fun w => w.2.store p R (fun k => s2.freeAt (w.1 * 2 ^ 10 + k)))
      ⟨s2.draw (2 ^ 30), some h.gen, none, runsOf per rows.length stores⟩

/-- Entries walked and committed with no change of their tables in between. -/
def State.walkAll (s : State) (c : Nat) (p : AttP) (t : List LtEntry) : List (Nat × LtEntry) → Step Unit
  | [] => .go s ()
  | (i, e) :: r =>
    if e.len = 0 then State.walkAll s c p t r
    else
      let g := s.entryRun c p t i e
      match g.fail with
      | some st => .stop g.st st
      | none => ((g.st.commitRuns c g.runs).at c i e.kvh (p.lastBlock e)).next fun s _ => State.walkAll s c p t r

/-- The entries of a table with their numbers. -/
def numbered (t : List LtEntry) : List (Nat × LtEntry) := (List.range t.length).zip t

/-- ATT_WALK once it issues: how far it gets before it is next looked at is free - entries before `k` committed, entry `k`
computed and some of its runs committed, never the last without its own check of the handle (R143, log 31). -/
def State.walkStart (s : State) (c : Nat) (fd : Fetched) (p : AttP) (d : Nat) (t : List LtEntry) : State :=
  let k := s.freeVal % (t.length + 1)
  let s0 := s.draw 2
  match s0.walkAll c p t ((numbered t).take k) with
  | .stop s1 st => (s1.attFailed c attWalk st).start c 2 { index := fd.index, word := fd.word, status := st }
  | .go s1 _ =>
    let e := t.getD k ⟨0, 0, 0, 0, true⟩
    if e.len = 0 then
      s1.start c 2 { index := fd.index, word := fd.word, att := some ⟨t, d, k, none, none, []⟩ }
    else
      let g := s1.entryRun c p t k e
      let n := s.freeAt 1 % (max 1 g.runs.length)
      match (g.st.commitRuns c (g.runs.take n)).at c k e.kvh (p.lastBlock e) with
      | .stop s2 st => (s2.attFailed c attWalk st).start c 2 { index := fd.index, word := fd.word, status := st }
      | .go s2 _ => s2.start c 2 { index := fd.index, word := fd.word, att := some ⟨t, d, k, g.gen, g.fail, g.runs.drop n⟩ }

/-- The rest of an ATT_WALK (R136, R140, R143): the generation check of the entry at hand, its commit, and the entries after
it. -/
def State.walkEnd (s : State) (c : Nat) (w : BitVec 128) (a : AttRun) : State × Status :=
  let p := AttP.of a.desc w
  let e := a.table.getD a.entry ⟨0, 0, 0, 0, true⟩
  let rest := fun (t : State) => t.walkAll c p a.table ((numbered a.table).drop (a.entry + 1))
  let r : Step Unit :=
    match a.gen, a.fail with
    | none, some st => .stop s st
    | none, none => rest s
    | some old, _ =>
      let b := if a.fail.isSome then s.fld ATT_LAST.BLOCK c 0 else p.lastBlock e
      ((s.readHandle c p e.kvh).at c a.entry e.kvh b).next fun s h =>
      if h.gen ≠ old then .stop (s.attRetry c a.entry e.kvh b old h.gen) .retry
      else match a.fail with
        | some st => .stop s st
        | none => ((s.commitRuns c a.runs).at c a.entry e.kvh b).next fun s _ => rest s
  match r with
  | .stop t st => (t.attFailed c attWalk st, st)
  | .go t _ => (t, .ok)

/-! ## ATT_MERGE (R141) -/

/-- The entry of a query row, with its number (R122). -/
def rowEntry (p : AttP) (t : List LtEntry) (r : Nat) : Nat × LtEntry :=
  ((numbered t).find? (fun a => decide (r < (tokensBefore t a.1 + a.2.len) * p.h * p.qpk))).getD (0, ⟨0, 0, 0, 0, true⟩)

/-- A merge that ends at a row is marked with the row's entry and handle; it has no block (free) (R140). -/
def State.mergeMark (s : State) (c : Nat) (p : AttP) (t : List LtEntry) (r : Nat) : State :=
  let e := rowEntry p t r
  (s.draw).attMark c e.1 e.2.kvh (s.freeVal % 2 ^ 25)

def Step.atRow {α : Type} (x : Step α) (c : Nat) (p : AttP) (t : List LtEntry) (r : Nat) : Step α :=
  match x with
  | .stop s st => .stop (s.mergeMark c p t r) st
  | .go s a => .go s a

/-- The records of one row: their bytes by part. -/
def State.readRecords (s : State) (c : Nat) (p : AttP) (base R r : Nat) : List Nat → Step (List (Nat × List Byte))
  | [] => .go s []
  | k :: ks =>
    let g := s.localRead c (base + (k * R + r) * p.recLen) p.recLen rqAttention
    if g.status ≠ .ok then .stop g.st g.status
    else (State.readRecords g.st c p base R r ks).next fun s l => .go s ((k, g.data) :: l)

/-- The running merge of a row. -/
structure MergeRow where
  m   : Num := .inf true
  l   : Num := .zero
  o   : List Num
  nan : Bool := false

/-- One record merged into a row (R141). -/
def MergeRow.add (x : MergeRow) (hd : Nat) (free : Nat → Nat) (bs : List Byte) : MergeRow :=
  let o := (unpackCodes 32 hd bs).map ofFp32
  let m := ofFp32 (leNat ((bs.drop (4 * hd)).take 4))
  let l := ofFp32 (leNat ((bs.drop (4 * hd + 4)).take 4))
  if m.isNan || o.any Num.isNan then { x with nan := true }
  else if m = .inf true then x
  else
    let mn := if x.m.lt m then m else x.m
    let a := if x.m = .inf true then .zero else fExp (free 0) (fAdd x.m mn.neg)
    let b := fExp (free 1) (fAdd m mn.neg)
    { x with
      m := mn, l := fDot2 (free 2) x.l a l b,
      o := ((List.range hd).zip (x.o.zip o)).map (fun d => fDot2 (free (3 + d.1)) d.2.1 a d.2.2 b) }

/-- Records merged one after another. -/
def mergeAll (hd : Nat) (free : Nat → Nat) : Nat → MergeRow → List (Nat × List Byte) → MergeRow
  | _, x, [] => x
  | i, x, r :: rs => mergeAll hd free (i + 1) (x.add hd (fun k => free (i * 512 + k)) r.2) rs

/-- Records without VALID counted and reported (R141). -/
def State.partMissing (s : State) (c r : Nat) : List Nat → State
  | [] => s
  | k :: ks => State.partMissing ((s.addFld ATT_STAT.PART_MISSING c 0 1).raise .ATT_PART_MISSING (siteOf c) (coreNo c)
      [(4, r), (1, k)]) c r ks

/-- The records of every row (R141: all are read first); a read that fails names its row. -/
def State.readAllRecords (s : State) (c : Nat) (p : AttP) (t : List LtEntry) (base R : Nat) :
    List Nat → Step (List (Nat × List (Nat × List Byte)))
  | [] => .go s []
  | r :: rs =>
    ((s.readRecords c p base R r (List.range p.npart)).atRow c p t r).next fun s a =>
    (State.readAllRecords s c p t base R rs).next fun s l => .go s ((r, a) :: l)

/-- One row of a merge: whether it was written, and the writes (R141). -/
def State.mergeRow (s : State) (c : Nat) (p : AttP) (base R r : Nat) (recs : List (Nat × List Byte)) :
    State × Bool × List Store :=
  let clear := recs.map (fun k => Store.sram (base + (k.1 * R + r) * p.recLen + 4 * p.hd + 9) [0])
  let valid := fun (k : Nat × List Byte) => (k.2.drop (4 * p.hd + 9)).headD 0 == (1 : Byte)
  let missing := (recs.filter (fun k => !valid k)).map (·.1)
  if missing ≠ [] then (s.partMissing c r missing, false, clear)
  else
    let x := mergeAll p.hd (fun k => s.freeAt (k + 1)) 0 { o := List.replicate p.hd .zero } (freeOrder recs s.freeVal)
    let s1 := s.draw (2 ^ 13)
    let empty := !x.nan && !Num.zero.lt x.l
    let vals := if x.nan then x.o.map (fun _ => Num.nan false) else if empty then x.o.map (fun _ => Num.zero)
      else x.o.map (fun y => fMul y (fRecip (s1.freeVal) x.l))
    let s2 := if !x.nan && x.l.isZero then (s1.addFld ATT_STAT.EMPTY_ROWS c 0 1).raise .ATT_ROW_EMPTY (siteOf c) (coreNo c) [(4, r)] else s1
    (s2.draw, true, clear ++ [.sram (p.out + r * p.hd * p.osz)
      (vals.flatMap (fun y => if p.out16 then leBytes 2 (toBf16 y) else leBytes 4 (toFp32 y)))])

/-- Rows of a merge one after another: how many were written, the rows that were not, and the writes. -/
def State.mergeRows (s : State) (c : Nat) (p : AttP) (base R : Nat) :
    List (Nat × List (Nat × List Byte)) → State × Nat × List Nat × List Store
  | [] => (s, 0, [], [])
  | (r, recs) :: rs =>
    let a := s.mergeRow c p base R r recs
    let b := State.mergeRows a.1 c p base R rs
    (b.1, b.2.1 + (if a.2.1 then 1 else 0), (if a.2.1 then [] else [r]) ++ b.2.2.1, a.2.2 ++ b.2.2.2)

/-- The offset of the partial records in the core's SRAM. -/
def State.mergeBase (s : State) (p : AttP) : Nat :=
  match s.decodeDa p.mbuf with
  | .sram _ off => off
  | _ => 0

/-! ## Issue -/

/-- An attention command that ends with a status at its issue. -/
def State.attStop (s : State) (c op : Nat) (fd : Fetched) (st : Status) : State :=
  (s.attFailed c op st).finishNow c 2 fd st

/-- KV_APPEND's effect once it issues. -/
def State.appendAct (s : State) (c : Nat) (fd : Fetched) : State :=
  match s.attParse c attAppend fd with
  | .stop s1 st => (s1.attNowhere c).attStop c attAppend fd st
  | .go s1 (p, _, t) =>
    let slots := ([0, 1].filter (fun x => (p.slot x).en)).map (fun x => (p.slot x).slot)
    match s1.append c p t with
    | .stop s2 st => (s2.attFailed c attAppend st).start c 2 { index := fd.index, word := fd.word, status := st, slots := slots }
    | .go s2 _ => s2.start c 2 { index := fd.index, word := fd.word, slots := slots }

/-- ATT_WALK's effect once it issues. -/
def State.walkAct (s : State) (c : Nat) (fd : Fetched) : State :=
  match s.attParse c attWalk fd with
  | .stop s1 st => (s1.attNowhere c).attStop c attWalk fd st
  | .go s1 (p, d, t) => s1.walkStart c fd p d t

/-- ATT_MERGE's effect once it issues; its rows are written by its completion. -/
def State.mergeAct (s : State) (c : Nat) (fd : Fetched) : State :=
  match s.attParse c attMerge fd with
  | .stop s1 st => (s1.attNowhere c).attStop c attMerge fd st
  | .go s1 (p, _, t) =>
    let R := tokensOf t * p.h * p.qpk
    match s1.readAllRecords c p t (s1.mergeBase p) R (List.range R) with
    | .stop s2 st => (s2.attFailed c attMerge st).start c 2 { index := fd.index, word := fd.word, status := st }
    | .go s2 recs =>
      let m := s2.mergeRows c p (s2.mergeBase p) R recs
      let s3 := m.1.addFld ATT_WORK.ROWS c 0 m.2.1
      match m.2.2.1 with
      | [] => s3.start c 2 { index := fd.index, word := fd.word, writes := m.2.2.2 }
      | r :: _ => ((s3.mergeMark c p t r).attFailed c attMerge .aborted).start c 2
          { index := fd.index, word := fd.word, status := .aborted, writes := m.2.2.2 }

/-! ## Waiting for a channel (R12) -/

/-- The page of a block as an entry's handle and page array now name it. -/
def State.pageOf (s : State) (c : Nat) (p : AttP) (kvh b : Nat) : Option Nat :=
  match s.readHandle c p kvh with
  | .stop _ _ => none
  | .go s1 h =>
    match s1.locate c p kvh h b with
    | .stop _ _ => none
    | .go _ page => some page

/-- A stripe of a page lies on a channel that is not ready (R160, R165). -/
def State.pageHeld (s : State) (c : Nat) (p : AttP) (page : Nat) : Bool :=
  (List.range (p.ps / 256)).any (fun j => s.daHeld .read (.core c) (page + 256 * j) 1)

/-- Pages of an append or walk, or a partial record's place, are not ready: the engine stalls (R12, R22). -/
def State.attWaits (s : State) (c op : Nat) (p : AttP) (t : List LtEntry) : Bool :=
  let R := tokensOf t * p.h * p.qpk
  t.any (fun e => e.len != 0 &&
    (if op = attAppend then newBlocks e else partBlocks p (p.lowest e) (e.start + e.len - 1)).any (fun b =>
      match s.pageOf c p e.kvh b with
      | some page => s.pageHeld c p page
      | none => false)) ||
  (op == attWalk && p.npart != 1 &&
    (List.range R).any (fun r => s.daHeld .write (.core c) (p.mbuf + (p.part * R + r) * p.recLen) 1))

/-- An attention command at the head of its queue would have to wait for a channel. -/
def State.attStalled (s : State) (c op : Nat) (fd : Fetched) : Bool :=
  match s.attParse c op fd with
  | .stop _ _ => false
  | .go s1 (p, _, t) => s1.attWaits c op p t

/-! ## Commands -/

/-- KV_APPEND (R133): it waits while a slot it names is busy (R86), or a channel it needs retrains (R12). -/
def execKvAppend (core : Nat) (s : State) : Host.Outcome State Fault Refusal :=
  .next (s.issue core 2 8 0 (fun f => s.slotReady core f.word 96 && s.slotReady core f.word 128 && !s.attStalled core attAppend f)
    (fun f t => t.appendAct core f))

/-- ATT_WALK (R136), once no channel it reads retrains (R12). -/
def execAttWalk (core : Nat) (s : State) : Host.Outcome State Fault Refusal :=
  .next (s.issue core 2 8 1 (fun f => !s.attStalled core attWalk f) (fun f t => t.walkAct core f))

/-- ATT_MERGE (R141). -/
def execAttMerge (core : Nat) (s : State) : Host.Outcome State Fault Refusal :=
  .next (s.issue core 2 8 2 (fun _ => true) (fun f t => t.mergeAct core f))

end Sys2Proof.Machine
end

