-- ==== Sys2Proof/Machine/Dram.lean ====
section
/-! DEFINITION. Commands of the bonded DRAM (08): controller reads and writes, write-backs, scrub, retraining, dead channels,
swaps, the repair window and error injection. What ends a hold of requests is in `Bus.lean`. -/

namespace Sys2Proof.Machine

/-! ## Tile-window commands -/

/-- The DA of an offset in a tile common window. -/
def tileDa (l off : Nat) : Nat := 2 * 2 ^ 38 + l * 2 ^ 24 + 2 ^ 23 + 2 ^ 22 + off

/-- An access to a tile window register, checked by R26 order 2: done, or refused with its event. The Hatband's management path
reaches every site (R267). -/
def State.tileGate (s : State) (a : Agent) (site off : Nat) (act : State → State) : State :=
  match s.ltileOf site with
  | none => if a = .hatband then act s else s
  | some l =>
    match s.denied a (.tileCsr site off) with
    | some (r, e) => s.refuse a (tileDa l off) (.order2 r e)
    | none => act s

/-! ## Channels (R164) -/

/-- The logical channel that maps to a physical channel. -/
def State.lchOf (s : State) (c pch : Nat) : Option Nat := (List.range 16).find? (fun k => s.remap c k == pch)

/-- The core's spare channel. -/
def State.spareOf (s : State) (c : Nat) : Option Nat :=
  (List.range 17).find? (fun p => s.fld DRAM_CH_STAT.ROLE c p == roleSpare)

/-- The running swap of a core that names a physical channel. -/
def State.swapOf (s : State) (c pch : Nat) : Option Swap :=
  match Tbl.find s.swaps c with
  | some w => if w.src = pch ∨ w.dst = pch then some w else none
  | none => none

/-- A corrected beat written back: its stored error goes (R153). A pattern corrected to a wrong value is written as read. -/
def State.correctBeat (s : State) (c pch byte : Nat) : State :=
  let k := dramByte c pch byte
  match Tbl.find s.marks k with
  | some (.beatError m) =>
    match seenOf m with
    | .correctable _ => { s with marks := Tbl.del s.marks k }
    | .wrong => s.beatPut c pch byte (beatBytes (Config.eccMiscorrect (beatBits (memBytes s.mem k 32)) m))
    | _ => s
  | _ => s

/-- CE_WRITEBACK (R153): the oldest beat of the write-back queue. -/
def execCeWriteback (core pch : Nat) (s : State) : Host.Outcome State Fault Refusal :=
  .next (match (s.chan core pch).wbq with
    | b :: bs =>
      if s.fld DRAM_CH_STAT.RETRAINING core pch = 1 then s
      else (s.setChan core pch { s.chan core pch with wbq := bs }).correctBeat core pch b
    | [] => s)

/-- REFRESH (R156): no state of the model changes. -/
def execRefresh (_core _pch : Nat) (s : State) : Host.Outcome State Fault Refusal := .next s

/-! ## Patrol scrub (R158) -/

/-- DRAM_POISON_READ's requester for a scrub and for a copy (R171). -/
def rqScrub : Nat := 9
def rqCopy : Nat := 10

/-- Beats scrubbed one after another. -/
def State.scrubBeats (s : State) (c pch : Nat) : List Nat → State
  | [] => s
  | b :: bs =>
    State.scrubBeats ((s.beatRead c pch b ueScrub rqScrub 0 0 false).st.correctBeat c pch b) c pch bs

/-- SCRUB_ROW (R158): the row at SCRUB_BANK and SCRUB_ROW, then the next. -/
def execScrubRow (core pch : Nat) (s : State) : Host.Outcome State Fault Refusal :=
  .next (
    if s.fld DRAM_CH_STAT.RETRAINING core pch = 1 ∨ s.fld DRAM_CH_STAT.ROLE core pch = roleDead then s
    else
      let b := s.fld DRAM_CH_STAT.SCRUB_BANK core pch
      let r := s.fld DRAM_CH_STAT.SCRUB_ROW core pch
      let s1 := s.scrubBeats core pch ((List.range 64).map (fun j => chanByte b r (32 * j)))
      (s1.setFld DRAM_CH_STAT.SCRUB_ROW core pch ((r + 1) % 2048)).setFld DRAM_CH_STAT.SCRUB_BANK core pch
        (if r = 2047 then (b + 1) % 16 else b))

/-! ## Swaps (R165-R169) -/

/-- The fullers of a physical channel. -/
def fullersOf (pch : Nat) : List Nat := [2 * pch, 2 * pch + 1]

/-- A swap or RETURN begins with its copy (R165, R169): roles, and the fullers of both channels claimed. -/
def State.swapStart (s : State) (c lch src dst : Nat) (isReturn window : Bool) : State :=
  let s1 := ((s.setFld DRAM_CH_STAT.ROLE c src roleSource).setFld DRAM_CH_STAT.ROLE c dst roleTarget).fulStopAll c .aborted
    (fullersOf src ++ fullersOf dst)
  { s1 with swaps := Tbl.set s1.swaps c ⟨lch, src, dst, isReturn, window, .copying, 0⟩ }

/-- A swap off a dead channel begins without a copy (R166). -/
def State.deadSwapStart (s : State) (c lch src dst : Nat) (window : Bool) : State :=
  let s1 := (s.setFld DRAM_CH_STAT.ROLE c dst roleTarget).fulStopAll c .aborted (fullersOf src ++ fullersOf dst)
  { s1 with swaps := Tbl.set s1.swaps c ⟨lch, src, dst, false, window, .deadRemap, 0⟩ }

/-- A run of cells of a sorted table replaced. -/
def Tbl.splice {α : Type} (t : Tbl α) (lo hi : Nat) (mid : Tbl α) : Tbl α :=
  t.filter (fun e => decide (e.1 < lo)) ++ mid ++ t.filter (fun e => decide (hi ≤ e.1))

/-- The entries of [lo, hi), moved to begin at `to`. -/
def Tbl.shifted {α : Type} (t : Tbl α) (lo hi dst : Nat) : Tbl α :=
  (t.filter (fun e => decide (lo ≤ e.1) && decide (e.1 < hi))).map (fun e => (e.1 - lo + dst, e.2))

/-- Beats of the source that carry a mark, copied one after another (R165 step 2): data where it is readable, a marker where
it is not; and the number of markers. -/
def State.copyMarked (s : State) (c src dst : Nat) : List Nat → State × Nat
  | [] => (s, 0)
  | b :: bs =>
    let g := s.beatRead c src b ueCopy rqCopy
    if g.status = .ok then State.copyMarked (g.st.beatPut c dst b g.data) c src dst bs
    else
      let r := State.copyMarked (g.st.beatPoison c dst b) c src dst bs
      (r.1, r.2 + 1)

/-- The copy of a channel onto another (R165 step 2). -/
def State.copyChannel (s : State) (c src dst : Nat) : State × Nat :=
  let a := dramByte c src 0
  let b := dramByte c dst 0
  let marked := (s.marks.filter (fun e => decide (a ≤ e.1) && decide (e.1 < a + 2 ^ 26))).map (fun e => e.1 - a)
  let s1 : State := { s with
    mem := Tbl.splice s.mem b (b + 2 ^ 26) (Tbl.shifted s.mem a (a + 2 ^ 26) b),
    marks := s.marks.splice b (b + 2 ^ 26) [] }
  s1.copyMarked c src dst marked

/-- SWAP_COPY_END (R165 steps 2 and 3): the copy is complete, which no retrain delays any more (R160), and new requests to the
channel are held. -/
def execSwapCopyEnd (core : Nat) (s : State) : Host.Outcome State Fault Refusal :=
  .next (match Tbl.find s.swaps core with
    | some w =>
      if w.phase = .copying ∧ s.fld DRAM_CH_STAT.RETRAINING core w.src = 0 ∧ s.fld DRAM_CH_STAT.RETRAINING core w.dst = 0 then
        let r := s.copyChannel core w.src w.dst
        { r.1 with swaps := Tbl.set r.1.swaps core { w with phase := .holding, poisoned := r.2 } }
      else s
    | none => s)

/-- A repair-window command ends (R163). -/
def State.repairEnd (s : State) (site : Nat) (st : Status) : State :=
  match Tbl.find s.repairs site with
  | none => s
  | some r =>
    let s1 : State := { s with repairs := Tbl.del s.repairs site }
    ((s1.setFld DRAM_REPAIR_STAT.BUSY site 0 0).setFld DRAM_REPAIR_STAT.STATUS site 0 st.code).raise .DRAM_REPAIR site uCommon
      [(1, r.core), (1, r.pch), (1, r.op), (1, st.code)]

/-- DRAM_SPARE_IN (R171). -/
def State.spareIn (s : State) (c : Nat) (w : Swap) (poisoned : Nat) (lost : Bool) : State :=
  s.raise .DRAM_SPARE_IN (siteOf c) (coreNo c)
    [(1, w.lch), (1, w.src), (1, w.dst), (4, poisoned), (1, if lost then 1 else 0)]
    { sev := if lost then some 2 else none }

/-- The remap of a swap (R165 steps 3 and 4, R166): the logical channel moves. -/
def State.swapRemap (s : State) (c : Nat) : State :=
  match Tbl.find s.swaps c with
  | none => s
  | some w =>
    let s1 := (s.setFld (CH_REMAP.PCH (w.lch % 8)) c (w.lch / 8) w.dst).setFld DRAM_CH_STAT.ROLE c w.dst roleInService
    match w.phase with
    | .holding =>
      let s2 := s1.setFld DRAM_CH_STAT.ROLE c w.src (if w.isReturn then roleSpare else roleOut)
      let s3 := ({ s2 with swaps := Tbl.del s2.swaps c } : State).spareIn c w w.poisoned false
      if w.window then s3.repairEnd (siteOf c) .ok else s3
    | .deadRemap => { s1 with swaps := Tbl.set s1.swaps c { w with phase := .filling } }
    | _ => s

/-- Every beat of a channel a poison marker (R166). -/
def State.fillPoison (s : State) (c pch : Nat) : State :=
  let b := dramByte c pch 0
  { s with
    mem := Tbl.splice s.mem b (b + 2 ^ 26) [],
    marks := s.marks.splice b (b + 2 ^ 26) ((List.range (2 ^ 21)).map (fun j => (b + 32 * j, Mark.poison))) }

/-- The poison fill after a dead source ends (R166): the channel serves again. -/
def State.fillEnd (s : State) (c : Nat) : State :=
  match Tbl.find s.swaps c with
  | none => s
  | some w =>
    if w.phase = .filling ∧ s.fld DRAM_CH_STAT.RETRAINING c w.dst = 0 then
      let s1 := s.fillPoison c w.dst
      let s2 := ({ s1 with swaps := Tbl.del s1.swaps c } : State).spareIn c w (2 ^ 21) true
      if w.window then s2.repairEnd (siteOf c) .ok else s2
    else s

/-! ## Dead channels (R161, R166, R167, R430) -/

/-- A number kept in a rising list without repeats. -/
def insertNat : List Nat → Nat → List Nat
  | [], k => [k]
  | j :: t, k => if k < j then k :: j :: t else if k = j then j :: t else j :: insertNat t k

/-- A dead channel with no spare fences its core (R167). -/
def State.channelFence (s : State) (c pch : Nat) : State :=
  (s.raise .DRAM_CORE_FENCED (siteOf c) (coreNo c) [(1, pch)]).fenceCore c causeChannel

/-- Dead channels that still serve a logical channel, once the core has lost its last spare (R167, R430): the first of them fences
the core. -/
def State.deadNoSpare (s : State) (c : Nat) : State :=
  match (List.range 16).find? (fun k => s.fld DRAM_CH_STAT.ROLE c (s.remap c k) == roleDead) with
  | some k =>
    if (s.spareOf c).isNone && (Tbl.find s.swaps c).isNone && !s.coreFenced c then s.channelFence c (s.remap c k) else s
  | none => s

/-- A logical channel whose physical channel is dead (R166, R167). -/
def State.deadService (s : State) (c lch pch : Nat) : State :=
  let s1 := ({ s with lost := insertNat s.lost (16 * c + lch) } : State).refreshDeg
  match s1.spareOf c with
  | none => s1.channelFence c pch
  | some sp => if s1.fld DRAM_CFG.AUTO_SWAP (siteOf c) 0 = 1 then s1.deadSwapStart c lch pch sp false else s1

/-- The status an abandoned window command ends with: the spec names none (a free one of R163's). -/
def State.abandonStatus (s : State) : Status :=
  match s.freeVal % 4 with
  | 0 => .badFormat
  | 1 => .stateConflict
  | 2 => .noResource
  | _ => .integrity

/-- A swap abandoned (R430): its window command, if any, ends. -/
def State.swapAbandon (s : State) (c : Nat) (w : Swap) : State :=
  let s1 : State := { s with swaps := Tbl.del s.swaps c }
  if w.window then s1.draw.repairEnd (siteOf c) s.abandonStatus else s1

/-- A channel found dead (R161, R166, R430). -/
def State.channelDead (s : State) (c pch : Nat) : State :=
  if s.fld DRAM_CH_STAT.ROLE c pch = roleDead ∨ 17 ≤ pch then s
  else
    let old := s.chan c pch
    let s1 := ((s.setFld DRAM_CH_STAT.ROLE c pch roleDead).setFld DRAM_CH_STAT.RETRAINING c pch 0).setChan c pch
      { old with due := false }
    let s2 := s1.raise .DRAM_CH_DEAD (siteOf c) uCommon [(1, coreNo c), (1, pch), (1, (s.lchOf c pch).getD 0xFF)]
    match s2.swapOf c pch with
    | some w =>
      let s3 := s2.swapAbandon c w
      if w.dst = pch then
        match w.phase with
        | .copying | .holding => (s3.setFld DRAM_CH_STAT.ROLE c w.src roleInService).deadNoSpare c
        | .deadRemap | .filling => s3.channelFence c pch
      else if w.phase = .filling then s2
      else (s3.setFld DRAM_CH_STAT.ROLE c w.dst roleSpare).deadService c w.lch pch
    | none =>
      match s.lchOf c pch with
      | some k => s2.deadService c k pch
      | none => s2.deadNoSpare c

/-! ## Retraining (R159-R161) -/

/-- A channel of the core retrains. -/
def State.anyRetrain (s : State) (c : Nat) : Bool :=
  (List.range 17).any (fun p => s.fld DRAM_CH_STAT.RETRAINING c p == 1)

/-- A retrain starts, or waits its turn (R159, R165). -/
def State.retrainDue (s : State) (c pch : Nat) : State :=
  if s.fld DRAM_CH_STAT.ROLE c pch = roleDead ∨ 17 ≤ pch then s
  else if s.anyRetrain c || (s.swapOf c pch).isSome then s.setChan c pch { s.chan c pch with due := true }
  else (s.setChan c pch { s.chan c pch with due := false }).setFld DRAM_CH_STAT.RETRAINING c pch 1

/-- RETRAIN_DUE (R159). -/
def execRetrainDue (core pch : Nat) (s : State) : Host.Outcome State Fault Refusal := .next (s.retrainDue core pch)

/-- A waiting retrain of the core starts; which of several is free (R159). Whether 128 ms have passed since the previous retrain of
a channel whose early trigger is met is free, too (time is not modelled, log 8); RETRAIN_DUE starts it otherwise. -/
def State.nextRetrain (s : State) (c : Nat) : State :=
  let ws := (List.range 17).filter (fun p =>
    ((s.chan c p).due || ((s.chan c p).early && decide (s.freeAt (1 + p) % 2 = 1))) && (s.swapOf c p).isNone &&
    s.fld DRAM_CH_STAT.ROLE c p != roleDead)
  match ws[s.freeVal % ws.length]? with
  | some p => (s.draw 18).retrainDue c p
  | none => s

/-- A retrain ends (R160, R161). -/
def State.retrainEnd (s : State) (c pch : Nat) (pass : Bool) : State :=
  let old := s.chan c pch
  let worst := s.fld DRAM_CH_STAT.WORST_GROUP c pch
  let s1 := ((s.setFld DRAM_CH_STAT.RETRAINING c pch 0).addFld DRAM_CH_STAT.RETRAINS c pch 1).setFld
    DRAM_CH_STAT.WORST_GROUP c pch 0x7F
  let s2 := s1.setChan c pch { old with
    groups := [], due := false, early := false, trainTemp := none }
  if pass then s2.setFld DRAM_CH_STAT.DEGRADED c pch 0
  else
    let s3 := ((s2.setFld DRAM_CH_STAT.DEGRADED c pch 1).addFld DRAM_CH_STAT.RT_FAILS c pch 1).raise .DRAM_RETRAIN_FAIL
      (siteOf c) (coreNo c) [(1, pch), (1, worst)]
    match s3.lchOf c pch, s3.spareOf c with
    | some k, some sp =>
      if s3.fld DRAM_CFG.AUTO_SWAP (siteOf c) 0 = 1 ∧ (Tbl.find s3.swaps c).isNone then s3.swapStart c k pch sp false false
      else s3
    | _, _ => s3

/-! ## The repair window (R162, R163) -/

/-- Spare rows and spare beat columns left in a bank (R162). -/
def Chan.rowsLeft (x : Chan) (bank : Nat) : Nat :=
  32 - ((x.rowSoft ++ x.rowFuse).filter (fun e => e.1 == bank)).eraseDups.length - x.rowDead.count bank
def Chan.colsLeft (x : Chan) (bank : Nat) : Nat :=
  8 - ((x.colSoft ++ x.colFuse).filter (fun e => e.1 == bank)).eraseDups.length - x.colDead.count bank

/-- The channel is out of service for a repair: no logical channel maps to it, and no swap runs on it (R163, R164). -/
def State.chanOut (s : State) (c pch : Nat) : Bool := (s.lchOf c pch).isNone && (s.swapOf c pch).isNone

/-- The status a repair command starts with (R163, R167, R168). A RETURN of a logical channel whose channel is dead finds that
channel in the wrong state (DEDUCED: R165 copies from a readable one). -/
def State.repairStatus (s : State) (op c pch bank row col lch : Nat) : Status :=
  let ch := s.chan c pch
  if 8 ≤ op ∨ (op ≠ 6 ∧ 17 ≤ pch) ∨ !s.coreEnabled c then .badFormat
  else match op with
  | 0 => if ch.rowsLeft bank = 0 ∧ !(ch.rowSoft ++ ch.rowFuse).contains (bank, row) then .noResource else .ok
  | 1 => if !s.chanOut c pch then .stateConflict
    else if ch.colsLeft bank = 0 ∧ !(ch.colSoft ++ ch.colFuse).contains (bank, col) then .noResource else .ok
  | 2 => if !s.chanOut c pch then .stateConflict
    else if ch.rowsLeft bank = 0 ∧ !(ch.rowSoft ++ ch.rowFuse).contains (bank, row) then .noResource else .ok
  | 3 => if !s.chanOut c pch then .stateConflict
    else if ch.colsLeft bank = 0 ∧ !(ch.colSoft ++ ch.colFuse).contains (bank, col) then .noResource else .ok
  | 4 => .ok
  | 5 => if s.chanOut c pch then .ok else .stateConflict
  | 6 =>
    if (Tbl.find s.swaps c).isSome then .stateConflict
    else if (s.spareOf c).isNone then .noResource else .ok
  | _ =>
    if (Tbl.find s.swaps c).isSome ∨ !s.chanOut c pch ∨ s.fld DRAM_CH_STAT.ROLE c pch = roleDead ∨ !ch.tested ∨
      s.fld DRAM_CH_STAT.ROLE c (s.remap c lch) = roleDead then .stateConflict
    else .ok

/-- A SWAP or RETURN of the repair window begins, unless a channel it names retrains: then it waits for the retrain's end (R163). A
swap of a dead channel needs no copy (R166); one that is refused for want of a spare fences the core of a dead channel (R167). -/
def State.repairStart (s : State) (site : Nat) : State :=
  match Tbl.find s.repairs site with
  | none => s
  | some r =>
    let c := coreKey site r.core
    let src := s.remap c r.lch
    let dst := if r.op = 7 then r.pch else (s.spareOf c).getD 0
    let begun := match Tbl.find s.swaps c with
      | some w => w.window
      | none => false
    let st := s.repairStatus r.op c r.pch r.bank r.row r.col r.lch
    if r.status ≠ .ok ∨ r.op < 6 ∨ begun = true then s
    else if st ≠ .ok then { s with repairs := Tbl.set s.repairs site { r with status := st } }.deadNoSpare c
    else if s.fld DRAM_CH_STAT.RETRAINING c src = 1 ∨ s.fld DRAM_CH_STAT.RETRAINING c dst = 1 then s
    else if r.op = 6 ∧ s.fld DRAM_CH_STAT.ROLE c src = roleDead then s.deadSwapStart c r.lch src dst true
    else s.swapStart c r.lch src dst (r.op == 7) true

/-- A write of TILE.DRAM_REPAIR_CMD (R163): ignored while BUSY, else it starts the command of its OP. -/
def State.repairWrite (s : State) (site : Nat) (v : Word) : State :=
  if s.fld DRAM_REPAIR_STAT.BUSY site 0 = 1 then s.setFld DRAM_REPAIR_STAT.STATUS site 0 Status.stateConflict.code
  else
    let f : Nat → Nat → Nat := getBits v
    let c := coreKey site (f 59 58)
    let pch := f 57 53
    let lch := f 31 28
    let st := s.repairStatus (f 63 60) c pch (f 52 49) (f 48 38) (f 37 32) lch
    let s1 := (s.writeRw .DRAM_REPAIR_CMD site 0 v).setFld DRAM_REPAIR_STAT.BUSY site 0 1
    let rc : RepairCmd := ⟨f 63 60, f 59 58, pch, f 52 49, f 48 38, f 37 32, lch, f 27 27 == 1, st⟩
    let s2 : State := { s1 with repairs := Tbl.set s1.repairs site rc }
    if st = .noResource ∧ f 63 60 = 6 then s2.deadNoSpare c else s2.repairStart site

/-- A repair command written by an agent with an OP. -/
def State.repairCmd (s : State) (a : Agent) (site : Nat) (v : Word) (op : Nat) : State :=
  s.tileGate a site 0x2100 (fun t => t.repairWrite site (setBits v 63 60 op))

/-- ROW_SOFT (R163). -/
def execRowSoft (by_ : Agent) (site : Nat) (val : Word) (s : State) : Host.Outcome State Fault Refusal :=
  .next (s.repairCmd by_ site val 0)
/-- COL_SOFT (R163). -/
def execColSoft (by_ : Agent) (site : Nat) (val : Word) (s : State) : Host.Outcome State Fault Refusal :=
  .next (s.repairCmd by_ site val 1)
/-- ROW_FUSE (R163). -/
def execRowFuse (by_ : Agent) (site : Nat) (val : Word) (s : State) : Host.Outcome State Fault Refusal :=
  .next (s.repairCmd by_ site val 2)
/-- COL_FUSE (R163). -/
def execColFuse (by_ : Agent) (site : Nat) (val : Word) (s : State) : Host.Outcome State Fault Refusal :=
  .next (s.repairCmd by_ site val 3)
/-- QUERY (R163). -/
def execQuery (by_ : Agent) (site : Nat) (val : Word) (s : State) : Host.Outcome State Fault Refusal :=
  .next (s.repairCmd by_ site val 4)
/-- CLEAR_SOFT (R163). -/
def execClearSoft (by_ : Agent) (site : Nat) (val : Word) (s : State) : Host.Outcome State Fault Refusal :=
  .next (s.repairCmd by_ site val 5)
/-- SWAP (R163, R165). -/
def execSwap (by_ : Agent) (site : Nat) (val : Word) (s : State) : Host.Outcome State Fault Refusal :=
  .next (s.repairCmd by_ site val 6)
/-- RETURN (R163, R168). -/
def execReturn (by_ : Agent) (site : Nat) (val : Word) (s : State) : Host.Outcome State Fault Refusal :=
  .next (s.repairCmd by_ site val 7)

/-- Beats copied to a spare row under R153 and R154: an error corrected, or a marker. -/
def State.rowCopy (s : State) (c pch : Nat) : List Nat → State
  | [] => s
  | b :: bs =>
    let g := s.beatRead c pch b ueCopy rqCopy 0 0 false
    State.rowCopy (if g.status = .ok then g.st.beatPut c pch b g.data else g.st.beatPoison c pch b) c pch bs

/-- Beats that hold poison markers. -/
def State.poisonBeats (s : State) (c pch : Nat) : List Nat → State
  | [] => s
  | b :: bs => State.poisonBeats (s.beatPoison c pch b) c pch bs

/-- Beats that another cell array stands in for: what it holds is not stated (free values). -/
def State.freeBeats (s : State) (c pch : Nat) : List Nat → State
  | [] => s
  | b :: bs => State.freeBeats ((s.draw 32).beatPut c pch b ((List.range 32).map (fun j => BitVec.ofNat 8 (s.freeAt j)))) c pch bs

/-- The beats of a row, and of a beat column, of a bank. -/
def rowBeats (bank row : Nat) : List Nat := (List.range 64).map (fun j => chanByte bank row (32 * j))
def colBeats (bank col : Nat) : List Nat := (List.range 2048).map (fun r => chanByte bank r (32 * col))

/-- A repair's effect on its channel (R162, R163). -/
def State.repairApply (s : State) (c : Nat) (r : RepairCmd) (verifyOk : Bool) : State :=
  let ch := s.chan c r.pch
  match r.op with
  | 0 =>
    let s1 := s.setChan c r.pch { ch with
      rowSoft := if ch.rowSoft.contains (r.bank, r.row) then ch.rowSoft else ch.rowSoft ++ [(r.bank, r.row)], tested := false }
    if r.copy then s1.rowCopy c r.pch (rowBeats r.bank r.row) else s1.poisonBeats c r.pch (rowBeats r.bank r.row)
  | 1 =>
    (s.setChan c r.pch { ch with
      colSoft := if ch.colSoft.contains (r.bank, r.col) then ch.colSoft else ch.colSoft ++ [(r.bank, r.col)],
      tested := false }).freeBeats c r.pch (colBeats r.bank r.col)
  | 2 => if verifyOk then s.setChan c r.pch { ch with rowFuse := ch.rowFuse ++ [(r.bank, r.row)], tested := false } else s
  | 3 => if verifyOk then s.setChan c r.pch { ch with colFuse := ch.colFuse ++ [(r.bank, r.col)], tested := false } else s
  | 5 =>
    (s.setChan c r.pch { ch with rowSoft := [], colSoft := [], tested := false }).freeBeats c r.pch
      ((ch.rowSoft.flatMap (fun e => rowBeats e.1 e.2)) ++ (ch.colSoft.flatMap (fun e => colBeats e.1 e.2)))
  | _ => s

/-- REPAIR_CMD_DONE (R163): the running command's effect and its end. A SWAP or RETURN that started ends with the swap. -/
def execRepairCmdDone (site : Nat) (verifyOk : Bool) (s : State) : Host.Outcome State Fault Refusal :=
  .next (match Tbl.find s.repairs site with
    | none => s
    | some r =>
      let c := coreKey site r.core
      if r.status = .ok ∧ (r.op = 6 ∨ r.op = 7) then s
      else if r.status ≠ .ok then s.repairEnd site r.status
      else if s.fld DRAM_CH_STAT.RETRAINING c r.pch = 1 then s
      else
        let s1 := s.repairApply c r verifyOk
        let s2 := if r.op = 4 then
            (s1.setFld DRAM_REPAIR_STAT.SPARE_ROWS site 0 ((s1.chan c r.pch).rowsLeft r.bank)).setFld
              DRAM_REPAIR_STAT.SPARE_COLS site 0 ((s1.chan c r.pch).colsLeft r.bank)
          else s1
        s2.repairEnd site (if (r.op = 2 ∨ r.op = 3) ∧ verifyOk = false then .integrity else .ok))

/-! ## Error injection (R170) -/

/-- The stored bits an injection inverts. -/
def injectMask (mode a b : Nat) : BitVec 272 :=
  let bit : Nat → BitVec 272 := fun i => if i < 272 then BitVec.ofNat 272 (2 ^ i) else 0
  match mode with
  | 0 => bit a
  | 1 => bit a ^^^ bit b
  | _ => if a < 272 then BitVec.ofNat 272 (15 * 2 ^ (a / 4 * 4)) else 0

/-- A beat as an injection of modes 0-2 finds it: readable or not. -/
def State.injectable (s : State) (c pch byte : Nat) : Bool :=
  match Tbl.find s.marks (dramByte c pch byte) with
  | some (.beatError m) => seenOf m != .uncorrectable
  | some _ => false
  | none => true

/-- An injection done (R170): its effect and RESULT. -/
def State.inject (s : State) (site : Nat) (v : Word) : State :=
  let c := coreKey site (getBits v 62 61)
  let mode := getBits v 60 59
  let o := 32 * getBits v 24 0
  let pch := s.remap c (sliceLch o)
  let byte := chanByte (sliceBank o) (sliceRow o) (sliceCol o)
  if !s.coreEnabled c then s.setFld DRAM_INJECT.RESULT site 0 2
  else if mode = 3 then (s.beatPoison c pch byte).setFld DRAM_INJECT.RESULT site 0 0
  else if s.lchDead c (sliceLch o) || !s.injectable c pch byte then s.setFld DRAM_INJECT.RESULT site 0 1
  else
    let g := s.beatRead c pch byte ueRead rqScrub 0 0 false
    let m := injectMask mode (getBits v 49 41) (getBits v 58 50)
    let s1 := g.st.beatPut c pch byte g.data
    (s1.setMark (dramByte c pch byte) (if m = 0 then none else some (.beatError m))).setFld DRAM_INJECT.RESULT site 0 0

/-- A write of TILE.DRAM_INJECT (R170); the injection it arms is done at once. -/
def State.injectWrite (s : State) (site : Nat) (v : Word) : State :=
  if s.fld DRAM_INJECT.ARM site 0 = 1 then s
  else
    let s1 := s.writeRw .DRAM_INJECT site 0 v
    if getBits v 63 63 = 1 then s1.inject site v else s1

/-- DRAM_INJECT (R170). -/
def execDramInject (by_ : Agent) (site : Nat) (val : Word) (s : State) : Host.Outcome State Fault Refusal :=
  .next (s.tileGate by_ site 0x2010 (fun t => t.injectWrite site (setBits val 63 63 1)))

end Sys2Proof.Machine
end

