-- ==== Sys2Proof/Machine/Riscv.lean ====
section
/-! DEFINITION. The RISC-V base integer instructions the fullers (RV32EC, R172) and the milliner (R194) execute: their fields,
what each asks for, and the compressed forms. The spec names these sets without giving their encodings (log 18). -/

namespace Sys2Proof.Machine

/-! ## Fields of a 32-bit instruction -/

def rvOp (w : Nat) : Nat := bitsOf w 6 0
def rvRd (w : Nat) : Nat := bitsOf w 11 7
def rvF3 (w : Nat) : Nat := bitsOf w 14 12
def rvRs1 (w : Nat) : Nat := bitsOf w 19 15
def rvRs2 (w : Nat) : Nat := bitsOf w 24 20
def rvF7 (w : Nat) : Nat := bitsOf w 31 25

/-- The immediates of the I, S, B, U and J formats. -/
def rvImmI (w : Nat) : Int := signedOf 12 (bitsOf w 31 20)
def rvImmS (w : Nat) : Int := signedOf 12 (bitsOf w 31 25 * 32 + bitsOf w 11 7)
def rvImmB (w : Nat) : Int :=
  signedOf 13 (bitsOf w 31 31 * 4096 + bitsOf w 7 7 * 2048 + bitsOf w 30 25 * 32 + bitsOf w 11 8 * 2)
def rvImmU (w : Nat) : Int := signedOf 32 (bitsOf w 31 12 * 4096)
def rvImmJ (w : Nat) : Int :=
  signedOf 21 (bitsOf w 31 31 * 2 ^ 20 + bitsOf w 19 12 * 4096 + bitsOf w 20 20 * 2048 + bitsOf w 30 21 * 2)

/-- What a base instruction asks for. -/
inductive RvDo where
  | write (rd v : Nat)
  /-- Link register and target. -/
  | jump (rd target : Nat)
  | branch (target : Nat)
  | load (rd addr size : Nat) (signed : Bool)
  | store (addr size v : Nat)
  | nothing
  | trap
  | csr (w : Nat)
  | illegal
  deriving DecidableEq, Repr

/-- The integer operations of OP and OP-IMM, on `n`-bit values. -/
def rvAlu (n f3 : Nat) (alt : Bool) (a b : Nat) : Nat :=
  let m := 2 ^ n
  let sh := b % n
  match f3 with
  | 0 => if alt then (a + m - b % m) % m else (a + b) % m
  | 1 => a * 2 ^ sh % m
  | 2 => if signedOf n a < signedOf n b then 1 else 0
  | 3 => if a < b then 1 else 0
  | 4 => a ^^^ b
  | 5 => if alt then unsignedOf n (signedOf n a / (2 ^ sh : Nat)) else a / 2 ^ sh
  | 6 => a ||| b
  | _ => a &&& b

/-- A branch condition. -/
def rvTaken (n f3 a b : Nat) : Bool :=
  match f3 with
  | 0 => a == b
  | 1 => a != b
  | 4 => decide (signedOf n a < signedOf n b)
  | 5 => !decide (signedOf n a < signedOf n b)
  | 6 => decide (a < b)
  | _ => !decide (a < b)

/-- A 32-bit result in an `n`-bit register. -/
def rvSext32 (n v : Nat) : Nat := unsignedOf n (signedOf 32 v)

/-- What a base instruction asks for (RV32E, RV64I): `n` the register width, `regs` the registers there are, `x` their
values, `pc` its address and `len` its length. -/
def rvBase (n regs : Nat) (x : Nat → Nat) (pc len w : Nat) : RvDo :=
  let m := 2 ^ n
  let wrap : Int → Nat := unsignedOf n
  let rd := rvRd w
  let a := x (rvRs1 w)
  let b := x (rvRs2 w)
  let okD := decide (rd < regs)
  let ok1 := decide (rvRs1 w < regs)
  let ok2 := decide (rvRs2 w < regs)
  let need : Bool → RvDo → RvDo := fun c d => if c then d else .illegal
  match rvOp w with
  | 0x37 => need okD (.write rd (wrap (rvImmU w)))
  | 0x17 => need okD (.write rd (wrap (pc + rvImmU w)))
  | 0x6F => need okD (.jump rd (wrap (pc + rvImmJ w)))
  | 0x67 => need (okD && ok1 && rvF3 w == 0) (.jump rd (wrap (a + rvImmI w) / 2 * 2))
  | 0x63 =>
    need (ok1 && ok2 && rvF3 w != 2 && rvF3 w != 3)
      (.branch (if rvTaken n (rvF3 w) a b then wrap (pc + rvImmB w) else (pc + len) % m))
  | 0x03 =>
    let size := 2 ^ (rvF3 w % 4)
    let fine := if n = 64 then rvF3 w != 7 else rvF3 w == 0 || rvF3 w == 1 || rvF3 w == 2 || rvF3 w == 4 || rvF3 w == 5
    need (okD && ok1 && fine) (.load rd (wrap (a + rvImmI w)) size (decide (rvF3 w < 4)))
  | 0x23 =>
    let size := 2 ^ (rvF3 w % 4)
    need (ok1 && ok2 && decide (8 * size ≤ n) && decide (rvF3 w < 4)) (.store (wrap (a + rvImmS w)) size (b % 2 ^ (8 * size)))
  | 0x13 =>
    let f3 := rvF3 w
    if f3 = 1 ∨ f3 = 5 then
      let hi := bitsOf w 31 20 / n
      need (okD && ok1 && (hi == 0 || (f3 == 5 && hi == 0x400 / n)))
        (.write rd (rvAlu n f3 (hi != 0) a (bitsOf w 31 20 % n)))
    else need (okD && ok1) (.write rd (rvAlu n f3 false a (wrap (rvImmI w))))
  | 0x33 =>
    let alt := rvF7 w == 0x20 && (rvF3 w == 0 || rvF3 w == 5)
    need (okD && ok1 && ok2 && (rvF7 w == 0 || alt)) (.write rd (rvAlu n (rvF3 w) alt a b))
  | 0x1B =>
    let f3 := rvF3 w
    let sh := rvF7 w
    if n ≠ 64 then .illegal
    else if f3 = 0 then need (okD && ok1) (.write rd (rvSext32 n (wrap (a + rvImmI w))))
    else need (okD && ok1 && ((f3 == 1 && sh == 0) || (f3 == 5 && (sh == 0 || sh == 0x20))))
      (.write rd (rvSext32 n (rvAlu 32 f3 (sh != 0) (a % 2 ^ 32) (rvRs2 w))))
  | 0x3B =>
    let f3 := rvF3 w
    let alt := rvF7 w == 0x20 && (f3 == 0 || f3 == 5)
    need (n == 64 && okD && ok1 && ok2 && (f3 == 0 || f3 == 1 || f3 == 5) && (rvF7 w == 0 || alt))
      (.write rd (rvSext32 n (rvAlu 32 f3 alt (a % 2 ^ 32) (b % 2 ^ 32))))
  | 0x0F => if rvF3 w = 0 ∨ rvF3 w = 1 then .nothing else .illegal
  | 0x73 => if w = 0x73 ∨ w = 0x100073 then .trap else if rvF3 w % 4 ≠ 0 then need (okD && (rvF3 w ≥ 4 || ok1)) (.csr w) else .illegal
  | _ => .illegal

/-! ## Compressed forms (RV32C) -/

def rvI (imm rs1 f3 rd op : Nat) : Nat := imm % 4096 * 2 ^ 20 + rs1 * 2 ^ 15 + f3 * 2 ^ 12 + rd * 2 ^ 7 + op
def rvR (f7 rs2 rs1 f3 rd op : Nat) : Nat := f7 * 2 ^ 25 + rs2 * 2 ^ 20 + rs1 * 2 ^ 15 + f3 * 2 ^ 12 + rd * 2 ^ 7 + op
def rvS (imm rs2 rs1 f3 : Nat) : Nat :=
  bitsOf imm 11 5 * 2 ^ 25 + rs2 * 2 ^ 20 + rs1 * 2 ^ 15 + f3 * 2 ^ 12 + bitsOf imm 4 0 * 2 ^ 7 + 0x23
def rvB (imm rs1 f3 : Nat) : Nat :=
  bitsOf imm 12 12 * 2 ^ 31 + bitsOf imm 10 5 * 2 ^ 25 + rs1 * 2 ^ 15 + f3 * 2 ^ 12 + bitsOf imm 4 1 * 2 ^ 8 +
    bitsOf imm 11 11 * 2 ^ 7 + 0x63
def rvJ (imm rd : Nat) : Nat :=
  bitsOf imm 20 20 * 2 ^ 31 + bitsOf imm 10 1 * 2 ^ 21 + bitsOf imm 11 11 * 2 ^ 20 + bitsOf imm 19 12 * 2 ^ 12 + rd * 2 ^ 7 + 0x6F

/-- The jump and branch offsets of the compressed forms, sign-extended to the width given. -/
def rvcImmJ (h : Nat) : Nat :=
  unsignedOf 21 (signedOf 12 (bitsOf h 12 12 * 2048 + bitsOf h 8 8 * 1024 + bitsOf h 10 9 * 256 + bitsOf h 6 6 * 128 +
    bitsOf h 7 7 * 64 + bitsOf h 2 2 * 32 + bitsOf h 11 11 * 16 + bitsOf h 5 3 * 2))
def rvcImmB (h : Nat) : Nat :=
  unsignedOf 13 (signedOf 9 (bitsOf h 12 12 * 256 + bitsOf h 6 5 * 64 + bitsOf h 2 2 * 32 + bitsOf h 11 10 * 8 + bitsOf h 4 3 * 2))
/-- The 6-bit immediate of the CI forms. -/
def rvcImm6 (h : Nat) : Nat := unsignedOf 12 (signedOf 6 (bitsOf h 12 12 * 32 + bitsOf h 6 2))

/-- The 32-bit instruction a compressed one stands for; none: reserved or not in RV32C. -/
def rvcExpand (h : Nat) : Option Nat :=
  let rdq := 8 + bitsOf h 4 2
  let rsq := 8 + bitsOf h 9 7
  let rd := bitsOf h 11 7
  let rs2 := bitsOf h 6 2
  let sh := bitsOf h 6 2
  match bitsOf h 1 0, bitsOf h 15 13 with
  | 0, 0 =>
    let imm := bitsOf h 12 11 * 16 + bitsOf h 10 7 * 64 + bitsOf h 6 6 * 4 + bitsOf h 5 5 * 8
    if imm = 0 then none else some (rvI imm 2 0 rdq 0x13)
  | 0, 2 => some (rvI (bitsOf h 12 10 * 8 + bitsOf h 6 6 * 4 + bitsOf h 5 5 * 64) rsq 2 rdq 0x03)
  | 0, 6 => some (rvS (bitsOf h 12 10 * 8 + bitsOf h 6 6 * 4 + bitsOf h 5 5 * 64) rdq rsq 2)
  | 1, 0 => some (rvI (rvcImm6 h) rd 0 rd 0x13)
  | 1, 1 => some (rvJ (rvcImmJ h) 1)
  | 1, 2 => some (rvI (rvcImm6 h) 0 0 rd 0x13)
  | 1, 3 =>
    if rd = 2 then
      let imm := unsignedOf 12 (signedOf 10 (bitsOf h 12 12 * 512 + bitsOf h 6 6 * 16 + bitsOf h 5 5 * 64 + bitsOf h 4 3 * 128 +
        bitsOf h 2 2 * 32))
      if imm = 0 then none else some (rvI imm 2 0 2 0x13)
    else if rvcImm6 h = 0 then none
    else some (unsignedOf 20 (signedOf 6 (bitsOf h 12 12 * 32 + bitsOf h 6 2)) * 4096 + rd * 128 + 0x37)
  | 1, 4 =>
    match bitsOf h 11 10 with
    | 0 => if bitsOf h 12 12 = 1 then none else some (rvI sh rsq 5 rsq 0x13)
    | 1 => if bitsOf h 12 12 = 1 then none else some (rvI (0x400 + sh) rsq 5 rsq 0x13)
    | 2 => some (rvI (rvcImm6 h) rsq 7 rsq 0x13)
    | _ =>
      if bitsOf h 12 12 = 1 then none
      else match bitsOf h 6 5 with
        | 0 => some (rvR 0x20 rdq rsq 0 rsq 0x33)
        | 1 => some (rvR 0 rdq rsq 4 rsq 0x33)
        | 2 => some (rvR 0 rdq rsq 6 rsq 0x33)
        | _ => some (rvR 0 rdq rsq 7 rsq 0x33)
  | 1, 5 => some (rvJ (rvcImmJ h) 0)
  | 1, 6 => some (rvB (rvcImmB h) rsq 0)
  | 1, 7 => some (rvB (rvcImmB h) rsq 1)
  | 2, 0 => if bitsOf h 12 12 = 1 then none else some (rvI sh rd 1 rd 0x13)
  | 2, 2 => if rd = 0 then none else some (rvI (bitsOf h 12 12 * 32 + bitsOf h 6 4 * 4 + bitsOf h 3 2 * 64) 2 2 rd 0x03)
  | 2, 4 =>
    if bitsOf h 12 12 = 0 then
      if rs2 = 0 then (if rd = 0 then none else some (rvI 0 rd 0 0 0x67)) else some (rvR 0 rs2 0 0 rd 0x33)
    else if rs2 = 0 then (if rd = 0 then some 0x100073 else some (rvI 0 rd 0 1 0x67))
    else some (rvR 0 rs2 rd 0 rd 0x33)
  | 2, 6 => some (rvS (bitsOf h 12 9 * 4 + bitsOf h 8 7 * 64) rs2 2 2)
  | _, _ => none

end Sys2Proof.Machine
end

