-- ==== Sys2Proof/Machine/Fullers.lean ====
section
/-! DEFINITION. Fullers (09): their memories and programs, RV32EC and Xflk instructions, gather-reduce runs, FGO, stops and the
watchdog. -/

namespace Sys2Proof.Machine

/-! ## State shown and registers -/

/-- The fuller is claimed by a swap (R169). -/
def State.fulInSwap (s : State) (c n : Nat) : Bool := (s.swapOf c (n / 2)).isSome

/-- The fuller serves a channel out of service, a spare or a dead one (R169, R172). -/
def State.fulNoService (s : State) (c n : Nat) : Bool :=
  let r := s.fld DRAM_CH_STAT.ROLE c (n / 2)
  r == roleSpare || r == roleOut || r == roleDead

/-- CORE.FUL_STATn.STATE as read: FENCED, CLAIMED and OUT OF SERVICE stand over the run state. -/
def State.fulShown (s : State) (c n : Nat) : Nat :=
  if s.fld FUL_STAT.FENCED c n = 1 then fulFenced
  else if s.fld FUL_STAT.STATE c n ≠ fulStopped then s.fld FUL_STAT.STATE c n
  else if s.fulInSwap c n then fulClaimed
  else if s.fulNoService c n then fulOut
  else fulStopped

/-- An x register of a fuller. -/
def Fuller.reg (f : Fuller) (i : Nat) : Nat := if i = 0 then 0 else Tbl.at f.x i 0

/-- An x register written; x0 keeps 0. -/
def Fuller.setX (f : Fuller) (i v : Nat) : Fuller := if i = 0 then f else { f with x := Tbl.set f.x i (v % 2 ^ 32) }

/-- A wide register. -/
def Fuller.wide (f : Fuller) (i : Nat) : Nat := Tbl.at f.w i 0

/-- A wide register written, with its poison flag. -/
def Fuller.setWide (f : Fuller) (i v : Nat) (poison : Bool) : Fuller :=
  { f with w := Tbl.set f.w i (v % 2 ^ 256),
           wPoison := if poison then addOnce f.wPoison i else f.wPoison.filter (· != i) }

/-- A register and the next pc after an instruction that retires. -/
def State.fulRetire (s : State) (c n : Nat) (f : Fuller) (pc : Nat) : State :=
  s.setFul c n { f with pc := pc % 2 ^ 32, retired := (f.retired + 1) % 2 ^ 64 }

/-! ## IMEM and DMEM (R173, R182) -/

/-- The window offset of a DMEM address range that is aligned and lies in DMEM. -/
def dmemOff (a k align : Nat) : Option Nat :=
  if 0x10000 ≤ a ∧ a + k ≤ 0x12000 ∧ a % align = 0 then some (a - 0x10000 + 0x4000) else none

/-- A DMEM beat is marked poisoned (R181). -/
def State.dmemPoisoned (s : State) (c n off : Nat) : Bool := (Tbl.find s.marks (fulByte c n (off / 32 * 32))).isSome

/-- A DMEM beat written whole. -/
def State.dmemPut (s : State) (c n off : Nat) (bytes : List Byte) : State :=
  { s with mem := memPutBytes s.mem (fulByte c n off) bytes, marks := Tbl.del s.marks (fulByte c n off) }

/-- A DMEM beat that arrives poisoned: marked, its bytes free. -/
def State.dmemPoison (s : State) (c n off : Nat) : State :=
  (s.draw 32).dmemPut c n off ((List.range 32).map (fun j => BitVec.ofNat 8 (s.freeAt j))) |>.setMark (fulByte c n off) (some .poison)

/-- A write through the core window to a fuller's IMEM (at 0) or DMEM (at 0x4000): AUTH, STATE_CONFLICT, or done (R182). -/
def State.fulMemWrite (s : State) (a : Agent) (c n off : Nat) (bytes : List Byte) : Put :=
  if off < 0x2000 ∧ a ≠ .hatband then ⟨s, .auth⟩
  else if s.fulShown c n ≠ fulStopped then ⟨s, .stateConflict⟩
  else
    let s1 : State := { s with mem := memPutBytes s.mem (fulByte c n off) bytes }
    ⟨if 0x2000 ≤ off ∧ off < 0x4000 then s1.setFld FUL_CTL.LOAD_DONE c n 0 else s1, .ok⟩

/-- The DA of an offset in a core window. -/
def coreDa (l core off : Nat) : Nat := 2 * 2 ^ 38 + l * 2 ^ 24 + coreNo core * 2 ^ 21 + off

/-- A core-window write checked by R26: done, or refused, with the status its response gives. -/
def State.coreGate (s : State) (a : Agent) (core off size : Nat) (k : ReqKind) (act : State → Put) : Put :=
  match s.ltileOf (siteOf core) with
  | none => if a = .hatband then act s else ⟨s, .badFormat⟩
  | some l =>
    match s.checkReq k a (coreDa l core off) size with
    | .pass => act s
    | x => ⟨s.refuse a (coreDa l core off) x, x.status⟩

/-- FULLER_MEM_WRITE (R182), answered with its status. -/
def execFullerMemWrite (by_ : Agent) (core n off size : Nat) (val : Word) (s : State) : Host.Outcome State Fault Refusal :=
  .next (
    let p := s.coreGate by_ core (0x100000 + 0x6000 * n + off) size .write
      (fun t => t.fulMemWrite by_ core n off (leBytes size val.toNat))
    p.st.answered ⟨by_, 0, p.status, size, []⟩)

/-- LOAD_DONE's check of the program header (R183). -/
def State.loadDone (s : State) (c n : Nat) : State :=
  let b := memBytes s.mem (fulByte c n 0x2000) 0x2000
  let at_ : Nat → Nat → Nat := fun i k => leNat ((b.drop i).take k)
  let lvl := at_ 4 1
  let have_ := match s.ptOfSite (siteOf c) with
    | some p => Tbl.at s.levels p 0
    | none => 0
  let len := at_ 8 4
  if have_ < lvl then
    ((s.setFld FUL_CTL.LOAD_DONE c n 0).setFld FUL_STAT.LAST_STATUS c n Status.featureLevel.code).raise .FULLER_LOAD_REFUSED
      (siteOf c) (coreNo c) [(1, n), (1, lvl), (1, have_)]
  else if at_ 0 4 ≠ 0x4B4C4650 ∨ at_ 5 3 ≠ 0 ∨ 0x2000 < 16 + len ∨ at_ 12 4 ≠ crc32c ((b.drop 16).take len) then
    (s.setFld FUL_CTL.LOAD_DONE c n 0).setFld FUL_STAT.LAST_STATUS c n Status.badFormat.code
  else (s.setFld FUL_CTL.LOAD_DONE c n 1).setFld FUL_STAT.LAST_STATUS c n Status.ok.code

/-- LOAD_DONE (R183). -/
def execLoadDone (core n : Nat) (s : State) : Host.Outcome State Fault Refusal := .next (s.loadDone core n)

/-- FULLER_STOP (R185). -/
def execFullerStop (core n : Nat) (s : State) : Host.Outcome State Fault Refusal := .next (s.fulStop core n .aborted 0)

/-! ## Traps, poison and fetch (R177, R181) -/

/-- A fuller traps: BAD_FORMAT with its cause (R177). -/
def State.fulTrap (s : State) (c n cause : Nat) : State :=
  (s.raise .FULLER_TRAP (siteOf c) (coreNo c) [(1, n), (1, cause), (2, (s.ful c n).pc % 2 ^ 14)]).fulStop c n .badFormat cause

/-- A run writes poison: shown in POISONED, and reported for its first write (R185, R193). -/
def State.fulWrotePoison (s : State) (c n addr : Nat) : State :=
  if s.fld FUL_STAT.POISONED c n = 1 then s
  else (s.setFld FUL_STAT.POISONED c n 1).raise .FULLER_POISON_STORE (siteOf c) (coreNo c) [(1, n), (4, addr)]

/-- The instruction at a fuller's pc and its length; none: an access fault. -/
def State.fulFetch (s : State) (c n : Nat) : Option (Nat × Nat) :=
  let pc := (s.ful c n).pc
  if pc % 2 ≠ 0 ∨ 0x4000 < pc + 2 then none
  else
    let h := leNat (memBytes s.mem (fulByte c n pc) 2)
    if h % 4 ≠ 3 then some (h, 2)
    else if 0x4000 < pc + 4 then none
    else some (leNat (memBytes s.mem (fulByte c n pc) 4), 4)

/-- The Xflk instructions. -/
inductive FulOp where
  | brd | bwr | wld | wst | wop | crc | sxf | map
  | sys (sub : Nat)
  | base
  deriving DecidableEq, Repr

/-- Which Xflk instruction a word is (R176); `base` for everything else, reserved custom-0 encodings included. -/
def fulOpOf (w len : Nat) : FulOp :=
  let f7 := rvF7 w
  let rd := rvRd w
  let r1 := rvRs1 w
  let r2 := rvRs2 w
  let pick : Bool → FulOp → FulOp := fun c o => if c then o else .base
  if len ≠ 4 ∨ rvOp w ≠ 0x0B then .base
  else match rvF3 w with
  | 0 => pick (decide (f7 < 64) && decide (rd < 16) && decide (r1 < 16) && decide (r2 < 16)) .brd
  | 1 => pick (decide (f7 < 64) && decide (rd < 16) && decide (r1 < 16) && decide (r2 < 16)) .bwr
  | 2 =>
    if f7 = 0 then pick (decide (rd < 8) && decide (r1 < 16) && r2 == 0) .wld
    else pick (f7 == 1 && rd == 0 && decide (r1 < 16) && decide (r2 < 8)) .wst
  | 3 => pick ((decide (f7 ≤ 9) || f7 == 0x10) && decide (rd < 8) && decide (r1 < 8) && decide (r2 < 8)) .wop
  | 4 => pick (f7 == 0 && decide (rd < 16) && decide (r1 < 16) && decide (r2 < 8)) .crc
  | 5 => pick (rd == 0 && decide (r1 < 16) && decide (r2 < 16)) .sxf
  | 6 => pick (f7 == 0 && decide (rd < 16) && decide (r1 < 16) && r2 == 0) .map
  | _ => pick (decide (f7 ≤ 5) && decide (rd < 16) && decide (r1 < (if f7 = 5 then 8 else 16)) && r2 == 0) (.sys f7)

/-- A fuller executes: it runs and is not hung. -/
def State.fulActive (s : State) (c n : Nat) : Bool := s.fld FUL_STAT.STATE c n == fulRunning && !(s.ful c n).hung

/-- The instruction at the pc runs where it is the operation named and nothing holds it. -/
def State.fulRun (s : State) (c n : Nat) (op : FulOp) (hold : Bool) (act : Nat → State) : State :=
  if s.fulActive c n then
    match s.fulFetch c n with
    | some (w, len) => if fulOpOf w len = op ∧ hold = false then act w else s
    | none => s
  else s

/-- A BFENCE of the core that names the channel has issued and not completed (R106): it stands at the head of a running queue,
its wait satisfied. -/
def State.fenceHolds (s : State) (c pch : Nat) : Bool :=
  (List.range 4).any (fun q =>
    match s.headOf c q 1 5 with
    | some f =>
      (match s.waitTest c f.word with
        | .go _ => true
        | _ => false) &&
      (match s.lchOf c pch with
        | some l => (cmdBits f.word 47 32).testBit l
        | none => false)
    | none => false)

/-- The channel's bursts wait for a retrain (R160) or a BFENCE (R106). -/
def State.burstHeld (s : State) (c n : Nat) : Bool :=
  s.fld DRAM_CH_STAT.RETRAINING c (n / 2) == 1 || s.fenceHolds c (n / 2)

/-- The byte in its channel of a bank address of a fuller (R175). -/
def baByte (n ba : Nat) : Nat := n % 2 * 2 ^ 25 + 32 * ba

/-- DRAM_POISON_READ's requester for a fuller (R171). -/
def rqFulPort : Nat := 8

/-! ## BRD and BWR (R178, R181) -/

/-- Beats read from the banks into DMEM; the number that arrived poisoned. -/
def State.brdBeats (s : State) (c n ba off : Nat) : Nat → State × Nat
  | 0 => (s, 0)
  | k + 1 =>
    let g := s.beatRead c (n / 2) (baByte n ba) ueRead rqFulPort
    let s1 := if g.status = .ok then g.st.dmemPut c n off g.data else g.st.dmemPoison c n off
    let r := State.brdBeats s1 c n (ba + 1) (off + 32) k
    (r.1, r.2 + (if g.status = .ok then 0 else 1))

/-- Beats written from DMEM to the banks; the number of markers written. -/
def State.bwrBeats (s : State) (c n ba off : Nat) : Nat → State × Nat
  | 0 => (s, 0)
  | k + 1 =>
    let bad := s.dmemPoisoned c n off
    let s1 := if bad then (s.beatPoison c (n / 2) (baByte n ba)).fulWrotePoison c n ba
      else s.beatPut c (n / 2) (baByte n ba) (memBytes s.mem (fulByte c n off) 32)
    let r := State.bwrBeats s1 c n (ba + 1) (off + 32) k
    (r.1, r.2 + (if bad then 1 else 0))

/-- A BRD or BWR: its checks (R177), its beats, and its count. A BA of more than 20 bits either faults or loses its upper bits
(no rule says which). -/
def State.burst (s : State) (c n w : Nat) (run : State → Nat → Nat → Nat → State × Nat) : State :=
  let f := s.ful c n
  let k := rvF7 w % 64 + 1
  let full := f.reg (rvRs1 w)
  let ba := full % 2 ^ 20
  let s0 := if 2 ^ 20 ≤ full then s.draw else s
  if 2 ^ 20 ≤ full ∧ s.freeVal % 2 = 0 then s0.fulTrap c n 2
  else
    match dmemOff (f.reg (rvRs2 w)) (32 * k) 32 with
    | none => s0.fulTrap c n 3
    | some off =>
      if 64 < ba % 64 + k then s0.fulTrap c n 3
      else
        let r := run s0 ba off k
        r.1.fulRetire c n ((r.1.ful c n).setX (rvRd w) r.2) (f.pc + 4)

/-- FLK.BRD (R178, R181): all its bursts at once (log 111). -/
def execFlkBrd (core n : Nat) (s : State) : Host.Outcome State Fault Refusal :=
  .next (s.fulRun core n .brd (s.burstHeld core n) (fun w => s.burst core n w (fun t ba off k => t.brdBeats core n ba off k)))
/-- FLK.BWR (R178, R181): all its bursts at once (log 111). -/
def execFlkBwr (core n : Nat) (s : State) : Host.Outcome State Fault Refusal :=
  .next (s.fulRun core n .bwr (s.burstHeld core n) (fun w => s.burst core n w (fun t ba off k => t.bwrBeats core n ba off k)))

/-! ## Wide registers (R176, R181) -/

/-- FLK.WLD. -/
def State.wld (s : State) (c n w : Nat) : State :=
  let f := s.ful c n
  match dmemOff (f.reg (rvRs1 w)) 32 32 with
  | none => s.fulTrap c n 2
  | some off =>
    s.fulRetire c n (f.setWide (rvRd w) (leNat (memBytes s.mem (fulByte c n off) 32)) (s.dmemPoisoned c n off)) (f.pc + 4)

/-- FLK.WST. -/
def State.wst (s : State) (c n w : Nat) : State :=
  let f := s.ful c n
  match dmemOff (f.reg (rvRs1 w)) 32 32 with
  | none => s.fulTrap c n 2
  | some off =>
    let s1 := s.dmemPut c n off (leBytes 32 (f.wide (rvRs2 w)))
    (if f.wPoison.contains (rvRs2 w) then s1.setMark (fulByte c n off) (some .poison) else s1).fulRetire c n f (f.pc + 4)

/-- The eight 32-bit lanes of a wide value, and back. -/
def lanes8 (v : Nat) : List Nat := (List.range 8).map (fun i => bitsOf v (32 * i + 31) (32 * i))
def ofLanes8 (l : List Nat) : Nat := l.foldr (fun x acc => x % 2 ^ 32 + 2 ^ 32 * acc) 0

/-- MAX.F32 and MIN.F32 of a lane: NaN where either is; which of two equal zeros is free. -/
def laneMinMax (isMax : Bool) (free a b : Nat) : Nat :=
  match ofFp32 a, ofFp32 b with
  | .nan _, _ => toFp32 (.nan false)
  | _, .nan _ => toFp32 (.nan false)
  | x, y =>
    if x.lt y then (if isMax then b else a)
    else if y.lt x then (if isMax then a else b)
    else if free % 2 = 0 then a else b

/-- A lane operation of FLK.WOP below SORT8 (R176). -/
def wopLane (op free a b : Nat) : Nat :=
  match op with
  | 0 => (a + b) % 2 ^ 32
  | 1 => toFp32 ((ofFp32 a).add (ofFp32 b))
  | 2 => a ^^^ b
  | 3 => a &&& b
  | 4 => a ||| b
  | 5 => if signedOf 32 a < signedOf 32 b then b else a
  | 6 => laneMinMax true free a b
  | 7 => if signedOf 32 b < signedOf 32 a then b else a
  | 8 => laneMinMax false free a b
  | _ => a

/-- A lane comes no later than another in SORT8: NaN first, then descending. -/
def sortBefore (a b : Nat) : Bool :=
  match ofFp32 a, ofFp32 b with
  | .nan _, _ => true
  | _, .nan _ => false
  | x, y => !x.lt y

/-- A lane put into a sorted list. -/
def sortInsert (a : Nat) : List Nat → List Nat
  | [] => [a]
  | b :: bs => if sortBefore a b then a :: b :: bs else b :: sortInsert a bs

/-- SORT8.F32; the order of equal lanes is free. -/
def sort8 (code : Nat) (l : List Nat) : List Nat := (freeOrder l code).foldr sortInsert []

/-- FLK.WOP. -/
def State.wop (s : State) (c n w : Nat) : State :=
  let f := s.ful c n
  let op := rvF7 w
  if op = 0x10 ∧ !s.b1Level c then s.fulTrap c n 1
  else
    let a := lanes8 (f.wide (rvRs1 w))
    let b := lanes8 (f.wide (rvRs2 w))
    let bad := f.wPoison.contains (rvRs1 w) || (op != 9 && op != 0x10 && f.wPoison.contains (rvRs2 w))
    let out := if op = 0x10 then sort8 s.freeVal a
      else (List.range 8).map (fun i => wopLane op (s.freeAt i) (a.getD i 0) (b.getD i 0))
    (s.draw 8).fulRetire c n (f.setWide (rvRd w) (ofLanes8 out) bad) (f.pc + 4)

/-- FLK.CRC: the register is carried on over the bytes of W. -/
def State.flkCrc (s : State) (c n w : Nat) : State :=
  let f := s.ful c n
  s.fulRetire c n (f.setX (rvRd w) ((leBytes 32 (f.wide (rvRs2 w))).foldl crcByte (f.reg (rvRs1 w)))) (f.pc + 4)

/-- FLK_WLD (R176). -/
def execFlkWld (core n : Nat) (s : State) : Host.Outcome State Fault Refusal :=
  .next (s.fulRun core n .wld false (fun w => s.wld core n w))
/-- FLK_WST (R176). -/
def execFlkWst (core n : Nat) (s : State) : Host.Outcome State Fault Refusal :=
  .next (s.fulRun core n .wst false (fun w => s.wst core n w))
/-- FLK_WOP (R176). -/
def execFlkWop (core n : Nat) (s : State) : Host.Outcome State Fault Refusal :=
  .next (s.fulRun core n .wop false (fun w => s.wop core n w))
/-- FLK_CRC (R176). -/
def execFlkCrc (core n : Nat) (s : State) : Host.Outcome State Fault Refusal :=
  .next (s.fulRun core n .crc false (fun w => s.flkCrc core n w))

/-! ## SXF, MAP and SYS (R176) -/

/-- SRAM lanes of a 32-byte beat take the poison mark (R181). -/
def State.sramPoison (s : State) (c off : Nat) : State :=
  { s with marks := (List.range 4).foldl (fun m j => Tbl.set m (sramByte c (off + 8 * j)) .poison) s.marks }

/-- Beats moved from SRAM to DMEM. -/
def State.sxfIn (s : State) (c n so off : Nat) : Nat → State
  | 0 => s
  | k + 1 =>
    let g := s.sramRead c so 32 rqFuller
    State.sxfIn (if g.status = .ok then g.st.dmemPut c n off g.data else g.st.dmemPoison c n off) c n (so + 32) (off + 32) k

/-- Beats moved from DMEM to SRAM. -/
def State.sxfOut (s : State) (c n so off : Nat) : Nat → State
  | 0 => s
  | k + 1 =>
    State.sxfOut (if s.dmemPoisoned c n off then (s.sramPoison c so).fulWrotePoison c n so
      else (s.sramWrite c so (memBytes s.mem (fulByte c n off) 32) rqFuller).st) c n (so + 32) (off + 32) k

/-- FLK.SXF; a DMEM address aligned to a beat and not to 64 bytes either faults or serves (no rule says which). -/
def State.sxf (s : State) (c n w : Nat) : State :=
  let f := s.ful c n
  let k := rvF7 w % 64 + 1
  let so := f.reg (rvRs1 w)
  let da := f.reg (rvRs2 w)
  let half := da % 64 != 0
  let s0 := if half then s.draw else s
  if so % 64 ≠ 0 ∨ 2 ^ 23 < so + 64 * k then s.fulTrap c n 4
  else match dmemOff da (64 * k) 32 with
    | none => s.fulTrap c n 2
    | some off =>
      if half && s.freeVal % 2 == 0 then s0.fulTrap c n 2
      else
        let s1 := if rvF7 w / 64 = 0 then s0.sxfIn c n so off (2 * k) else s0.sxfOut c n so off (2 * k)
        s1.fulRetire c n (s1.ful c n) (f.pc + 4)

/-- The owning fuller and bank address of a slice offset (R175). -/
def State.bankView (s : State) (c o : Nat) : Nat × Nat :=
  (2 * s.remap c (sliceLch o) + sliceBank o / 8, sliceBank o % 8 * 2 ^ 17 + sliceRow o * 2 ^ 6 + sliceCol o / 32)

/-- The slice offset of a bank address of a fuller whose channel serves `lch` (R175). -/
def sliceOfBank (n lch ba : Nat) : Nat :=
  let bank := n % 2 * 8 + bitsOf ba 19 17
  let row := bitsOf ba 16 6
  let bcol := bitsOf ba 5 0
  row * 2 ^ 19 + (bank ^^^ row % 16) * 2 ^ 15 + bitsOf bcol 5 3 * 2 ^ 12 + (lch ^^^ bitsOf row 7 4) * 2 ^ 8 + bitsOf bcol 2 0 * 2 ^ 5

/-- FLK.MAP. -/
def State.flkMap (s : State) (c n w : Nat) : State :=
  let f := s.ful c n
  let v := s.bankView c (f.reg (rvRs1 w) % 2 ^ 30)
  s.fulRetire c n (f.setX (rvRd w) ((if v.1 = n then 2 ^ 31 else 0) + v.1 * 2 ^ 20 + v.2)) (f.pc + 4)

/-- FLK_SXF (R176). -/
def execFlkSxf (core n : Nat) (s : State) : Host.Outcome State Fault Refusal :=
  .next (s.fulRun core n .sxf false (fun w => s.sxf core n w))
/-- FLK_MAP (R175). -/
def execFlkMap (core n : Nat) (s : State) : Host.Outcome State Fault Refusal :=
  .next (s.fulRun core n .map false (fun w => s.flkMap core n w))
/-- FLK_SYS_FENCE (R176): every earlier bank write has ended. -/
def execFlkSysFence (core n : Nat) (s : State) : Host.Outcome State Fault Refusal :=
  .next (s.fulRun core n (.sys 0) false (fun _ => s.fulRetire core n (s.ful core n) ((s.ful core n).pc + 4)))

/-- The status a DONE gives (R185). -/
def State.doneStatus (s : State) (c n code : Nat) : Status :=
  if code % 256 = 0 ∧ s.fld FUL_STAT.POISONED c n = 1 then .poison else fulStatus (code % 256)

/-- FLK_SYS_DONE (R185). -/
def execFlkSysDone (core n : Nat) (s : State) : Host.Outcome State Fault Refusal :=
  .next (s.fulRun core n (.sys 1) false (fun w =>
    let f := s.ful core n
    (s.fulRetire core n f f.pc).fulStop core n (s.doneStatus core n (f.reg (rvRs1 w))) 0))
/-- FLK_SYS_PET (R186): the watchdog reloads; its count is timing (log 8). -/
def execFlkSysPet (core n : Nat) (s : State) : Host.Outcome State Fault Refusal :=
  .next (s.fulRun core n (.sys 2) false (fun _ => s.fulRetire core n (s.ful core n) ((s.ful core n).pc + 4)))

/-- An entry pushed into MIL.FUL_IRQ: the core's first raises its APLIC source, a level that later ones find raised (R176,
R202). -/
def State.fulIrqPush (s : State) (c n tag : Nat) : State :=
  let st := siteOf c
  let m := s.mil st
  let s1 := s.setMil st { m with fulIrq := m.fulIrq ++ [(coreNo c, n, tag)] }
  if m.fulIrq.any (fun e => e.1 == coreNo c) then s1 else s1.milIrq st (5 + coreNo c)

/-- FLK_SYS_IRQ (R176): waits while MIL.FUL_IRQ holds 32 entries. -/
def execFlkSysIrq (core n : Nat) (s : State) : Host.Outcome State Fault Refusal :=
  .next (s.fulRun core n (.sys 3) (decide (32 ≤ (s.mil (siteOf core)).fulIrq.length)) (fun w =>
    let f := s.ful core n
    (s.fulRetire core n f (f.pc + 4)).fulIrqPush core n (f.reg (rvRs1 w))))
/-- FLK_SYS_MBOX (R176). -/
def execFlkSysMbox (core n : Nat) (s : State) : Host.Outcome State Fault Refusal :=
  .next (s.fulRun core n (.sys 4) false (fun w =>
    let f := s.ful core n
    let v := if s.fld FUL_CTL.MBOX_V core n = 1 then s.fld FUL_CTL.MBOX core n else 0
    (s.setFld FUL_CTL.MBOX_V core n 0).fulRetire core n (f.setX (rvRd w) v) (f.pc + 4)))
/-- FLK_SYS_PTST (R176). -/
def execFlkSysPtst (core n : Nat) (s : State) : Host.Outcome State Fault Refusal :=
  .next (s.fulRun core n (.sys 5) false (fun w =>
    let f := s.ful core n
    s.fulRetire core n (f.setX (rvRd w) (if f.wPoison.contains (rvRs1 w) then 1 else 0)) (f.pc + 4)))

/-! ## Base instructions (R172, R173) -/

/-- A load of IMEM or DMEM. -/
def fulLoadOff (a k : Nat) : Option Nat :=
  if a % k = 0 ∧ a + k ≤ 0x4000 then some a else dmemOff a k k

/-- A base instruction of `len` bytes executes, or traps (R177). -/
def State.fulBase (s : State) (c n w len : Nat) : State :=
  let f := s.ful c n
  let w32 := if len = 2 then rvcExpand w else some w
  match w32 with
  | none => s.fulTrap c n 1
  | some i =>
    match rvBase 32 16 f.reg f.pc len i with
    | .write rd v => s.fulRetire c n (f.setX rd v) (f.pc + len)
    | .jump rd t => s.fulRetire c n (f.setX rd (f.pc + len)) t
    | .branch t => s.fulRetire c n f t
    | .load rd a k sg =>
      match fulLoadOff a k with
      | some off =>
        let v := leNat (memBytes s.mem (fulByte c n off) k)
        s.fulRetire c n (f.setX rd (if sg then unsignedOf 32 (signedOf (8 * k) v) else v)) (f.pc + len)
      | none => s.fulTrap c n 2
    | .store a k v =>
      match dmemOff a k k with
      | some off => ({ s with mem := memPutBytes s.mem (fulByte c n off) (leBytes k v) } : State).fulRetire c n f (f.pc + len)
      | none => s.fulTrap c n 2
    | .nothing => s.fulRetire c n f (f.pc + len)
    | .trap => s.fulTrap c n 5
    | .csr k =>
      if (rvF3 k = 2 ∨ rvF3 k = 3 ∨ rvF3 k = 6 ∨ rvF3 k = 7) ∧ rvRs1 k = 0 ∧ bitsOf k 31 20 = 0xB00 then
        s.draw.fulRetire c n (f.setX (rvRd k) s.freeVal) (f.pc + len)
      else if (rvF3 k = 2 ∨ rvF3 k = 3 ∨ rvF3 k = 6 ∨ rvF3 k = 7) ∧ rvRs1 k = 0 ∧ bitsOf k 31 20 = 0xB02 then
        s.fulRetire c n (f.setX (rvRd k) f.retired) (f.pc + len)
      else s.fulTrap c n 1
    | .illegal => s.fulTrap c n 1

/-- FULLER_BASE_INSTR (R173, R177). -/
def execFullerBaseInstr (core n : Nat) (s : State) : Host.Outcome State Fault Refusal :=
  .next (if s.fulActive core n then
      match s.fulFetch core n with
      | none => s.fulTrap core n 2
      | some (w, len) => if fulOpOf w len = .base then s.fulBase core n w len else s
    else s)

/-! ## Watchdog (R186) -/

/-- FULLER_WDOG_EXPIRY (R186): counted and reported; whether the fuller stops in time is free. -/
def execFullerWdogExpiry (core n : Nat) (s : State) : Host.Outcome State Fault Refusal :=
  .next (
    let st := s.fld FUL_STAT.STATE core n
    if (st = fulRunning ∨ st = fulGather) ∧ (s.ful core n).hung = false then
      let s1 := ((s.addFld FUL_STAT.HANGS core n 1).raise .FULLER_HANG (siteOf core) (coreNo core)
        [(1, n), (2, (s.ful core n).pc % 2 ^ 14), (1, s.fld FUL_CFG.WD core 0)])
      if s.freeVal % 2 = 0 then s1.draw.fulStop core n .aborted 0
      else s1.draw.setFul core n { s1.ful core n with hung := true }
    else s)

/-- FULLER_FENCE_TIMEOUT (R186): a hung fuller is fenced. -/
def execFullerFenceTimeout (core n : Nat) (s : State) : Host.Outcome State Fault Refusal :=
  .next (if (s.ful core n).hung then
      ((s.fulStop core n .aborted 0).setFld FUL_STAT.FENCED core n 1).raise .FULLER_FENCED (siteOf core) (coreNo core)
        [(1, n), (1, n / 2)]
    else s)

end Sys2Proof.Machine
end

