-- ==== Sys2Proof/Machine/Gather.lean ====
section
/-! DEFINITION. Gather-reduce runs of the fullers (R187-R191) and FGO (R184). -/

namespace Sys2Proof.Machine

/-! ## The descriptor (R187) -/

/-- Bits of a gather-reduce descriptor. -/
def grBits (d : BitVec 512) (hi lo : Nat) : Nat := bitsOf d.toNat hi lo

def grPattern (d : BitVec 512) : Nat := grBits d 511 448
def grBase (d : BitVec 512) : Nat := grBits d 447 418
def grStride (d : BitVec 512) : Nat := grBits d 417 394
def grRowBeats (d : BitVec 512) : Nat := grBits d 393 383 + 1
def grRows (d : BitVec 512) : Nat := grBits d 382 367 + 1
def grIdx (d : BitVec 512) : Nat := grBits d 366 344
def grDst (d : BitVec 512) : Nat := grBits d 343 321
def grRes (d : BitVec 512) : Nat := grBits d 320 298
def grMode (d : BitVec 512) : Nat := grBits d 297 296
def grRed (d : BitVec 512) : Nat := grBits d 295 293
def grBank (d : BitVec 512) : Bool := grBits d 292 292 == 1
def grIdxNone (d : BitVec 512) : Bool := grBits d 291 291 == 1
def grPmode (d : BitVec 512) : Nat := grBits d 290 289

/-- A descriptor keeps R187 and R188, for `k` named fullers. -/
def grOk (d : BitVec 512) (k : Nat) : Bool :=
  decide (grRed d < 6) && decide (grPmode d < 3) && grBits d 288 0 == 0 && grBase d % 32 == 0 &&
  (grIdxNone d || (grIdx d % 4 == 0 && decide (grIdx d + 4 * grRows d ≤ 2 ^ 23))) &&
  (grMode d != 0 || (grDst d % 64 == 0 && decide (grDst d + grRows d * grRowBeats d * 32 ≤ 2 ^ 23))) &&
  grRes d % 64 == 0 && decide (grRes d + 64 * k ≤ 2 ^ 23)

/-! ## One beat -/

/-- What a run has gathered so far. -/
structure GrAcc where
  acc       : List Nat
  beats     : Nat := 0
  mism      : Nat := 0
  first     : Nat := 0xFFFFFFFF
  poisoned  : Nat := 0
  corrected : Nat := 0
  status    : Status := .ok

/-- The 32 bytes FILL writes and CHECK expects at beat `j` of a row (PMODE, R187). -/
def grFillBytes (d : BitVec 512) (ba j : Nat) : List Byte :=
  let p := grPattern d
  let v := match grPmode d with
    | 0 => p
    | 1 => p ^^^ (ba * 2 ^ 32 + ba)
    | _ => if j % 2 = 0 then p else 2 ^ 64 - 1 - p
  leBytes 8 v ++ leBytes 8 v ++ leBytes 8 v ++ leBytes 8 v

/-- The accumulator a REDUCE starts from: one CRC state, or eight lanes of 0. -/
def grStart (d : BitVec 512) : List Nat := if grRed d = 5 then [0xFFFFFFFF] else List.replicate 8 0

/-- A beat folded into the accumulator by RED (R189). -/
def grFold (red free : Nat) (acc : List Nat) (bytes : List Byte) : List Nat :=
  let l := lanes8 (leNat bytes)
  let op := match red with
    | 0 => 0 | 1 => 1 | 2 => 2 | 3 => 5 | _ => 6
  if red = 5 then [bytes.foldl crcByte (acc.headD 0)]
  else (List.range 8).map (fun i => wopLane op (free + i) (acc.getD i 0) (l.getD i 0))

/-- A stored error that a read corrects. -/
def State.beatCorrected (s : State) (c pch byte : Nat) : Bool :=
  match seenOf (Mark.mask (Tbl.find s.marks (dramByte c pch byte))) with
  | .correctable _ | .wrong => true
  | _ => false

/-- One beat of a run (R189): `ba` its bank address on fuller `v`, `off` where GATHER puts it, `j` its place in the row. -/
def State.grBeat (s : State) (c n v : Nat) (d : BitVec 512) (ba off j : Nat) (a : GrAcc) : State × GrAcc :=
  let byte := baByte v ba
  let pch := v / 2
  if grMode d = 2 then (s.beatPut c pch byte (grFillBytes d ba j), { a with beats := a.beats + 1 })
  else
    let fixed := s.beatCorrected c pch byte
    let g := s.beatRead c pch byte ueRead rqFulPort
    let bad := g.status != .ok
    let wrong := grMode d == 3 && (bad || g.data != grFillBytes d ba j)
    let a1 : GrAcc := { a with
      beats := a.beats + 1, poisoned := a.poisoned + (if bad then 1 else 0), mism := a.mism + (if wrong then 1 else 0),
      first := if (bad || wrong) && a.first == 0xFFFFFFFF then ba else a.first,
      corrected := a.corrected + (if fixed && !bad then 1 else 0) }
    match grMode d with
    | 0 =>
      if bad then ((g.st.sramPoison c off).fulWrotePoison c n off, a1)
      else ((g.st.sramWrite c off g.data rqFuller).st, a1)
    | 1 => if bad then (g.st, a1) else (g.st.draw 8, { a1 with acc := grFold (grRed d) g.st.freeVal a.acc g.data })
    | _ => (g.st, a1)

/-! ## Rows -/

/-- A fuller serves a bank of its channel in a run: its own half, and its fenced partner's (R186). -/
def State.grServes (s : State) (c n v : Nat) : Bool :=
  v == n || (v == n ^^^ 1 && s.fld FUL_STAT.FENCED c v == 1)

/-- The beats of a row in slice view, from slice offset `o` on (R189). -/
def State.grRowSlice (s : State) (c n : Nat) (d : BitVec 512) (o off j : Nat) : Nat → GrAcc → State × GrAcc
  | 0, a => (s, a)
  | k + 1, a =>
    let v := s.bankView c o
    let r := if s.grServes c n v.1 then s.grBeat c n v.1 d v.2 off j a else (s, a)
    State.grRowSlice r.1 c n d (o + 32) (off + 32) (j + 1) k r.2

/-- The beats of a row in bank view on fuller `v`. -/
def State.grRowBank (s : State) (c n v : Nat) (d : BitVec 512) (ba off j : Nat) : Nat → GrAcc → State × GrAcc
  | 0, a => (s, a)
  | k + 1, a =>
    let r := s.grBeat c n v d ba off j a
    State.grRowBank r.1 c n v d (ba + 1) (off + 32) (j + 1) k r.2

/-- The index of a row, read through the SRAM window. -/
def State.grIndex (s : State) (c : Nat) (d : BitVec 512) (i : Nat) : Got :=
  if grIdxNone d then ⟨s, .ok, leBytes 4 i⟩ else s.sramRead c (grIdx d + 4 * i) 4 rqFuller

/-- The rows of a run on the banks of fuller `v`, in index order (R188, R189). -/
def State.grRowsRun (s : State) (c n v : Nat) (d : BitVec 512) : List Nat → GrAcc → State × GrAcc
  | [], a => (s, a)
  | i :: is, a =>
    let g := s.grIndex c d i
    let start := grBase d + leNat g.data * grStride d * 32
    let bytes := grRowBeats d * 32
    if g.status ≠ .ok then (g.st, { a with status := g.status })
    else if (if grBank d then 2 ^ 25 else 2 ^ 30) < start + bytes then (g.st, { a with status := .badFormat })
    else
      let off := grDst d + i * grRowBeats d * 32
      let r := if grBank d then g.st.grRowBank c n v d (start / 32) off 0 (grRowBeats d) a
        else g.st.grRowSlice c n d start off 0 (grRowBeats d) a
      State.grRowsRun r.1 c n v d is r.2

/-- A whole run of a fuller: its own rows, then in bank view those of a fenced partner. -/
def State.grAll (s : State) (c n : Nat) (d : BitVec 512) : State × GrAcc :=
  let r := s.grRowsRun c n n d (List.range (grRows d)) { acc := grStart d }
  if grBank d && s.fld FUL_STAT.FENCED c (n ^^^ 1) == 1 && r.2.status == .ok then
    r.1.grRowsRun c n (n ^^^ 1) d (List.range (grRows d)) r.2
  else r

/-! ## The end of a run (R190) -/

/-- A run's status: what stopped it, POISON, ABORTED, or, where both apply, either (no rule orders them). -/
def State.grStatus (s : State) (d : BitVec 512) (a : GrAcc) : Status :=
  if a.status ≠ .ok then a.status
  else if a.mism ≠ 0 ∧ grMode d = 3 then (if a.poisoned ≠ 0 ∧ s.freeVal % 2 = 0 then .poison else .aborted)
  else if a.poisoned ≠ 0 then .poison
  else .ok

/-- The 32 accumulator bytes of a result record, of a CRC the upper 28 zero; the accumulator is free where a poisoned beat was to
be folded in. -/
def State.grAccBytes (s : State) (d : BitVec 512) (a : GrAcc) : List Byte :=
  if grMode d ≠ 1 then List.replicate 32 0
  else if a.poisoned ≠ 0 then
    (if grRed d = 5 then leBytes 32 (s.freeAt 1 % 2 ^ 32) else (List.range 32).map (fun j => BitVec.ofNat 8 (s.freeAt (1 + j))))
  else if grRed d = 5 then leBytes 32 (a.acc.headD 0 ^^^ 0xFFFFFFFF)
  else leBytes 32 (ofLanes8 a.acc)

/-- The 64 bytes of a result record (R190). -/
def State.grRecord (s : State) (n : Nat) (d : BitVec 512) (a : GrAcc) (st : Status) : List Byte :=
  s.grAccBytes d a ++ leBytes 4 a.beats ++ leBytes 4 (if grMode d = 3 then a.mism else 0) ++ leBytes 4 a.first ++
    leBytes 4 a.poisoned ++ leBytes 4 a.corrected ++ leBytes 1 st.code ++ leBytes 1 n ++ leBytes 10 0

/-- A run of the gather-reduce mode carried through (R187-R190): beats, record, status, event; its bursts at once (log 111). -/
def State.grRun (s : State) (c n : Nat) (g : GrRun) : State :=
  let d := g.desc
  let r := s.grAll c n d
  let st := r.1.grStatus d r.2
  let s1 := ((r.1.sramWrite c (grRes d + 64 * g.rank) (r.1.grRecord n d r.2 st) rqFuller).st).draw 33
  let s2 := if grMode d = 3 ∧ r.2.mism ≠ 0 then
      s1.raise .GR_CHECK_FAIL (siteOf c) (coreNo c) [(1, n), (4, r.2.first), (4, r.2.mism)]
    else s1
  let s3 := if g.mgmt ∧ grMode d = 3 ∧ st = .ok then
      s2.setChan c (n / 2) { s2.chan c (n / 2) with tested := true }
    else s2
  s3.fulStop c n st 0

/-- Lower channels of the core whose FILL or CHECK still runs (R191). -/
def State.grAhead (s : State) (c n : Nat) : Nat :=
  ((List.range (n / 2)).filter (fun p => (fullersOf p).any (fun m =>
    match (s.ful c m).gr with
    | some g => s.fld FUL_STAT.STATE c m == fulGather && decide (2 ≤ grMode g.desc)
    | none => false))).length

/-- A gather-reduce step of a mode: the fuller's run of that mode, where no retrain and no earlier channel holds it. -/
def State.grStep (s : State) (c n mode : Nat) : State :=
  match (s.ful c n).gr with
  | some g =>
    if s.fld FUL_STAT.STATE c n = fulGather ∧ grMode g.desc = mode ∧ (s.ful c n).hung = false ∧ s.burstHeld c n = false ∧
        (mode < 2 ∨ s.grAhead c n < 9) then s.grRun c n g
    else s
  | none => s

/-- GR_GATHER (R189). -/
def execGrGather (core n : Nat) (s : State) : Host.Outcome State Fault Refusal := .next (s.grStep core n 0)
/-- GR_REDUCE (R189). -/
def execGrReduce (core n : Nat) (s : State) : Host.Outcome State Fault Refusal := .next (s.grStep core n 1)
/-- GR_FILL (R189). -/
def execGrFill (core n : Nat) (s : State) : Host.Outcome State Fault Refusal := .next (s.grStep core n 2)
/-- GR_CHECK (R189). -/
def execGrCheck (core n : Nat) (s : State) : Host.Outcome State Fault Refusal := .next (s.grStep core n 3)

/-! ## FGO (R108, R184) -/

/-- ACT_MAX / 2 of the band (R157, R180). -/
def State.actReserve (s : State) (c : Nat) : Nat := 6 - min 2 (s.fld DRAM_STAT.BAND c 0)

/-- A fuller starts a program at ENTRY (R173, R184). -/
def State.fulStart (s : State) (c arg entry n : Nat) : State :=
  let ident := n * 2 ^ 26 + n / 2 * 2 ^ 21 + (s.lchOf c (n / 2)).getD 0 * 2 ^ 17 + coreNo c * 2 ^ 15
  let s1 := (s.setFld FUL_STAT.STATE c n fulRunning).setFld FUL_STAT.POISONED c n 0
  s1.setFul c n { s1.ful c n with x := [(10, arg), (11, ident), (12, s.actReserve c)], pc := entry, gr := none, hung := false }

/-- A fuller starts a gather-reduce run. -/
def State.fulGrStart (s : State) (c n : Nat) (g : GrRun) : State :=
  let s1 := (s.setFld FUL_STAT.STATE c n fulGather).setFld FUL_STAT.POISONED c n 0
  s1.setFul c n { s1.ful c n with gr := some g, hung := false }

/-- Fullers started one after another. -/
def State.fulStartAll (s : State) (c arg entry : Nat) : List Nat → State
  | [] => s
  | n :: ns => State.fulStartAll (s.fulStart c arg entry n) c arg entry ns

/-- Gather-reduce runs started one after another, with their ranks. -/
def State.fulGrStartAll (s : State) (c : Nat) (d : BitVec 512) (mgmt : Bool) : List Nat → Nat → State
  | [], _ => s
  | n :: ns, rank => State.fulGrStartAll (s.fulGrStart c n ⟨d, rank, mgmt⟩) c d mgmt ns (rank + 1)

/-- The first check of R184 that fails, below BAD_FORMAT. -/
def State.fgoCheck (s : State) (c entry : Nat) (ns : List Nat) : Status :=
  if ns.any (fun n => s.fld FUL_STAT.FENCED c n == 1) then .fenced
  else if ns.any (s.fulNoService c) then .noResource
  else if ns.any (fun n => s.fulInSwap c n || s.fld FUL_STAT.STATE c n != fulStopped) then .stateConflict
  else if entry ≠ 0x3FFF ∧ 0x2000 ≤ entry ∧ ns.any (fun n => s.fld FUL_CTL.LOAD_DONE c n == 0) then .stateConflict
  else .ok

/-- FGO at issue (R184). -/
def State.fgoAct (s : State) (c : Nat) (f : Fetched) : State :=
  let arg := cmdBits f.word 111 80
  let entry := cmdBits f.word 79 66
  let ns := maskBits 34 (cmdBits f.word 65 32)
  let wait : InFlight := { index := f.index, word := f.word, wait := ns }
  if ns = [] ∨ (entry % 2 = 1 ∧ entry ≠ 0x3FFF) ∨ (entry = 0x3FFF ∧ (arg % 64 ≠ 0 ∨ 2 ^ 23 < arg + 64)) then
    s.finishNow c 3 f .badFormat
  else if entry = 0x3FFF then
    let g := s.sramRead c arg 64 rqDma
    let d := BitVec.ofNat 512 (leNat g.data)
    if g.status ≠ .ok then g.st.finishNow c 3 f g.status
    else if !grOk d ns.length then g.st.finishNow c 3 f .badFormat
    else
      let st := g.st.fgoCheck c entry ns
      if st ≠ .ok then g.st.finishNow c 3 f st else (g.st.fulGrStartAll c d false ns 0).start c 3 wait
  else
    let st := s.fgoCheck c entry ns
    if st ≠ .ok then s.finishNow c 3 f st else (s.fulStartAll c arg entry ns).start c 3 wait

/-- Fewer than eight move commands run (R103), channels that POISON has halted counted with them (R375). -/
def State.moveRoom (s : State) (c : Nat) : Bool :=
  decide (((s.queue c 3).inflight.filter (fun x => cmdClass x.word == 4)).length + (s.core c).dmaHalted < 8)

/-- FGO (R184). -/
def execFgo (core : Nat) (s : State) : Host.Outcome State Fault Refusal :=
  .next (s.issue core 3 4 3 (fun _ => s.moveRoom core) (fun f t => t.fgoAct core f))

end Sys2Proof.Machine
end

