-- ==== Sys2Proof/Machine/Moves.lean ====
section
/-! DEFINITION. Atomic operations at device addresses (R26, R101), RSIG (R105) and BFENCE (R106). -/

namespace Sys2Proof.Machine

/-! ## Atomic operations at a device address (R26, R101) -/

/-- The semaphore of a core that an SRAM word is. -/
def State.semAt (s : State) (c off : Nat) : Option Nat :=
  if s.semOff c 0 ≤ off ∧ off < s.semOff c 64 ∧ (off - s.semOff c 0) % 4 = 0 then some ((off - s.semOff c 0) / 4) else none

/-- An atomic operation that passed its checks, with SEM_SATURATED where a semaphore saturates (R101, R119). -/
def State.atomicAt (s : State) (a : Agent) (t : Target) (op : AmoOp) (size x : Nat) : Got :=
  let r := s.memAtomic a t op size x
  match t, r.2 with
  | .sram c off, true =>
    match r.1.st.semAt c off with
    | some i => ⟨r.1.st.semSaturated c i (8 + pktUnitOf a), r.1.status, r.1.data⟩
    | none => r.1
  | _, _ => r.1

/-- An atomic request of an agent (R26). -/
def State.daAtomic (s : State) (a : Agent) (da : Nat) (op : AmoOp) (size x : Nat) : Got :=
  match s.checkReq .atomic a da size with
  | .pass => s.atomicAt a (s.decodeDa da) op size x
  | k => ⟨s.refuse a da k, k.status, []⟩

/-! ## RSIG and BFENCE -/

/-- RSIG at issue: its checks and its addition; it completes on the acknowledgement (R105). -/
def State.rsigAct (s : State) (c q : Nat) (f : Fetched) : State :=
  let da := cmdBits f.word 71 32
  if da % 4 ≠ 0 ∨ bitsOf da 39 38 ≠ 1 then s.finishNow c q f .badFormat
  else
    let g := s.daAtomic (.core c) da .semAdd 4 (cmdBits f.word 75 72)
    g.st.start c q { index := f.index, word := f.word, status := g.status }

/-- RSIG (R105). -/
def execRsig (core q : Nat) (s : State) : Host.Outcome State Fault Refusal :=
  .next (s.issue core q 1 3 (fun _ => s.quiet core q) (fun f t => t.rsigAct core q f))

/-- A write of a running command goes to a named channel of the core's own slice. -/
def State.storeOnChannels (s : State) (c mask : Nat) : Store → Bool
  | .req da data =>
    match s.decodeDa da with
    | .dram c' o => c' == c && (sliceLchs o data.length).any (fun k => mask.testBit k)
    | _ => false
  | .sram _ _ => false

/-- A held request of the core waits on a named channel of its own slice. -/
def State.heldOnChannels (s : State) (c mask : Nat) : Held → Bool
  | .read by_ _ da len => by_ == .core c && s.storeOnChannels c mask (.req da (List.replicate len 0))
  | .write by_ _ da data => by_ == .core c && s.storeOnChannels c mask (.req da data)
  | .atomic by_ _ da _ size _ => by_ == .core c && s.storeOnChannels c mask (.req da (List.replicate size 0))
  | .sliceRead c' o len rq _ _ => c' == c && rq == coreNo c && (sliceLchs o len).any (fun k => mask.testBit k)
  | .sliceWrite c' o data rq => c' == c && rq == coreNo c && (sliceLchs o data.length).any (fun k => mask.testBit k)

/-- BFENCE's condition (R106): no access of the core to the named channels is outstanding, and none of them retrains (R160). -/
def State.bfenceOk (s : State) (c : Nat) (f : Fetched) : Bool :=
  let mask := cmdBits f.word 47 32
  (List.range 4).all (fun q => (s.queue c q).inflight.all (fun x => x.writes.all (fun w => !s.storeOnChannels c mask w))) &&
  (s.held ++ s.stalled).all (fun h => !s.heldOnChannels c mask h) &&
  (maskBits 16 mask).all (fun k => !s.lchHeld c k)

/-- BFENCE (R106). -/
def execBfence (core q : Nat) (s : State) : Host.Outcome State Fault Refusal :=
  .next (s.control core q 1 5 (fun f => s.bfenceOk core f) (fun _ t => t))

/-! ## Writes outstanding (R20) -/

/-- The requester of R20 a command's writes count as. -/
def cmdRequester (w : BitVec 128) : Nat :=
  match cmdClass w with
  | 5 => rqArray
  | 6 => rqMvPath
  | 7 => rqVector
  | 8 => rqAttention
  | _ => rqDma

end Sys2Proof.Machine
end

