-- ==== Sys2Proof/Machine/Submit.lean ====
section
/-! DEFINITION. Commands of the host: their entries (R211, R224), when one starts (R215, R216), the checks every command
meets (R207, R223, R226, R227) and its completion (R212, R214). -/

namespace Sys2Proof.Machine

/-! ## Fields of a submission entry (R211) -/

/-- `n` bytes of an entry from byte `b` on. -/
def Sub.at (x : Sub) (b n : Nat) : Nat := bitsOf x.word.toNat (8 * (b + n) - 1) (8 * b)
def Sub.opc (x : Sub) : Nat := x.at 0 1
def Sub.sgl (x : Sub) : Bool := x.at 1 1 % 2 == 1
def Sub.cid (x : Sub) : Nat := x.at 2 2
def Sub.target (x : Sub) : Nat := x.at 4 4
def Sub.haddr (x : Sub) : Nat := x.at 8 8
def Sub.hlen (x : Sub) : Nat := x.at 16 4

/-- What R223 and R226 say of a command: its opcode, whether its queue is the admin queue, whether it is PF0's alone, the
byte ranges it uses beyond bytes 0-3, and the device and partition states that allow it. -/
structure CmdRow where
  opc   : Nat
  admin : Bool
  pf0   : Bool
  used  : List (Nat × Nat)
  dev   : List Nat
  part  : List Nat

/-- TARGET, HADDR and HLEN as byte ranges. -/
def fT : Nat × Nat := (4, 8)
def fH : Nat × Nat := (8, 16)
def fL : Nat × Nat := (16, 20)

/-- Device states 7 READY to 10 DRAINING. -/
def devRun : List Nat := [7, 8, 9, 10]
/-- Every partition state. -/
def partAll : List Nat := [0, 1, 2, 3, 4]

/-- The commands of R223 with the columns of R226. -/
def cmdRows : List CmdRow :=
  [⟨0x01, true, false, [fT, fH, (24, 30)], devRun, partAll⟩,
   ⟨0x02, true, false, [fT], devRun, partAll⟩,
   ⟨0x03, true, false, [fT, fH, (24, 28)], devRun, partAll⟩,
   ⟨0x04, true, false, [fT], devRun, partAll⟩,
   ⟨0x05, true, false, [fT, fH, (24, 33)], devRun, partAll⟩,
   ⟨0x06, true, false, [fT], devRun, partAll⟩,
   ⟨0x07, true, false, [fT, fH, fL], 11 :: devRun, partAll⟩,
   ⟨0x08, true, false, [fT, fH, fL, (24, 25)], 11 :: devRun, partAll⟩,
   ⟨0x09, true, false, [fT, (24, 28)], devRun, partAll⟩,
   ⟨0x0A, true, false, [], [7, 8, 9], [0]⟩,
   ⟨0x0B, true, false, [], devRun, [1]⟩,
   ⟨0x0C, true, true, [fT], devRun, [0, 1, 2]⟩,
   ⟨0x0D, true, true, [fT], devRun, [0, 1, 2, 3]⟩,
   ⟨0x0E, true, true, [fT, fH, fL], devRun, [0, 3]⟩,
   ⟨0x0F, true, true, [], [7, 8, 9], partAll⟩] ++
  [⟨0x20, false, false, [fH, fL, (24, 33)], devRun, [0, 1, 2, 4]⟩,
   ⟨0x21, false, false, [fH, fL, (24, 32)], devRun, [0, 1, 2, 4]⟩,
   ⟨0x22, false, false, [fT, fH, fL], devRun, [0, 1]⟩,
   ⟨0x30, false, false, [fT, fH, fL, (24, 56)], [8, 9], [1]⟩,
   ⟨0x31, false, false, [fT], [8, 9, 10], [1, 2]⟩,
   ⟨0x38, false, false, [fT, (24, 33)], [8, 9, 10], [1, 2]⟩,
   ⟨0x39, false, false, [fT, fH, fL, (24, 62)], [8, 9], [1]⟩,
   ⟨0x3A, false, true, [fT, (24, 28)], devRun, [0, 4]⟩]

/-- The row of an opcode. -/
def cmdRow (opc : Nat) : Option CmdRow := cmdRows.find? (fun r => r.opc == opc)

/-- Every field the command does not use is 0, FLAGS and HADDR keep their rules; a pull ring's HADDR is ignored (R211, R223). -/
def CmdRow.clean (r : CmdRow) (x : Sub) : Bool :=
  decide (x.at 1 1 < 2) &&
  (List.range 64).all (fun i => decide (i < 4) || r.used.any (fun u => decide (u.1 ≤ i) && decide (i < u.2)) || x.at i 1 == 0) &&
  (!r.used.contains fH || x.haddr % 4 == 0 || (r.opc == 0x05 && x.at 32 1 == 1))

/-- FP32 codes of a sampling temperature and of TOP_P (R224). -/
def tempOk (w : Nat) : Bool := w % 2 ^ 31 == 0 || (decide (w < 0x7F800000))
def topPOk (w : Nat) : Bool := decide (0 < w) && decide (w ≤ 0x3F800000)

/-- The parameter block of SUBMIT and KV_RECV keeps R224, but for what depends on the present state. -/
def Sub.paramsOk (x : Sub) : Bool :=
  (decide (x.at 28 2 < 4096) || x.at 28 2 == 0xFFFF) && x.at 30 2 != 0 && tempOk (x.at 32 4) && topPOk (x.at 36 4) &&
  decide (x.at 40 2 ≤ 1024) && x.at 42 2 == 0

/-- E2E protection applies to a function (R409). -/
def State.e2e (s : State) (f : Nat) : Bool := (s.fn f).e2eKey.isSome

/-- A submission's fields are in range (R214, R221, R223, R224). -/
def State.fieldsOk (s : State) (f : Nat) (x : Sub) : Bool :=
  let vectors := if f = 0 then 2048 else 64
  match x.opc with
  | 0x01 => decide (1 ≤ x.target) && decide (x.target ≤ 63) && decide (2 ≤ x.at 24 2) && decide (x.at 24 2 ≤ 4096) &&
      x.haddr % 64 == 0 && decide (x.at 26 2 < vectors)
  | 0x02 | 0x04 => decide (1 ≤ x.target) && decide (x.target ≤ 63)
  | 0x03 => decide (1 ≤ x.target) && decide (x.target ≤ 63) && decide (2 ≤ x.at 24 2) && decide (x.at 24 2 ≤ 4096) &&
      x.haddr % 64 == 0 && (Tbl.find (s.fn f).cqs (x.at 26 2)).isSome
  | 0x05 =>
    let size := x.at 24 4
    let pull := x.at 32 1 == 1
    decide (x.at 32 1 < 2) && decide (x.target ≤ 63) && decide (64 ≤ size) && decide (size ≤ 65536) &&
      size == 2 ^ Nat.log2 size && decide (x.at 28 2 < vectors) &&
      (if pull then decide (size ≤ 4096) else x.haddr % 64 == 0)
  | 0x06 => decide (x.target ≤ 63)
  | 0x07 => decide (x.target ≤ 3)
  | 0x08 => decide (x.target ≤ 1) && decide (x.at 24 1 ≤ if f = 0 ∧ x.target = 0 then 1 else 0)
  | 0x09 => decide (x.target ≤ 7) || x.target == 0xFF
  | 0x0C | 0x0D | 0x0E => decide (x.target ≤ 7)
  | 0x20 => decide (x.at 32 1 < 2)
  | 0x22 => decide (x.target < 4096)
  | 0x30 =>
    let n := if s.e2e f then x.hlen - 28 else x.hlen
    n != 0 && n % 4 == 0 && x.paramsOk && (Tbl.find (s.fn f).rings (x.at 26 2)).isSome
  | 0x39 => x.hlen == 4 && x.paramsOk && (Tbl.find (s.fn f).rings (x.at 26 2)).isSome && decide (x.at 60 2 < 4096)
  | 0x38 => decide (x.at 32 1 < 2) && decide (x.at 24 2 < 4096)
  | 0x3A => decide (x.target < 64) && decide (x.at 24 2 < 4096)
  | _ => true

/-- The partition a command names (R226). -/
def State.subPt (s : State) (f : Nat) (x : Sub) : Option Nat :=
  match x.opc with
  | 0x0C | 0x0D | 0x0E => some x.target
  | 0x0F => none
  | 0x3A => s.partOfTile x.target
  | _ => s.fnPt f

/-- The device and partition states allow a command (R226); a fence of a partition is refused while its reset runs (R322). -/
def State.stateAllows (s : State) (f : Nat) (r : CmdRow) (x : Sub) : Bool :=
  r.dev.contains s.devState &&
  (match s.subPt f x with
   | some p => r.part.contains (s.part p).state && !(x.opc == 0x0C && (Tbl.find s.partResets p).isSome) && !((x.opc == 0x30 || x.opc == 0x39) && (s.part p).deg)
   | none => true)

/-- The first check a command fails (R216, R207, R223, R211, R226): OK if none. -/
def State.hostCheck (s : State) (f : Nat) (x : Sub) : Status :=
  if (s.fnPt f).any s.ownerDown then .fenced
  else if (s.fnPt f).isNone && x.opc != 0x07 && x.opc != 0x08 then .auth
  else match cmdRow x.opc with
    | none => .badFormat
    | some r =>
      if r.pf0 && f != 0 then .auth
      else if r.admin != (x.sq == 0) then .badFormat
      else if !(r.clean x && s.fieldsOk f x) then .badFormat
      else if !s.stateAllows f r x then .stateConflict
      else .ok

/-! ## Completion (R212, R214, R228) -/

/-- A submission ends: its completion entry is written, unless a function-level reset waits for it (R228). -/
def State.subPut (s : State) (f id : Nat) (st : Status) (result : Nat) : State :=
  match (s.fn f).subs.find? (fun x => x.id == id) with
  | none => s
  | some x =>
    let s1 := s.setFn f { s.fn f with subs := (s.fn f).subs.filter (fun y => y.id != id) }
    if (s.fn f).flr.isSome then s1
    else match Tbl.find (s.fn f).sqs x.sq with
      | none => s1
      | some q => s1.cqPut f q.cq (cqEntry 0 st x.cid x.sq x.sqhd result)

/-- DELETE_SQ commands whose SQ has no command left complete, the SQ deleted (R214). -/
def State.settleDeletes (s : State) (f : Nat) : Nat → State
  | 0 => s
  | n + 1 =>
    match (s.fn f).subs.find? (fun x => x.busy && x.opc == 0x04 && !(s.fn f).subs.any (fun y => y.sq == x.target)) with
    | some x =>
      State.settleDeletes ((s.setFn f { s.fn f with sqs := Tbl.del (s.fn f).sqs x.target }).subPut f x.id .ok 0) f n
    | none => s

/-- A submission completes (R212). -/
def State.subDone (s : State) (f id : Nat) (st : Status) (result : Nat := 0) : State :=
  (s.subPut f id st result).settleDeletes f (s.fn f).subs.length

/-- The sequence a SUBMIT or KV_RECV admits, its next token at a position (R224). -/
def Sub.seq (x : Sub) (f pos : Nat) : Seq :=
  { fn := f, ring := x.at 26 2, stream := x.at 24 2, adapter := x.at 28 2, pos := pos, left := x.at 30 2, temp := x.at 32 4,
    topP := x.at 36 4, topK := x.at 40 2, seed := x.at 44 4, stop0 := x.at 48 4, stop1 := x.at 52 4 }

/-- A submission completes later. -/
def State.subBusy (s : State) (f id : Nat) : State :=
  s.setFn f { s.fn f with subs := (s.fn f).subs.map (fun x => if x.id = id then { x with busy := true } else x) }

/-- A refusal under R226 counts and raises HOST_STATE_CONFLICT (R227). -/
def State.hostConflict (s : State) (f opc : Nat) (pt : Option Nat) : State :=
  (s.addFld HIF_ERR_STAT.SC_COUNT f 0 1).raise .HOST_STATE_CONFLICT 72 uBrim
    [(1, f), (1, opc), (1, s.devState), (1, (pt.map (fun p => (s.part p).state)).getD 0)] { sub := f, fn := some f }

/-- A submission is refused with STATE_CONFLICT (R227). -/
def State.subConflict (s : State) (f : Nat) (x : Sub) : State :=
  (s.subDone f x.id .stateConflict).hostConflict f x.opc (s.subPt f x)

/-! ## Starting (R215) -/

/-- Partition control commands. -/
def partControl (opc : Nat) : Bool := decide (0x0A ≤ opc) && decide (opc ≤ 0x0E)
/-- Commands that name a sequence. -/
def namesSeq (opc : Nat) : Bool := opc == 0x30 || opc == 0x31 || opc == 0x38 || opc == 0x39

/-- An earlier command of any function keeps this one from taking effect (R215). -/
def State.subWaits (s : State) (f : Nat) (x : Sub) : Bool :=
  s.fns.any (fun g => g.2.subs.any (fun y => decide (y.id < x.id) &&
    ((partControl x.opc && partControl y.opc && s.subPt g.1 y == s.subPt f x) ||
     (namesSeq x.opc && namesSeq y.opc && y.target == x.target && s.subPt g.1 y == s.subPt f x))))

/-- The oldest command of an SQ that has not started is one of opcode `opc` and may start. -/
def State.subReady (s : State) (f sq opc : Nat) : Option Sub :=
  match (s.fn f).subs.find? (fun x => x.sq == sq && !x.busy) with
  | some x => if x.opc = opc ∧ !s.subWaits f x then some x else none
  | none => none

/-- A host command starts: the first check it fails completes it, with no side effect (R215, R226, R227). -/
def State.hostCmd (s : State) (f sq opc : Nat) (act : Sub → State) : State :=
  match s.subReady f sq opc with
  | none => s
  | some x =>
    match s.hostCheck f x with
    | .ok => act x
    | .stateConflict => s.subConflict f x
    | st => s.subDone f x.id st

/-! ## Host memory (R211, R232) -/

/-- HOST_DMA_ERROR (R232). -/
def State.dmaError (s : State) (f q addr cause : Nat) : State :=
  s.raise .HOST_DMA_ERROR 72 uBrim [(1, f), (1, q), (8, addr), (1, cause)] { fn := some f }

/-- Data written to the ranges of the SGL at a host address, entry by entry, to the first of length 0 (R211). The entries lie in
host memory, and no operand brings them: the outcome of each entry's read and its {address, length} are free values (log 68). -/
def State.sglPut (s : State) (f : Nat) (x : Sub) (ro : Bool) : Nat → Nat → List Byte → Put
  | 0, _, _ => ⟨s, .ok⟩
  | k + 1, addr, data =>
    let cause := s.freeAt 0 % 8
    let len := s.freeAt 2 % 2 ^ 64
    if data = [] then ⟨s, .ok⟩
    else if cause < 4 then ⟨(s.draw 3).dmaError f x.sq addr cause, if cause = 3 then .poison else .integrity⟩
    else if len = 0 then ⟨s.draw 3, .ok⟩
    else State.sglPut ((s.draw 3).toHost (.mem f (s.freeAt 1 % 2 ^ 64) (data.take len) ro)) f x ro k (addr + 16) (data.drop len)

/-- Data written to a command's buffer, with Relaxed Ordering where `ro` (R206). -/
def State.bufPut (s : State) (f : Nat) (x : Sub) (data : List Byte) (ro : Bool := false) : Put :=
  if data = [] then ⟨s, .ok⟩
  else if x.sgl then s.sglPut f x ro data.length x.haddr data
  else ⟨s.toHost (.mem f x.haddr data ro), .ok⟩

/-- What a read of a command's buffer brings: its bytes, or the status it completes with, its event raised. -/
def State.bufGet (s : State) (f : Nat) (x : Sub) : HostRead → State × Except Status (List Byte)
  | .ok bytes => (s, .ok (bytes.take x.hlen ++ List.replicate (x.hlen - bytes.length) 0))
  | .failed cause => (s.dmaError f x.sq x.haddr cause, .error .integrity)
  | .poisoned => (s.dmaError f x.sq x.haddr 3, .error .poison)

end Sys2Proof.Machine
end

