-- ==== Sys2Proof/Machine/BrimPorts.lean ====
section
/-! DEFINITION. Brimlink ports (R233-R240), flits (R236, R237), packets and their sealing (R241-R244), routing and credits
(R245-R249) and fleet sessions (R410, R411). -/

namespace Sys2Proof.Machine

/-! ## Ports -/

def portDown : Nat := 0
def portTraining : Nat := 1
def portQualifying : Nat := 2
def portUp : Nat := 3
def portPaused : Nat := 4
def portFenced : Nat := 5

/-- Link state of a port. -/
def State.blPort (s : State) (p : Nat) : BlPort := Tbl.at s.brim.ports p {}

/-- Link state of a port replaced. -/
def State.setBlPort (s : State) (p : Nat) (x : BlPort) : State :=
  { s with brim := { s.brim with ports := Tbl.set s.brim.ports p x } }

/-- BL.PORT_STATp.STATE. -/
def State.portState (s : State) (p : Nat) : Nat := s.fld PORT_STAT.STATE 0 p

/-- The site of the brim die of a port, as events name it. -/
def portSite (p : Nat) : Nat := 72 + p / 4

/-- A port changes state, reported; the cause's codes are not stated (R263). -/
def State.setPortState (s : State) (p new : Nat) : State :=
  if s.portState p = new then s
  else ((s.setFld PORT_STAT.STATE 0 p new).draw).raise .BL_PORT_STATE (portSite p) uBrim
    [(1, p), (1, s.portState p), (1, new), (1, s.freeVal % 256)]

/-- Lanes lo to lo + n - 1 that are not good, with the spare standing in for lane `sp`. -/
def badLanes (fail : Nat) (sp : Option Nat) (lo n : Nat) : List Nat :=
  ((List.range n).map (· + lo)).filter (fun k => fail.testBit k && !(!fail.testBit 16 && sp == some k))

/-- The eight lanes from `lo` on can be used: all are good, or an unused good spare stands in for the one that is not. -/
def octet (fail : Nat) (sp : Option Nat) (lo : Nat) : Option (Option Nat) :=
  match badLanes fail sp lo 8 with
  | [] => some sp
  | [k] => if !fail.testBit 16 ∧ sp = none then some (some k) else none
  | _ => none

/-- The width a port keeps (0 none, 1 x4, 2 x8, 3 x16), and the lane its spare stands in for (R240): none once lane 16, the
spare itself, has failed. -/
def portWidth (fail : Nat) (sp0 : Option Nat) : Nat × Option Nat :=
  let sp := if fail.testBit 16 then none else sp0
  match maskBits 17 fail with
  | [] => (3, none)
  | [k] => (3, if k = 16 then none else some k)
  | _ =>
    match octet fail sp 0 with
    | some r => (2, r)
    | none =>
      match octet fail sp 8 with
      | some r => (2, r)
      | none => if [0, 4, 8, 12].any (fun lo => (badLanes fail sp lo 4).isEmpty) then (1, sp) else (0, none)

/-- The width a port keeps, none below MINW. -/
def State.keptWidth (s : State) (p fail : Nat) : Nat × Option Nat :=
  let w := portWidth fail (s.blPort p).spareFor
  if w.1 < min 3 (s.fld PORT_CFG.MINW 0 p + 1) then (0, none) else w

/-- The width and spare of a port set, BL_PORT_WIDTH raised where the spare comes to stand in or the width changes (R240). -/
def State.setWidth (s : State) (p : Nat) (w : Nat × Option Nat) (lane : Nat) : State :=
  let old := s.fld PORT_STAT.WIDTH 0 p
  let s1 := ((s.setFld PORT_STAT.WIDTH 0 p w.1).setFld PORT_STAT.SPARE_USED 0 p (if w.2.isSome then 1 else 0)).setBlPort p
    { s.blPort p with spareFor := w.2 }
  if old ≠ w.1 ∨ (w.2.isSome ∧ w.2 ≠ (s.blPort p).spareFor) then
    s1.raise .BL_PORT_WIDTH (portSite p) uBrim [(1, p), (1, w.1), (1, lane)]
  else s1

/-! ## Packets (R241, R242) -/

/-- Flits a body of `n` bytes takes. -/
def flitsFor (n : Nat) : Nat := max 1 ((n + 40 + 119) / 120)

/-- The virtual channel of each packet type (R242). -/
def vcOf (typ : Nat) : Nat := if typ = 9 then 3 else if typ = 3 then 2 else if typ = 1 ∨ typ = 2 ∨ typ = 5 ∨ typ = 6 then 1 else 0

/-- The 192 bits of a packet header, with a given TTL (R241). -/
def pktHeader (k : BlPkt) (ttl : Nat) : Nat :=
  k.dst % 4096 * 2 ^ 180 + k.src % 4096 * 2 ^ 168 + k.dpt % 8 * 2 ^ 165 + k.spt % 8 * 2 ^ 162 + k.typ % 16 * 2 ^ 158 +
    (k.nflit - 1) % 128 * 2 ^ 151 + ttl % 16 * 2 ^ 147 + k.epoch % 2 * 2 ^ 146 + k.mbz % 4 * 2 ^ 144 + k.pn % 2 ^ 48 * 2 ^ 96 +
    k.fields % 2 ^ 96

/-- The packet whose flits carry these payload bytes (R241). -/
def pktOfPayload (b : List Byte) : BlPkt :=
  let h := leNat (b.take 24)
  { dst := bitsOf h 191 180, src := bitsOf h 179 168, dpt := bitsOf h 167 165, spt := bitsOf h 164 162,
    typ := bitsOf h 161 158, nflit := bitsOf h 157 151 + 1, ttl := bitsOf h 150 147, epoch := bitsOf h 146 146,
    mbz := bitsOf h 145 144, pn := bitsOf h 143 96, fields := bitsOf h 95 0,
    body := (b.drop 24).take (b.length - 40), tag := leNat (b.drop (b.length - 16)) }

/-! ## Sending (R237, R245, R248) -/

/-- This module's fabric ID. -/
def State.moduleId (s : State) : Nat := s.fld BL_SELF.MODULE_ID 0 0

/-- A port counts as UP for a route: UP, or PAUSED with its flits held (R234). -/
def State.portIsUp (s : State) (p : Nat) : Bool := s.portState p == portUp || s.portState p == portPaused

/-- The port R245 gives for a destination. -/
def State.blRoute (s : State) (m : Nat) : Option Nat :=
  if s.fld BL_ROUTE.V 0 m = 0 then none
  else if s.portIsUp (s.fld BL_ROUTE.PRI 0 m) then some (s.fld BL_ROUTE.PRI 0 m)
  else if s.fld BL_ROUTE.ALT_V 0 m = 1 ∧ s.portIsUp (s.fld BL_ROUTE.ALT 0 m) then some (s.fld BL_ROUTE.ALT 0 m)
  else none

/-! ### Flits (R236, R237) -/

/-- One bit of the reflected CRC-32C, fed `n` times. -/
def crcBits : Nat → Nat → Nat
  | 0, r => r
  | n + 1, r => crcBits n (crcBit r)

/-- The CRC of a flit (R236): the 12-bit SEQ, header bits [31:0], the payload. -/
def flitCrc (seq header : Nat) (payload : List Byte) : Nat :=
  (leBytes 4 header ++ payload).foldl crcByte (crcBits 12 (0xFFFFFFFF ^^^ seq % 4096)) ^^^ 0xFFFFFFFF

/-- A kept flit as it goes on the wires. -/
def TxFlit.bl (f : TxFlit) : BlFlit :=
  { header := BitVec.ofNat 64 (flitCrc f.seq f.head f.data * 2 ^ 32 + f.head % 2 ^ 32), payload := f.data, fecOk := true }

/-- Flits go on the wires of a port. -/
def State.blEmit (s : State) (p : Nat) (l : List TxFlit) : State :=
  { s with brim := { s.brim with flits := s.brim.flits ++ l.map (fun f => (p, f.bl)) } }

/-- The payload of an idle or NAK flit. -/
def fillBytes (seq n : Nat) : List Byte := (List.range n).map (Config.flitFill seq)

/-- The virtual channel whose credits the next flit returns: the lowest with freed flits. -/
def owedOf (owed : List Nat) : Nat := owed.findIdx (· != 0)

/-- The next flit of the stream sent (R236, R237): its SEQ counted, ACK and freed credits in its header, and kept for replay
while the buffer has room. A NAK asks for the flit expected. -/
def State.blPutFlit (s : State) (p kind rest : Nat) (data : List Byte) : State :=
  let x := s.blPort p
  let kept := decide (x.replay.length < 2048)
  let v := owedOf x.owed % 4
  let n := if kept then min 63 (x.owed.getD v 0) else 0
  let ack := if kind = 2 then x.rxSeq else (x.rxSeq + 4095) % 4096
  let f : TxFlit := { seq := x.txSeq, head := ack * 2 ^ 20 + kind * 2 ^ 18 + rest + v * 2 ^ 12 + n * 2 ^ 6, data := data }
  (s.setBlPort p { x with
    txSeq := (x.txSeq + 1) % 4096, unacked := x.unacked + 1, owed := x.owed.set v (x.owed.getD v 0 - n),
    replay := if kept then x.replay ++ [f] else x.replay }).blEmit p [f]

/-- The bytes of a packet: header, body, tag (R241). -/
def pktBytes (k : BlPkt) : List Byte := leBytes 24 (pktHeader k k.ttl) ++ k.body ++ leBytes 16 k.tag

/-- The payload of flit `i` of a packet. -/
def pktFlit (k : BlPkt) (i : Nat) : List Byte :=
  let b := ((pktBytes k).drop (120 * i)).take 120
  b ++ List.replicate (120 - b.length) 0

/-- What a virtual channel sends next: a packet and the index of its flit. -/
def BlPort.nextOf (x : BlPort) (v : Nat) : Option (Nat × BlPkt) :=
  match Tbl.find x.cur v with
  | some c => some c
  | none => (x.wait.find? (fun w => vcOf w.typ == v)).map (fun k => (0, k))

/-- A virtual channel has work and credit (R248). -/
def BlPort.ready (x : BlPort) (v : Nat) : Bool := (x.nextOf v).isSome && x.credits.getD v 0 != 0

/-- The virtual channel of the next flit slot (R248): collective, response, request, bulk; but at most 2 of 16 slots for the
others while bulk has work and credit. -/
def BlPort.pick (x : BlPort) : Option Nat :=
  let first := [3, 1, 0].find? x.ready
  if x.ready 2 && (first.isNone || decide (2 ≤ x.recent.count true)) then some 2 else first

/-- One flit of a virtual channel sent; the packet's sending begins with its first. -/
def State.blSlot (s : State) (p v : Nat) : State :=
  let x := s.blPort p
  match x.nextOf v with
  | none => s
  | some (i, k) =>
    let last := decide (k.nflit ≤ i + 1)
    let s1 := s.setBlPort p { x with
      credits := x.credits.set v (x.credits.getD v 0 - 1), wait := if i = 0 then x.wait.erase k else x.wait,
      cur := if last then Tbl.del x.cur v else Tbl.set x.cur v (i + 1, k), recent := (decide (v ≠ 2) :: x.recent).take 15 }
    let s2 := s1.blPutFlit p 0 (v * 2 ^ 16 + (if i = 0 then 2 ^ 15 else 0) + (if last then 2 ^ 14 else 0)) (pktFlit k i)
    if i = 0 then { s2 with brim := { s2.brim with sent := s2.brim.sent ++ [(p, k)] } } else s2

/-- Up to `n` flit slots of a port used: flits leave while it is UP, a channel has work and credit, and the replay buffer has
room (R234, R237, R248). -/
def State.blDrain (s : State) (p : Nat) : Nat → State
  | 0 => s
  | n + 1 =>
    let x := s.blPort p
    if s.portState p = portUp ∧ x.replay.length < 2048 then
      match x.pick with
      | some v => State.blDrain (s.blSlot p v) p n
      | none => s
    else s

/-- Flits a port has still to send. -/
def BlPort.work (x : BlPort) : Nat := (x.wait.map (fun k => max 1 k.nflit)).sum + (x.cur.map (fun c => c.2.2.nflit)).sum

/-- Everything a port can send, sent. -/
def State.flushPort (s : State) (p : Nat) : State := s.blDrain p (s.blPort p).work

/-- Idle flits return the credits no other flit has taken along (R248). -/
def State.blReturn (s : State) (p : Nat) : Nat → State
  | 0 => s
  | n + 1 =>
    let x := s.blPort p
    if s.portState p = portUp ∧ x.replay.length < 2048 ∧ x.owed.any (· != 0) then
      State.blReturn (s.blPutFlit p 1 0 (fillBytes x.txSeq 120)) p n
    else s

/-- A packet at an output: it waits for its flit slots, and leaves at once where the port and its credits let it (R240,
R248). -/
def State.portSend (s : State) (p : Nat) (k : BlPkt) : State :=
  let x := s.blPort p
  (s.setBlPort p { x with wait := x.wait ++ [k] }).flushPort p

/-- A packet that no route takes is discarded (R245); a local packet has no arrival port (a free value). -/
def State.noRoute (s : State) (k : BlPkt) (arrival : Option Nat) : State :=
  ((s.addFld SEC_STAT.NO_ROUTE 0 0 1).draw).raise .BL_NO_ROUTE (portSite (arrival.getD 0)) uBrim
    [(2, k.dst), (1, k.typ), (1, arrival.getD (s.freeVal % 256))] { sub := arrival.getD 16 }

/-- A packet leaves on the port its port-mask bit names where that is UP, else as R245 routes it; one for this module is
delivered locally, as the command of its type (R245). -/
def State.blOut (s : State) (k : BlPkt) (port : Option Nat) (arrival : Option Nat) : State :=
  if k.dst = s.moduleId then { s with brim := { s.brim with looped := s.brim.looped ++ [k] } }
  else match (match port with
    | some p => if s.portIsUp p then some p else s.blRoute k.dst
    | none => s.blRoute k.dst) with
  | some p => s.portSend p k
  | none => s.noRoute k arrival

/-! ## Sessions and sealing (R243, R410, R411) -/

/-- The direction of a pair: 0 from the lower module ID. -/
def dirOf (src dst : Nat) : Nat := if src < dst then 0 else 1

/-- Key and SALT of a direction of a session (R410). -/
def sessionKey (secret : BitVec 256) (dir : Nat) : BitVec 256 := Config.hkdf secret (2 + dir) 32
def sessionSalt (secret : BitVec 256) (dir : Nat) : Nat := (Config.hkdf secret (4 + dir) 6).toNat % 2 ^ 48

def State.session (s : State) (m : Nat) : Option Session := Tbl.find s.brim.sessions m

def State.setSession (s : State) (m : Nat) (z : Session) : State :=
  { s with brim := { s.brim with sessions := Tbl.set s.brim.sessions m z } }

/-- FLEET_SESSION (R413): 0 open, 1 rekey, 2 refused. -/
def State.fleetEvent (s : State) (peer epoch ev reason : Nat) : State :=
  s.raise .FLEET_SESSION (72 + s.hb.active) uHatband [(2, peer), (1, epoch), (1, ev), (1, reason)]

/-- A rekey: EPOCH flips, a new secret (a free value of the key exchange), PN from 1 (R411). -/
def State.rekey (s : State) (peer : Nat) (z : Session) : State :=
  let z' : Session := { epoch := 1 - z.epoch % 2, secret := BitVec.ofNat 256 s.freeVal, prev := some (z.secret, z.window),
                        fresh := true, txPn := 1 }
  ((s.draw).setSession peer z').fleetEvent peer z'.epoch 1 0

/-- Body bytes padded to the packet's flits (R241). -/
def padBody (b : List Byte) : List Byte := b ++ List.replicate (120 * flitsFor b.length - 40 - b.length) 0

/-- A message sealed under a session and sent (R243). -/
def State.sealSend (s : State) (m : BlMsg) (z : Session) : State :=
  let dir := dirOf s.moduleId m.dst
  let plain := padBody m.body
  let k : BlPkt := { dst := m.dst, src := s.moduleId, dpt := m.dpt, spt := m.spt, typ := m.typ, nflit := flitsFor m.body.length,
                     ttl := 15, epoch := z.epoch, pn := z.txPn, fields := m.fields, body := [], tag := 0 }
  let e := Config.blSeal (sessionKey z.secret dir) (sessionSalt z.secret dir) z.txPn (pktHeader k 0) plain
  (s.setSession m.dst { z with txPn := z.txPn + 1 }).blOut { k with body := e.1, tag := e.2 } m.port none

/-- A message of this module: sent under its session, after a rekey where PN nears 2^47, or it waits for the session. -/
def State.blSend (s : State) (m : BlMsg) : State :=
  match s.session m.dst with
  | none => { s with brim := { s.brim with waiting := s.brim.waiting ++ [m] } }
  | some z =>
    if 2 ^ 47 ≤ z.txPn + 1 then
      let s1 := s.rekey m.dst z
      match s1.session m.dst with
      | some z1 => s1.sealSend m z1
      | none => s1
    else s.sealSend m z

/-- Messages sent one after another. -/
def State.blSendAll (s : State) : List BlMsg → State
  | [] => s
  | m :: ms => State.blSendAll (s.blSend m) ms

/-- A partition admits a module (R247). -/
def State.admits (s : State) (p m : Nat) : Bool := s.fld (BL_ALLOW.A m) 0 (64 * p + m / 64) == 1

/-- A session with a peer is set up and opens (R410). -/
def State.openSession (s : State) (peer : Nat) : State :=
  let z : Session := { epoch := 0, secret := BitVec.ofNat 256 s.freeVal }
  let w := s.brim.waiting.filter (fun m => m.dst == peer)
  let s1 := (s.draw).setSession peer z
  let s2 : State := { s1 with brim := { s1.brim with waiting := s1.brim.waiting.filter (fun m => m.dst != peer) } }
  (s2.fleetEvent peer 0 0 0).blSendAll w

/-- A discard under R244: counted, BL_AUTH_FAIL with its reason (0 tag, 1 no session, 2 PN window). -/
def State.authFail (s : State) (src epoch pn reason : Nat) (port : Option Nat) : State :=
  (s.addFld SEC_STAT.AUTH_FAIL 0 0 1).raise .BL_AUTH_FAIL (portSite (port.getD 0)) uBrim
    [(2, src), (1, epoch), (8, pn), (1, reason)] { sub := port.getD 16 }

/-- Messages that waited for a session that cannot be set up are discarded, each as an authentication failure (R410). -/
def State.dropWaiting (s : State) (peer : Nat) : List BlMsg → State
  | [] => s
  | _ :: ms => State.dropWaiting (s.authFail s.moduleId 0 0 1 none) peer ms

/-- A session is refused, with a reason. -/
def State.refuseSession (s : State) (peer reason : Nat) : State :=
  let w := s.brim.waiting.filter (fun m => m.dst == peer)
  let s1 : State := { s with brim := { s.brim with waiting := s.brim.waiting.filter (fun m => m.dst != peer) } }
  (s1.dropWaiting peer w).fleetEvent peer 0 2 reason

/-- FLEET_SESSION_SETUP (R410). -/
def execFleetSessionSetup (peer : Nat) (chainOk : Bool) (svn : Nat) (s : State) : Host.Outcome State Fault Refusal :=
  .next (if !chainOk then s.refuseSession peer 0
    else if svn < s.nv.fleetMinSvn then s.refuseSession peer 1
    else if !(List.range 8).any (fun p => s.admits p peer) then s.refuseSession peer 2
    else s.openSession peer)

/-- FLEET_SESSION_TIMEOUT (R410): messages have waited 50 ms. -/
def execFleetSessionTimeout (peer : Nat) (s : State) : Host.Outcome State Fault Refusal :=
  .next (if (s.session peer).isNone ∧ s.brim.waiting.any (fun m => m.dst == peer) then s.refuseSession peer 3 else s)

/-- EPOCH_GRACE_END (R411): 10 ms after the new epoch first arrived, the previous one is no longer accepted. -/
def execEpochGraceEnd (peer : Nat) (s : State) : Host.Outcome State Fault Refusal :=
  .next (match s.session peer with
    | some z => if z.fresh then s else s.setSession peer { z with prev := none }
    | none => s)

/-! ## Authentication of a packet (R244) -/

/-- A packet number is below the window or seen. -/
def PnWindow.bad (w : PnWindow) (pn : Nat) : Bool := decide (pn + 65536 ≤ w.top) || w.seen.contains pn

/-- A packet number accepted. -/
def PnWindow.take (w : PnWindow) (pn : Nat) : PnWindow :=
  let top := max w.top pn
  { top := top, seen := (pn :: w.seen).filter (fun q => decide (top < q + 65536)) }

/-- A packet authenticated: its plaintext, or the reason it fails. -/
def State.authenticate (s : State) (k : BlPkt) : State × Except Nat (List Byte) :=
  let dir := dirOf k.src s.moduleId
  let tryOpen (secret : BitVec 256) :=
    Config.blOpen (sessionKey secret dir) (sessionSalt secret dir) k.pn (pktHeader k 0) k.body k.tag
  match s.session k.src with
  | none => (s, .error 1)
  | some z =>
    if k.epoch = z.epoch then
      if z.window.bad k.pn then (s, .error 2)
      else match tryOpen z.secret with
        | some b => (s.setSession k.src { z with window := z.window.take k.pn, fresh := false }, .ok b)
        | none => (s, .error 0)
    else match z.prev with
      | none => (s, .error 1)
      | some (sec, w) =>
        if w.bad k.pn then (s, .error 2)
        else match tryOpen sec with
          | some b => (s.setSession k.src { z with prev := some (sec, w.take k.pn) }, .ok b)
          | none => (s, .error 0)

/-! ## Flits received (R236-R238) -/

/-- A retrain starts: the port is PAUSED (R238). -/
def State.retrainStart (s : State) (p : Nat) : State :=
  (s.setBlPort p { s.blPort p with pause := 2 }).setPortState p portPaused

/-- Flits of the stream from the oldest unacknowledged one on: those kept, and idle flits in the places of the others. -/
def BlPort.resend (x : BlPort) : List TxFlit :=
  (List.range x.unacked).map (fun j =>
    let q := (x.txSeq + 4096 * x.unacked - x.unacked + j) % 4096
    (x.replay.find? (fun f => f.seq == q)).getD
      { seq := q, head := (x.rxSeq + 4095) % 4096 * 2 ^ 20 + 2 ^ 18, data := fillBytes q 120 })

/-- A NAK or an ACK of the partner (R237): flits up to the acknowledged one leave the replay buffer; a NAK replays from its
SEQ, and the sixteenth replay without an ACK starts a retrain (R238). -/
def State.flitAck (s : State) (p ack : Nat) (nak : Bool) : State :=
  let x := s.blPort p
  let upTo := if nak then (ack + 4095) % 4096 else ack
  let held := (x.txSeq + 4096 - (upTo + 1) % 4096) % 4096
  let x1 : BlPort := if held < x.unacked then
      { x with unacked := held, replays := 0, replay := x.replay.filter (fun f => decide ((x.txSeq + 4095 - f.seq) % 4096 < held)) }
    else x
  if nak ∧ x1.unacked ≠ 0 then
    let s1 := ((s.setBlPort p { x1 with replays := x1.replays + 1 }).addFld PORT_STAT.REPLAYS 0 p 1).blEmit p x1.resend
    if 16 ≤ x1.replays + 1 then s1.retrainStart p else s1
  else s.setBlPort p x1

/-- Credits returned (R248). -/
def State.flitCredits (s : State) (p v n : Nat) : State :=
  let x := s.blPort p
  s.setBlPort p { x with credits := x.credits.set v (x.credits.getD v 0 + n) }

/-- A flit that is discarded (R237): the first one causes a NAK; a later one may cause another (a free choice, log 116). -/
def State.flitDiscard (s : State) (p : Nat) : State :=
  let s1 := s.addFld PORT_STAT.CRC_ERR 0 p 1
  let x := s1.blPort p
  let nak := fun (t : State) => (t.setBlPort p { t.blPort p with naked := true }).blPutFlit p 2 0 (fillBytes x.txSeq 120)
  if !x.naked then nak s1
  else if s1.freeVal % 2 = 0 then nak s1.draw
  else s1.draw

/-- Flits of a receive buffer freed: their credits are owed to the partner (R248). -/
def BlPort.freed (x : BlPort) (v n : Nat) : BlPort := { x with owed := x.owed.set v (x.owed.getD v 0 + n) }

/-- What an accepted data flit leaves: it joins its packet, and its buffer is freed when the packet is whole, or when a new
packet's first flit gives up a part of one. -/
def BlPort.takeData (x : BlPort) (v : Nat) (sop eop : Bool) (data : List Byte) : BlPort × Option BlPkt :=
  let old := Tbl.at x.part v []
  let got := (if sop then [] else old) ++ data
  let x1 := if sop then x.freed v (old.length / 120) else x
  if eop then (({ x1 with part := Tbl.del x1.part v } : BlPort).freed v (got.length / 120), some (pktOfPayload got))
  else ({ x1 with part := Tbl.set x1.part v got }, none)

/-- A flit is accepted or discarded; an accepted last flit brings its packet. What the ACK, the credits and the freed buffer
let go out, goes out. -/
def State.flitRx (s : State) (p : Nat) (f : BlFlit) : State × Option BlPkt :=
  let h := f.header.toNat
  let kind := bitsOf h 19 18
  if s.portState p ≠ portUp then (s, none)
  else if !f.fecOk || kind == 3 || flitCrc (s.blPort p).rxSeq (bitsOf h 31 0) f.payload != bitsOf h 63 32 then
    (s.flitDiscard p, none)
  else
    let x := s.blPort p
    let s1 := s.setBlPort p { x with rxSeq := (x.rxSeq + 1) % 4096, naked := false }
    let s2 := (s1.flitAck p (bitsOf h 31 20) (kind == 2)).flitCredits p (bitsOf h 13 12) (bitsOf h 11 6)
    let y := s2.blPort p
    let r := if kind = 0 then y.takeData (bitsOf h 17 16) (bitsOf h 15 15 == 1) (bitsOf h 14 14 == 1) f.payload else (y, none)
    (((s2.setBlPort p r.1).flushPort p).blReturn p 32, r.2)

end Sys2Proof.Machine
end

