-- ==== Sys2Proof/Machine/Transfers.lean ====
section
/-! DEFINITION. Fabric doorbells (R250) and bulk transfers (R251-R256). -/

namespace Sys2Proof.Machine

/-! ## Fabric pages (R250) -/

/-- The DA of a fabric page's doorbell. -/
def fabricDa (die pt reg : Nat) : Nat := 3 * 2 ^ 38 + die * 2 ^ 28 + 0x4000000 + 0x10000 * pt + reg

/-- A write to a fabric page: agents of the partition and the Hatband may, beside R23; others are refused. -/
def State.fabricGate (s : State) (a : Agent) (die pt reg : Nat) (act : State → State) : State :=
  if a = .hatband ∨ s.agentPt a = some pt then act s
  else match s.denied a (.brimCsr die (0x4000000 + 0x10000 * pt + reg)) with
    | some (r, e) => s.refuse a (fabricDa die pt reg) (.order2 r e)
    | none => act s

/-- A bad doorbell is ignored (R250). -/
def State.doorbellBad (s : State) (die pt bell val : Nat) : State :=
  s.raise .BL_DOORBELL_BAD (72 + die) uBrim [(1, bell), (8, val)] { pt := some pt }

/-- A descriptor address is 64-byte aligned and in SRAM. -/
def State.descAt (s : State) (da : Nat) : Bool :=
  da % 64 == 0 && (match s.decodeDa da with
    | .sram _ _ => true
    | _ => false)

/-! ## Transfers -/

/-- Who reads and writes for a transfer. -/
def Xfer.agent (x : Xfer) : Agent := if x.hatband then .hatband else .brimlink x.die x.pt

/-- Bytes of a DATA packet, and packets of a transfer (R251). -/
def xferChunk : Nat := 15320
def xferPkts (total : Nat) : Nat := (total + xferChunk - 1) / xferChunk

/-- A transfer put in the table. -/
def State.setXfer (s : State) (n : Nat) (x : Xfer) : State :=
  { s with brim := { s.brim with xfers := Tbl.set s.brim.xfers n x } }

/-- A new transfer. -/
def State.addXfer (s : State) (x : Xfer) : State :=
  { s with brim := { s.brim with xfers := Tbl.set s.brim.xfers s.brim.nextXfer x, nextXfer := s.brim.nextXfer + 1 } }

/-- The DA of byte `b` of a Hatband's source ranges, with the bytes left in its range. -/
def rangeAt : List (Nat × Nat) → Nat → Option (Nat × Nat)
  | [], _ => none
  | (da, n) :: r, b => if b < n then some (da + b, n - b) else rangeAt r (b - n)

/-- The DA of byte `b` of a transfer, with the bytes left in its unit (R251). -/
def State.xferAt (s : State) (x : Xfer) (b : Nat) : State × Except Status (Nat × Nat) :=
  if x.hatband then
    match rangeAt x.ranges b with
    | some r => (s, .ok r)
    | none => (s, .error .badFormat)
  else
    let g := s.daRead x.agent (x.mapDa + 8 * (b / x.unit)) 8
    if g.status = .ok then (g.st, .ok (leNat g.data % 2 ^ 40 + b % x.unit, x.unit - b % x.unit)) else (g.st, .error g.status)

/-- Bytes of a transfer read at their sources. -/
def State.xferRead (s : State) (x : Xfer) : Nat → Nat → Nat → Got
  | 0, _, _ => ⟨s, .ok, []⟩
  | k + 1, b, n =>
    if n = 0 then ⟨s, .ok, []⟩
    else match s.xferAt x b with
      | (s1, .error st) => ⟨s1, st, []⟩
      | (s1, .ok (da, left)) =>
        let g := s1.daRead x.agent da (min n left)
        if g.status ≠ .ok then g
        else
          let r := State.xferRead g.st x k (b + min n left) (n - min n left)
          ⟨r.st, r.status, g.data ++ r.data⟩

/-- Bytes of a transfer written at their destinations. -/
def State.xferWrite (s : State) (x : Xfer) : Nat → Nat → List Byte → Put
  | 0, _, _ => ⟨s, .ok⟩
  | k + 1, b, data =>
    if data = [] then ⟨s, .ok⟩
    else match s.xferAt x b with
      | (s1, .error st) => ⟨s1, st⟩
      | (s1, .ok (da, left)) =>
        let p := s1.daWrite x.agent da (data.take left)
        if p.status ≠ .ok then p else State.xferWrite p.st x k (b + left) (data.drop left)

/-- The message of a transfer's end to its peer. The partition of the receiver follows from the XID (R251). -/
def Xfer.msg (x : Xfer) (typ : Nat) (body : List Byte) (fields : Nat := 0) (port : Option Nat := none) : BlMsg :=
  { dst := x.peer, dpt := if typ = 0 then 0 else x.xid / 512, spt := x.pt, typ := typ, fields := fields, body := body, port := port }

/-- OPEN (R242, R252 step 2). -/
def Xfer.openMsg (x : Xfer) : BlMsg :=
  x.msg 0 (leBytes 4 x.matchId ++ leBytes 8 x.total ++ leBytes 1 (if x.weights then 1 else 0))

/-- ABORT (R253): the XID, or MATCH before one is known, and the status (log 40). -/
def Xfer.abortMsg (x : Xfer) (st : Status) : BlMsg :=
  x.msg 7 (leBytes 4 (if x.sender && x.phase < 2 then x.matchId else x.xid) ++ leBytes 1 st.code)

/-! ### The end of a transfer (R252 step 6, R253, R254) -/

/-- The host command a transfer serves ends with its status: KV_SEND with RELEASE gives the sequence up after OK, KV_RECV
admits it unless its function is being reset (R228), REFILL is over, and with OK the tile's lost channels no longer set DEG (R314). -/
def State.xferSub (s : State) (x : Xfer) (st : Status) : State :=
  match x.sub with
  | none => s
  | some (f, id) =>
    match (s.fn f).subs.find? (fun y => y.id == id) with
    | none => s
    | some y =>
      if y.opc = 0x38 then
        let s1 := if st = .ok ∧ y.at 32 1 % 2 = 1 then
            (((s.draw).seqEnd x.pt y.target kindEnd (s.freeVal % 4)).drainSettle x.pt) else s
        s1.subDone f id st
      else if y.opc = 0x39 then
        let q := y.seq f (y.at 56 4)
        let s1 := if st = .ok ∧ (s.fn f).flr.isNone then s.setPart x.pt { s.part x.pt with seqs := Tbl.set (s.part x.pt).seqs y.target q } else s
        s1.subDone f id st
      else
        let s1 : State := { s with brim := { s.brim with refills := s.brim.refills.filter (fun r => r.sub != id) } }
        let s2 : State := match st, s.tile y.target with
          | .ok, some t => { s1 with lost := s1.lost.filter (fun k => k / 16 / 4 != t.site) }
          | _, _ => s1
        s2.refreshDeg.subDone f id st

/-- A transfer ends at this module: its record and the semaphore, BL_XFER_END if not OK, and its host command. -/
def State.xferEnd (s : State) (n : Nat) (x : Xfer) (st : Status) (missing : Nat := 0) : State :=
  let s0 : State := { s with brim := { s.brim with xfers := Tbl.del s.brim.xfers n } }
  let s1 := if x.hatband then s0
    else
      let p := s0.daWrite x.agent x.statDa
        (leBytes 1 st.code ++ [0, 0, 0] ++ leBytes 4 missing ++ leBytes 2 x.xid ++ List.replicate 6 0)
      (p.st.daAtomic x.agent x.semDa .semAdd 4 1).st
  let s2 := if st = .ok then s1
    else s1.raise .BL_XFER_END (72 + x.die) uBrim [(2, x.xid), (4, x.matchId), (2, x.peer), (1, st.code), (4, missing)]
      { pt := some x.pt }
  s2.xferSub x st

/-- The packets whose bit is not set. -/
def State.missingOf (s : State) (x : Xfer) : Got × List Nat :=
  let n := xferPkts x.total
  let g := s.daRead x.agent x.bitmap ((n + 7) / 8)
  let v := leNat g.data
  (g, (List.range n).filter (fun i => !v.testBit i))

/-- A transfer ends short of OK: its record counts the packets that are missing as far as this end knows (R252 step 6): a
receiver that is open by its bitmap (unreadable: a free count), a sender by the last MISSING or its own unsent packets. -/
def State.xferFail (s : State) (n : Nat) (x : Xfer) (st : Status) : State :=
  if x.sender then s.xferEnd n x st x.missing
  else if x.phase = 0 then s.xferEnd n x st
  else
    let m := s.missingOf x
    if m.1.status = .ok then m.1.st.xferEnd n x st m.2.length
    else (m.1.st.draw).xferEnd n x st (m.1.st.freeVal % 2 ^ 32)

/-- A transfer ends here for a local reason, and the peer learns of it by an ABORT (R253, R374). -/
def State.xferAbort (s : State) (n : Nat) (x : Xfer) (st : Status) : State :=
  (s.xferFail n x st).blSend (x.abortMsg st)

/-! ### Weights (R255, R256) -/

/-- The weight regions of a logical tile, as (DA, bytes) (R307). -/
def State.weightRegions (s : State) (l : Nat) : List (Nat × Nat) :=
  (s.image.regions.filter (fun r => r.ltile == l && r.kind == 0)).map (fun r => (r.base, r.len))

/-- A byte of a core's slice, as memory holds it. -/
def State.sliceByte (s : State) (c o : Nat) : Byte :=
  memByte s.mem (dramByte c (s.remap c (sliceLch o)) (chanByte (sliceBank o) (sliceRow o) (sliceCol o)))

/-- The bytes of a tile's weight regions that a core holds in a logical channel and bank half, in slice order (R256). -/
def State.weightBytes (s : State) (l c lch half : Nat) : List Byte :=
  (s.weightRegions l).flatMap (fun r => (List.range r.2).filterMap (fun j =>
    match s.decodeDa (r.1 + j) with
    | .dram c' o => if c' = c ∧ sliceLch o = lch ∧ sliceBank o / 8 = half then some (s.sliceByte c o) else none
    | _ => none))

/-- A beat of those weights carries a poison marker or wrong bits. -/
def State.weightMarked (s : State) (l c lch half : Nat) : Bool :=
  (s.weightRegions l).any (fun r => (List.range r.2).any (fun j =>
    match s.decodeDa (r.1 + j) with
    | .dram c' o => c' == c && sliceLch o == lch && sliceBank o / 8 == half &&
        (Tbl.find s.marks (dramByte c (s.remap c lch) (chanByte (sliceBank o) (sliceRow o) (sliceCol o / 32 * 32)))).isSome
    | _ => false))

/-- The 128 CRC words of a tile's weights, by core, logical channel and half (R256); what the fullers' CRC32C holds after a beat
they cannot read right is free (R190). -/
def State.weightCrcs (s : State) (l : Nat) : List Nat :=
  match s.tile l with
  | some t => (List.range 128).map (fun k =>
      let c := coreKey t.site (k / 32)
      if s.weightMarked l c (k / 2 % 16) (k % 2) then s.freeAt k % 2 ^ 32 else crc32c (s.weightBytes l c (k / 2 % 16) (k % 2)))
  | none => []

/-! ### The sender (R252) -/

/-- CLOSE, with the CRC words of weights. -/
def State.closeMsg (s : State) (x : Xfer) : BlMsg :=
  x.msg 4 (leBytes 2 x.xid ++ leBytes 4 (xferPkts x.total) ++
    (if x.weights then (s.weightCrcs x.ltile).flatMap (leBytes 4) else []))

/-- The port of packet `i`: the (i mod k)-th of the k set bits of the port mask. -/
def xferPort (mask i : Nat) : Option Nat :=
  let ps := maskBits 16 mask
  if ps = [] then none else ps[i % ps.length]?

/-- Packets read and sent in order; the first failed read ends them, with the number not sent. -/
def State.sendData (s : State) (x : Xfer) : List Nat → State × Status × Nat
  | [] => (s, .ok, 0)
  | i :: is =>
    let n := min xferChunk (x.total - xferChunk * i)
    let g := s.xferRead x (n + 1) (xferChunk * i) n
    if g.status ≠ .ok then (g.st, g.status, is.length + 1)
    else
      State.sendData (g.st.blSend (x.msg 3 g.data (x.xid * 2 ^ 84 + xferChunk * i / 8 * 2 ^ 53 + n * 2 ^ 39) (xferPort x.mask i))) x is

/-- Packets sent, then CLOSE (R252 steps 3 and 5). -/
def State.sendRound (s : State) (n : Nat) (x : Xfer) (pkts : List Nat) : State :=
  let r := s.sendData x pkts
  if r.2.1 = .ok then ((r.1.setXfer n x).draw (if x.weights then 128 else 0)).blSend (r.1.closeMsg x)
  else r.1.xferAbort n { x with missing := r.2.2 } r.2.1

/-- The busy host command of a partition that a transfer serves, by opcode and what `p` asks. -/
def State.subFor (s : State) (pt opc : Nat) (p : Sub → Bool) : Option (Nat × Nat) :=
  s.fns.findSome? (fun g =>
    if s.fnPt g.1 = some pt then
      (g.2.subs.find? (fun y => y.busy && y.opc == opc && p y &&
        !s.brim.xfers.any (fun z => z.2.sub == some (g.1, y.id)))).map (fun y => (g.1, y.id))
    else none)

/-- The transfer a descriptor describes (R251). -/
def xferOf (d : Nat) (sender : Bool) (die pt : Nat) : Xfer :=
  { sender := sender, die := die, pt := pt, statDa := bitsOf d 511 472, semDa := bitsOf d 471 432, mapDa := bitsOf d 431 392,
    unit := bitsOf d 391 368, total := bitsOf d 367 328, matchId := bitsOf d 327 296, peer := bitsOf d 295 284,
    mask := if sender then bitsOf d 283 268 else 0, xid := if sender then 0 else bitsOf d 267 256,
    bitmap := if sender then 0 else bitsOf d 255 216, weights := bitsOf d 215 215 == 1 }

/-- A DA names a 4-byte SRAM word. -/
def State.sramWord (s : State) (da : Nat) : Bool :=
  da % 4 == 0 && (match s.decodeDa da with
    | .sram _ _ => true
    | _ => false)

/-- A descriptor keeps the table of R251. -/
def State.xferOk (s : State) (d : Nat) (x : Xfer) : Bool :=
  x.unit % 256 == 0 && x.unit != 0 && bitsOf d 214 0 == 0 && (x.sender || x.xid / 512 == x.pt) && s.sramWord x.semDa

/-- The logical tile of the first map entry. -/
def State.mapTile (s : State) (x : Xfer) : Nat :=
  match s.decodeDa (leNat (s.daRead x.agent x.mapDa 8).data % 2 ^ 40) with
  | .dram c _ => (s.ltileOf (siteOf c)).getD 0
  | _ => 0

/-- A SEND doorbell starts a transfer with its OPEN (R252). -/
def State.sendBell (s : State) (die pt val : Nat) : State :=
  if !s.descAt val then s.doorbellBad die pt 0 val
  else
    let g := s.daRead (.brimlink die pt) val 64
    let d := leNat g.data
    let x := xferOf d true die pt
    if g.status ≠ .ok then
      g.st.raise .BL_XFER_END (72 + die) uBrim [(2, 0), (4, 0), (2, 0), (1, g.status.code), (4, 0)] { pt := some pt }
    else if !s.xferOk d x then (g.st.addXfer x).xferEnd g.st.brim.nextXfer x .badFormat
    else
      let x1 : Xfer := { x with
        ltile := if x.weights then g.st.mapTile x else 0,
        sub := g.st.subFor pt 0x38 (fun y => y.at 26 4 == x.matchId && y.at 24 2 == x.peer && y.at 30 2 == x.mask) }
      (g.st.addXfer x1).blSend x1.openMsg

/-- Bytes cleared at a bitmap. -/
def State.clearBitmap (s : State) (x : Xfer) : Put :=
  s.daWrite x.agent x.bitmap (List.replicate ((xferPkts x.total + 7) / 8) 0)

/-- A RECV doorbell arms an XID (R251, R252 step 1). -/
def State.recvBell (s : State) (die pt val : Nat) : State :=
  if !s.descAt val then s.doorbellBad die pt 1 val
  else
    let g := s.daRead (.brimlink die pt) val 64
    let d := leNat g.data
    let x := xferOf d false die pt
    if g.status ≠ .ok then
      g.st.raise .BL_XFER_END (72 + die) uBrim [(2, 0), (4, 0), (2, 0), (1, g.status.code), (4, 0)] { pt := some pt }
    else if !s.xferOk d x || g.st.brim.xfers.any (fun z => !z.2.sender && z.2.xid == x.xid) then
      (g.st.addXfer x).xferEnd g.st.brim.nextXfer x .badFormat
    else
      let b := g.st.clearBitmap x
      let x1 : Xfer := { x with
        ltile := if x.weights then b.st.mapTile x else 0,
        sub := if x.weights then
            (b.st.brim.refills.find? (fun r => r.matchId == x.matchId && r.src == x.peer)).map (fun r => (r.fn, r.sub))
          else b.st.subFor pt 0x39 (fun y => y.target == x.matchId && y.at 60 2 == x.peer) }
      if b.status = .ok then b.st.addXfer x1
      else (b.st.addXfer x1).xferEnd b.st.brim.nextXfer x1 b.status

/-! ### Packets received (R252, R253) -/

/-- The transfer that `p` names. -/
def State.findXfer (s : State) (p : Xfer → Bool) : Option (Nat × Xfer) := s.brim.xfers.find? (fun z => p z.2)

/-- A REJECT (R242). -/
def rejectMsg (dst dpt spt matchId : Nat) (st : Status) : BlMsg :=
  { dst := dst, dpt := dpt, spt := spt, typ := 2, body := leBytes 4 matchId ++ leBytes 1 st.code }

/-- An OPEN that authenticated (R252 step 2). -/
def State.openAct (s : State) (k : BlPkt) (b : List Byte) : State :=
  let m := leNat (b.take 4)
  let total := leNat ((b.drop 4).take 8)
  match s.findXfer (fun x => !x.sender && x.matchId == m && x.peer == k.src && s.admits x.pt k.src) with
  | none => s.blSend (rejectMsg k.src k.spt 0 m .stateConflict)
  | some (n, x) =>
    if x.phase = 0 ∧ x.total < total then (s.xferEnd n x .noResource).blSend (rejectMsg k.src k.spt x.pt m .noResource)
    else
      let x1 : Xfer := { x with phase := 1, total := if x.phase = 0 then total else x.total }
      let a : BlMsg := { dst := k.src, dpt := k.spt, spt := x.pt, typ := 1,
                         body := leBytes 4 m ++ leBytes 2 x.xid ++ leBytes 4 (xferPkts x1.total) }
      (s.setXfer n x1).blSend a

/-- An ACCEPT: every packet is sent, then CLOSE (R252 steps 3 and 5). -/
def State.acceptAct (s : State) (k : BlPkt) (b : List Byte) : State :=
  match s.findXfer (fun x => x.sender && x.matchId == leNat (b.take 4) && x.peer == k.src && decide (x.phase < 2)) with
  | none => s
  | some (n, x) =>
    s.sendRound n { x with phase := 2, xid := leNat ((b.drop 4).take 2) } (List.range (xferPkts x.total))

/-- A REFILL ends because its request or its transfer was rejected (R255). -/
def State.refillReject (s : State) (src m : Nat) (st : Status) : State :=
  match s.brim.refills.find? (fun r => r.matchId == m && r.src == src) with
  | none => s
  | some r =>
    match s.findXfer (fun x => !x.sender && x.sub == some (r.fn, r.sub)) with
    | some (n, x) => s.xferFail n x st
    | none =>
      let s1 : State := { s with brim := { s.brim with refills := s.brim.refills.filter (fun y => y.sub != r.sub) } }
      s1.subDone r.fn r.sub st

/-- A REJECT (R252 step 2, R253): after STATE_CONFLICT the OPEN is sent again later. -/
def State.rejectAct (s : State) (k : BlPkt) (b : List Byte) : State :=
  let m := leNat (b.take 4)
  let st := Status.ofCode (leNat ((b.drop 4).take 1))
  match s.findXfer (fun x => x.sender && x.matchId == m && x.peer == k.src && decide (x.phase < 2)) with
  | some (n, x) =>
    if st = .stateConflict then s.setXfer n { x with phase := 1, reject := some st } else s.xferFail n x st
  | none => s.refillReject k.src m st

/-- The open receive transfer a packet's XID names. -/
def State.recvXfer (s : State) (k : BlPkt) (xid : Nat) : Option (Nat × Xfer) :=
  s.findXfer (fun x => !x.sender && x.xid == xid && x.peer == k.src && x.pt == k.dpt && x.phase == 1)

/-- The bit of a packet set in the bitmap. -/
def State.setBit (s : State) (x : Xfer) (i : Nat) : Put :=
  let g := s.daRead x.agent (x.bitmap + i / 8) 1
  if g.status ≠ .ok then ⟨g.st, g.status⟩
  else g.st.daWrite x.agent (x.bitmap + i / 8) (leBytes 1 (leNat g.data ||| 2 ^ (i % 8)))

/-- A DATA packet's writes would wait for a channel (R160, R165) or a clearing SRAM (R22). -/
def State.dataHeld (s : State) (k : BlPkt) : Bool :=
  match s.recvXfer k (bitsOf k.fields 95 84) with
  | none => false
  | some (_, x) =>
    let off := 8 * bitsOf k.fields 83 53
    let len := bitsOf k.fields 52 39
    (List.range (len / 32 + 1)).any (fun i =>
      match (s.xferAt x (off + min (32 * i) (len - 1))).2 with
      | .ok (da, _) => s.daHeld .write x.agent da 1
      | .error _ => false)

/-- A DATA packet: its writes are performed, then its bit is set (R252 step 4). -/
def State.dataAct (s : State) (k : BlPkt) (b : List Byte) : State :=
  match s.recvXfer k (bitsOf k.fields 95 84) with
  | none => s
  | some (n, x) =>
    let off := 8 * bitsOf k.fields 83 53
    let len := bitsOf k.fields 52 39
    if off % xferChunk ≠ 0 ∨ x.total < off + len ∨ len ≠ min xferChunk (x.total - off) then s
    else
      let p := s.xferWrite x (len + 1) off (b.take len)
      if p.status ≠ .ok then p.st.xferAbort n x p.status
      else
        let q := p.st.setBit x (off / xferChunk)
        if q.status ≠ .ok then q.st.xferAbort n x q.status else q.st

/-- DONE with a status (R242). -/
def Xfer.doneMsg (x : Xfer) (k : BlPkt) (st : Status) : BlMsg :=
  { dst := x.peer, dpt := k.spt, spt := x.pt, typ := 6, body := leBytes 2 x.xid ++ leBytes 1 st.code }

/-- A CLOSE: DONE, MISSING, or the end after the third round (R252 step 5, R253, R256). For weights the CRC words are compared in the
same step, and DONE carries the outcome, which R253 gives both ends (log 117). -/
def State.closeAct (s : State) (k : BlPkt) (b : List Byte) : State :=
  match s.recvXfer k (leNat (b.take 2)) with
  | none => s
  | some (n, x) =>
    let m := s.missingOf x
    if m.1.status ≠ .ok then m.1.st.xferAbort n x m.1.status
    else if m.2 = [] then
      let st := if x.weights ∧ m.1.st.weightCrcs x.ltile ≠ (List.range 128).map (fun j => leNat ((b.drop (6 + 4 * j)).take 4))
        then Status.integrity else .ok
      ((m.1.st.draw (if x.weights then 128 else 0)).xferEnd n x st).blSend (x.doneMsg k st)
    else if x.rounds < 3 then
      (m.1.st.setXfer n { x with rounds := x.rounds + 1 }).blSend
        { dst := x.peer, dpt := k.spt, spt := x.pt, typ := 5,
          body := leBytes 2 x.xid ++ leBytes 1 (x.rounds + 1) ++ leBytes 2 (min 3800 m.2.length) ++
            (m.2.take 3800).flatMap (leBytes 4) }
    else
      let st := if x.authFail then Status.auth else .integrity
      (m.1.st.xferEnd n x st m.2.length).blSend (x.doneMsg k st)

/-- The send transfer an answer's XID names. -/
def State.sendXfer (s : State) (k : BlPkt) (xid : Nat) : Option (Nat × Xfer) :=
  s.findXfer (fun x => x.sender && x.xid == xid && x.peer == k.src && x.phase == 2)

/-- A MISSING: the packets it names are sent again, and CLOSE (R252 step 5). -/
def State.missingAct (s : State) (k : BlPkt) (b : List Byte) : State :=
  match s.sendXfer k (leNat (b.take 2)) with
  | none => s
  | some (n, x) =>
    let cnt := min 3800 (leNat ((b.drop 3).take 2))
    s.sendRound n { x with rounds := leNat ((b.drop 2).take 1), missing := leNat ((b.drop 3).take 2) }
      (((List.range cnt).map (fun j => leNat ((b.drop (5 + 4 * j)).take 4))).filter (fun i => decide (i < xferPkts x.total)))

/-- A DONE ends the sender with its status (R253). -/
def State.doneAct (s : State) (k : BlPkt) (b : List Byte) : State :=
  match s.sendXfer k (leNat (b.take 2)) with
  | none => s
  | some (n, x) =>
    let st := Status.ofCode (leNat ((b.drop 2).take 1))
    if st = .ok then s.xferEnd n x st else s.xferFail n x st

/-- An ABORT names a transfer: by its XID once an ACCEPT has given it to both ends, by MATCH before (log 40). -/
def Xfer.aborts (x : Xfer) (v : Nat) : Bool :=
  (x.phase == (if x.sender then 2 else 1) && x.xid == v) || (decide (x.phase < 2) && x.matchId == v)

/-- An ABORT ends the transfer at once with the status it carries (R253). -/
def State.abortAct (s : State) (k : BlPkt) (b : List Byte) : State :=
  match s.findXfer (fun x => x.peer == k.src && x.aborts (leNat (b.take 4))) with
  | none => s
  | some (n, x) => s.xferFail n x (Status.ofCode (leNat ((b.drop 4).take 1)))

/-- A REFILL_REQ: the Hatband checks it and sends the weights, or answers REJECT (R255). -/
def State.refillReqAct (s : State) (k : BlPkt) (b : List Byte) : State :=
  let m := leNat (b.take 4)
  let l := leNat ((b.drop 4).take 1)
  let digest := BitVec.ofNat 512 (leNat ((b.drop 5).take 64))
  match s.partOfTile l with
  | none => s.blSend (rejectMsg k.src k.spt 0 m .stateConflict)
  | some p =>
    if (s.part p).state < 2 ∧ s.admits p k.src ∧ (s.part p).weight = some digest then
      let rs := s.weightRegions l
      let x : Xfer := { sender := true, die := s.hb.active, pt := p, hatband := true, total := (rs.map (·.2)).foldl (· + ·) 0,
                        matchId := m, peer := k.src, mask := s.freeVal % 2 ^ 16, weights := true, ranges := rs, ltile := l }
      ((s.draw).addXfer x).blSend x.openMsg
    else s.blSend (rejectMsg k.src k.spt p m .stateConflict)

/-! ### Timers -/

/-- OPEN_RETRY_TIMER (R252): 100 µs after a STATE_CONFLICT the OPEN is sent again. -/
def execOpenRetryTimer (xfer : Nat) (s : State) : Host.Outcome State Fault Refusal :=
  .next (match Tbl.find s.brim.xfers xfer with
    | some x => if x.sender ∧ x.phase = 1 then (s.setXfer xfer { x with phase := 0 }).blSend x.openMsg else s
    | none => s)

/-- OPEN_TIMEOUT (R252, R253): 10 ms without an ACCEPT. -/
def execOpenTimeout (xfer : Nat) (s : State) : Host.Outcome State Fault Refusal :=
  .next (match Tbl.find s.brim.xfers xfer with
    | some x => if x.sender ∧ x.phase < 2 then s.xferFail xfer x (x.reject.getD .aborted) else s
    | none => s)

/-- XFER_INACTIVITY_TIMEOUT (R253): 100 ms with nothing of an open transfer. -/
def execXferInactivityTimeout (xfer : Nat) (s : State) : Host.Outcome State Fault Refusal :=
  .next (match Tbl.find s.brim.xfers xfer with
    | some x => if x.phase = (if x.sender then 2 else 1) ∨ (!x.sender ∧ x.sub.isSome) then s.xferFail xfer x .aborted else s
    | none => s)

/-! ### Doorbells -/

/-- The read of a doorbell's descriptor waits: its SRAM is being cleared (R22); the command has not happened yet. -/
def State.bellHeld (s : State) (die pt val : Nat) : Bool := s.descAt (val % 2 ^ 40) && s.daHeld .read (.brimlink die pt) (val % 2 ^ 40) 64

/-- SEND_DOORBELL (R250, R252). -/
def execSendDoorbell (by_ : Agent) (die pt : Nat) (val : Word) (s : State) : Host.Outcome State Fault Refusal :=
  .next (if s.bellHeld die pt val.toNat then s else s.fabricGate by_ die pt 0 (fun t => t.sendBell die pt val.toNat))

/-- RECV_DOORBELL (R250, R252). -/
def execRecvDoorbell (by_ : Agent) (die pt : Nat) (val : Word) (s : State) : Host.Outcome State Fault Refusal :=
  .next (if s.bellHeld die pt val.toNat then s else s.fabricGate by_ die pt 8 (fun t => t.recvBell die pt val.toNat))

end Sys2Proof.Machine
end

