-- ==== Sys2Proof/Machine/Collective.lean ====
section
/-! DEFINITION. Collectives of the module fabric (R257-R262). -/

namespace Sys2Proof.Machine

/-! ## Groups (R257) -/

/-- A group's present operation. -/
def State.group (s : State) (g : Nat) : Group := Tbl.at s.brim.groups g {}

/-- A group's present operation replaced. -/
def State.setGroup (s : State) (g : Nat) (x : Group) : State :=
  { s with brim := { s.brim with groups := Tbl.set s.brim.groups g x } }

def State.grpOn (s : State) (g : Nat) : Bool := s.fld GRP_CFG.EN 0 g == 1
def State.grpRoot (s : State) (g : Nat) : Bool := s.fld GRP_CFG.ROOT 0 g == 1
def State.grpParent (s : State) (g : Nat) : Nat := s.fld GRP_CFG.PARENT 0 g
def State.grpSize (s : State) (g : Nat) : Nat := s.fld GRP_CFG.NMEMB 0 g + 1
def State.grpTag (s : State) (g : Nat) : Nat := s.fld GRP_KIDS.GTAG 0 (2 * g)

/-- The child modules of a group. -/
def State.grpKids (s : State) (g : Nat) : List Nat :=
  (List.range (min 8 (s.fld GRP_CFG.NKIDS 0 g))).map (fun k => s.fld (GRP_KIDS.KID (k % 4)) 0 (2 * g + k / 4))

/-- The tree neighbours of a group. -/
def State.grpNeighbours (s : State) (g : Nat) : List Nat :=
  s.grpKids g ++ (if s.grpRoot g then [] else [s.grpParent g])

/-- The SEQ of a group's present operation. -/
def State.grpSeq (s : State) (g : Nat) : Nat := (s.fld GRP_STAT.SEQ_DONE 0 g + 1) % 65536

def ckContribution : Nat := 0
def ckResult : Nat := 1
def ckLate : Nat := 2
def ckLost : Nat := 3

/-- A COLL message (R241, R262); FLAGGED is carried in the first of the bits left (log 41), and DPT is the group's own
partition (log 41). -/
def State.collMsg (s : State) (g dst kind rank off : Nat) (flagged : Bool) (body : List Byte) : BlMsg :=
  { dst := dst, dpt := s.fld GRP_CFG.PT 0 g, spt := s.fld GRP_CFG.PT 0 g, typ := 9, body := body,
    fields := s.grpTag g * 2 ^ 80 + s.grpSeq g * 2 ^ 64 + rank % 4096 * 2 ^ 52 + off / 4 * 2 ^ 38 + kind * 2 ^ 34 +
      (if flagged then 2 ^ 33 else 0) }

/-- A contribution or result as messages of at most 15,320 bytes. -/
def State.collMsgs (s : State) (g dst kind rank : Nat) (flagged : Bool) (data : List Byte) : List BlMsg :=
  (List.range (max 1 ((data.length + xferChunk - 1) / xferChunk))).map (fun i =>
    s.collMsg g dst kind rank (xferChunk * i) flagged ((data.drop (xferChunk * i)).take xferChunk))

/-- A COLL marker or data sent to several neighbours. -/
def State.collSend (s : State) (g kind rank : Nat) (flagged : Bool) (data : List Byte) (dsts : List Nat) : State :=
  s.blSendAll (dsts.flatMap (fun d => s.collMsgs g d kind rank flagged data))

/-! ## The end of an operation (R261, R262) -/

/-- The completion record of an operation, and the semaphore after it. -/
def State.collRecord (s : State) (g : Nat) (d : CollDesc) (st : Status) (flagged : Bool) (missing : Nat) : State :=
  let a : Agent := .brimlink d.die (s.fld GRP_CFG.PT 0 g)
  let p := s.daWrite a d.statDa
    (leBytes 1 st.code ++ leBytes 1 (if flagged then 1 else 0) ++ [0, 0] ++ leBytes 4 missing ++ leBytes 2 d.seq ++
      List.replicate 6 0)
  (p.st.daAtomic a d.semDa .semAdd 4 1).st

/-- An operation completes at this member (R262). -/
def State.collFinish (s : State) (g : Nat) (d : CollDesc) (st : Status) : State :=
  let x := s.group g
  let missing := if x.without ≠ [] ∨ !x.flagged then max x.missing x.without.length else s.freeVal % 2 ^ 32
  let s1 := (s.draw).collRecord g d st (x.flagged || x.without != []) missing
  (((s1.setFld GRP_STAT.SEQ_DONE 0 g d.seq).setFld GRP_STAT.LAST_STATUS 0 g st.code).setGroup g {})

/-- A group ends with MEMBER_LOST (R261): LOST to the other neighbours, the record, and EN cleared. Causes: 0 no route,
1 a silent child, 2 LOST received. -/
def State.memberLost (s : State) (g cause neighbour : Nat) : State :=
  let x := s.group g
  let s1 := s.collSend g ckLost (s.fld GRP_CFG.RANK 0 g) false []
    ((s.grpNeighbours g).filter (fun m => m != neighbour && (s.blRoute m).isSome))
  let s2 := match x.desc with
    | some d => (s1.collRecord g d .memberLost x.flagged (x.without.length)).setFld GRP_STAT.SEQ_DONE 0 g d.seq
    | none => s1
  let s3 := ((s2.setFld GRP_STAT.LAST_STATUS 0 g Status.memberLost.code).setFld GRP_CFG.EN 0 g 0).setGroup g {}
  s3.raise .BL_MEMBER_LOST 72 uBrim [(1, g), (2, s.grpSeq g), (1, cause), (2, neighbour)]
    { sub := g, pt := some (s.fld GRP_CFG.PT 0 g) }

/-- Groups with an operation in force whose neighbour has no route end (R261). -/
def State.collRoutes (s : State) : List Nat → State
  | [] => s
  | g :: gs =>
    match (if s.grpOn g ∧ (s.group g).desc.isSome then (s.grpNeighbours g).find? (fun m => (s.blRoute m).isNone) else none) with
    | some m => State.collRoutes (s.memberLost g 0 m) gs
    | none => State.collRoutes s gs

/-- Every group looked at after a port has gone DOWN. -/
def State.collCheck (s : State) : State := s.collRoutes (List.range 64)

/-! ## Progress (R258-R260) -/

/-- The bytes a module has sent for a rank, in order of OFF. -/
def piecesOf (ps : List CollPiece) (src rank : Nat) : List Byte :=
  let mine := ps.filter (fun q => q.src == src && q.rank == rank)
  (List.range (mine.length)).flatMap (fun i =>
    match mine.find? (fun q => q.off == xferChunk * i) with
    | some q => q.bytes
    | none => [])

/-- The ranks of pieces received from `src`. -/
def ranksOf (ps : List CollPiece) (src : Nat) : List Nat := ((ps.filter (fun q => q.src == src)).map (·.rank)).eraseDups

/-- A rank's block of `len` bytes, from whoever sent it. -/
def blockOf (ps : List CollPiece) (rank len : Nat) : Option (List Byte) :=
  ((ps.map (·.src)).eraseDups.find? (fun m => decide (len ≤ (piecesOf ps m rank).length))).map (fun m => (piecesOf ps m rank).take len)

/-- One element of a reduction: members' words combined in a free order (R258). -/
def reduceWord (red dtype code : Nat) (ws : List Nat) : Nat :=
  match freeOrder ws code with
  | [] => 0
  | w :: rest =>
    if dtype = 1 then
      rest.foldl (fun a b =>
        let x := signedOf 32 a
        let y := signedOf 32 b
        unsignedOf 32 (if red = 0 then satInt32 (x + y) else if red = 1 then max x y else min x y)) w
    else if red = 0 then rest.foldl (fun a b => toFp32 ((ofFp32 a).add (ofFp32 b))) w
    else rest.foldl (fun a b =>
      if (ofFp32 a).isNan || (ofFp32 b).isNan then code / 2 ^ 64 % 2 ^ 32
      else if (ofFp32 a).lt (ofFp32 b) == (red == 1) then b else a) w

/-- Contributions of `len` bytes reduced word by word. -/
def State.reduceAll (s : State) (red dtype len : Nat) (parts : List (List Byte)) : List Byte :=
  (List.range (len / 4)).flatMap (fun i =>
    leBytes 4 (reduceWord red dtype (s.freeAt i) (parts.map (fun b => leNat ((b.drop (4 * i)).take 4)))))

/-- A result performed at DST, then the record (R262). -/
def State.collResult (s : State) (g : Nat) (d : CollDesc) (data : List Byte) : State :=
  let p := s.daWrite (.brimlink d.die (s.fld GRP_CFG.PT 0 g)) d.dstDa data
  p.st.collFinish g d p.status

/-- Blocks of an ALLGATHER result sent to the children, rank by rank. -/
def State.gatherSend (s : State) (g len : Nat) (flagged : Bool) (kids : List Nat) (data : List Byte) : State :=
  s.blSendAll ((List.range (s.grpSize g)).flatMap (fun r =>
    kids.flatMap (fun k => s.collMsgs g k ckResult r flagged ((data.drop (len * r)).take len))))

/-- The children whose contributions the operation still waits for. -/
def State.kidsOpen (s : State) (g : Nat) (done : Nat → Bool) : List Nat :=
  (s.grpKids g).filter (fun k => !(s.group g).without.contains k && !done k)

/-- What the present operation of a group can do now, done. A root of an ALLGATHER that is to do without some ranks cannot tell from
COLL packets how many ranks each child stands for: once every other child has sent a block, when it stops waiting is free
(log 118). -/
def State.collStep (s : State) (g : Nat) : State :=
  let x := s.group g
  match x.desc with
  | none => s
  | some d =>
    let kids := s.grpKids g
    let root := s.grpRoot g
    let up := s.grpParent g
    let rank := s.fld GRP_CFG.RANK 0 g
    let fl := x.flagged || x.without != []
    match d.op with
    | 0 =>
      if root then
        ((s.collSend g ckResult rank false x.own kids).setGroup g { x with sent := true }).collResult g d x.own
      else
        match (ranksOf x.pieces up).find? (fun r => decide (d.len ≤ (piecesOf x.pieces up r).length)) with
        | some r =>
          let data := (piecesOf x.pieces up r).take d.len
          (s.collSend g ckResult r fl data kids).collResult g d data
        | none => s
    | 1 =>
      let part (k : Nat) : List Byte := (ranksOf x.pieces k).flatMap (piecesOf x.pieces k)
      if s.kidsOpen g (fun k => decide (d.len ≤ (part k).length)) ≠ [] then s
      else
        let data := s.reduceAll d.red d.dtype d.len
          (x.own :: (kids.filter (fun k => !x.without.contains k)).map part)
        let s1 := s.draw (d.len / 4)
        if root then s1.collResult g d data
        else ((s1.collSend g ckContribution rank fl data [up]).setGroup g { x with sent := true }).collFinish g d .ok
    | 2 =>
      if root then
        let n := s.grpSize g
        let block (r : Nat) : Option (List Byte) := if r = rank then some x.own else blockOf x.pieces r d.len
        let have_ := (List.range n).filter (fun r => (block r).isSome)
        let data := (List.range n).flatMap (fun r => (block r).getD (List.replicate d.len 0))
        let finish (t : State) : State :=
          ((t.gatherSend g d.len fl kids data).setGroup g { x with missing := n - have_.length }).collResult g d data
        if have_.length = n then finish s
        else if fl ∧ s.kidsOpen g (fun k => (ranksOf x.pieces k).any (fun r => decide (d.len ≤ (piecesOf x.pieces k r).length))) = [] then
          (if s.freeVal % 2 = 0 then finish s.draw else s.draw)
        else s
      else
        let blocks := (List.range (s.grpSize g)).map (fun r =>
          let b := piecesOf x.pieces up r
          if d.len ≤ b.length then some (b.take d.len) else none)
        if blocks.all (·.isSome) then
          let data := blocks.flatMap (fun b => b.getD [])
          (s.gatherSend g d.len fl kids data).collResult g d data
        else s
    | _ =>
      let s1 := if x.sent ∨ s.kidsOpen g (fun k => x.heard.contains k) ≠ [] then s
        else if root then s.setGroup g { x with sent := true }
        else (s.collSend g ckContribution rank fl [] [up]).setGroup g { x with sent := true }
      if root ∧ (s1.group g).sent then (s1.collSend g ckResult rank fl [] kids).collFinish g d .ok
      else if !root ∧ (s1.group g).heard.contains up then (s1.collSend g ckResult rank fl [] kids).collFinish g d .ok
      else s1

/-! ## The operation descriptor (R258) -/

/-- An operation descriptor. -/
def collOf (d die : Nat) : CollDesc :=
  { die := die, statDa := bitsOf d 511 472, semDa := bitsOf d 471 432, dstDa := bitsOf d 431 392, srcDa := bitsOf d 391 352,
    seq := bitsOf d 351 336, len := if bitsOf d 319 318 = 3 then 0 else bitsOf d 335 320, op := bitsOf d 319 318,
    red := bitsOf d 317 316, dtype := bitsOf d 315 315 }

/-- A DA lies in the SRAM of a partition. -/
def State.ptSram (s : State) (pt da : Nat) : Bool :=
  match s.decodeDa da with
  | .sram c _ => s.partOfSite (siteOf c) == some pt
  | _ => false

/-- Where this member writes a result of `n` bytes, DST lies in its partition's SRAM (R258). -/
def State.dstOk (s : State) (g : Nat) (c : CollDesc) : Bool :=
  let n := if c.op = 2 then s.grpSize g * c.len else c.len
  c.op == 3 || (c.op == 1 && !s.grpRoot g) ||
    (s.ptSram (s.fld GRP_CFG.PT 0 g) c.dstDa && s.ptSram (s.fld GRP_CFG.PT 0 g) (c.dstDa + n - 1))

/-- A descriptor keeps the rules of R258 for its group. -/
def State.collOk (s : State) (g d : Nat) (c : CollDesc) : Bool :=
  s.sramWord c.semDa && s.dstOk g c && s.grpOn g && (s.group g).desc.isNone && c.seq == s.grpSeq g && bitsOf d 314 0 == 0 && c.red != 3 &&
  (c.op == 3 || (c.len % 4 == 0 && decide (4 ≤ c.len) && decide (c.len ≤ 65532))) &&
  (c.op != 2 || decide (s.grpSize g * c.len ≤ 2 ^ 24))

/-- ALLGATHER: this member's block and those its children have sent so far go to the parent. -/
def State.gatherUp (s : State) (g : Nat) : State :=
  let x := s.group g
  s.blSendAll (s.collMsgs g (s.grpParent g) ckContribution (s.fld GRP_CFG.RANK 0 g) (x.flagged || x.without != []) x.own ++
    (x.pieces.filter (fun q => q.src != s.grpParent g)).map (fun q =>
      s.collMsg g (s.grpParent g) ckContribution q.rank q.off x.flagged q.bytes))

/-- A COLL doorbell starts an operation (R250, R258). -/
def State.collBell (s : State) (die pt val : Nat) : State :=
  let g := bitsOf val 63 58
  let da := bitsOf val 39 0
  if !s.descAt da || s.fld GRP_CFG.PT 0 g != pt then s.doorbellBad die pt 2 val
  else
    let a : Agent := .brimlink die pt
    let r := s.daRead a da 64
    let d := leNat r.data
    let c := collOf d die
    if r.status ≠ .ok then r.st.setFld GRP_STAT.LAST_STATUS 0 g r.status.code
    else if !r.st.collOk g d c then
      (r.st.collRecord g c .badFormat false 0).setFld GRP_STAT.LAST_STATUS 0 g Status.badFormat.code
    else
      let own := if c.op = 3 ∨ (c.op = 0 ∧ !s.grpRoot g) then ⟨r.st, .ok, []⟩ else r.st.daRead a c.srcDa c.len
      let s1 := own.st.setGroup g { own.st.group g with desc := some c, own := own.data }
      if own.status ≠ .ok then s1.collFinish g c own.status
      else match (s1.grpNeighbours g).find? (fun m => (s1.blRoute m).isNone) with
        | some m => s1.memberLost g 0 m
        | none =>
          let s2 := if c.op = 2 ∧ !s.grpRoot g then (s1.gatherUp g).setGroup g { s1.group g with sent := true } else s1
          s2.collStep g

/-- COLL_DOORBELL (R250, R258). -/
def execCollDoorbell (by_ : Agent) (die pt : Nat) (val : Word) (s : State) : Host.Outcome State Fault Refusal :=
  .next (if s.bellHeld die pt val.toNat then s else s.fabricGate by_ die pt 16 (fun t => t.collBell die pt val.toNat))

/-! ## COLL packets (R259-R262) -/

/-- A COLL packet discarded and counted. -/
def State.collDiscard (s : State) (g : Nat) : State := s.addFld GRP_STAT.DISCARDED 0 g 1

/-- BL_COLL_LATE; direction 0 sent, 1 received. -/
def State.lateEvent (s : State) (g m dir : Nat) : State :=
  s.raise .BL_COLL_LATE 72 uBrim [(1, g), (2, s.grpSeq g), (2, m), (1, dir)] { sub := g, pt := some (s.fld GRP_CFG.PT 0 g) }

/-- ALLGATHER: a member that leaves a child out tells its parent, by its own block with FLAGGED (log 41). -/
def State.gatherLeft (s : State) (g : Nat) : State :=
  let x := s.group g
  if x.desc.any (fun d => d.op == 2) && !s.grpRoot g then
    s.blSendAll (s.collMsgs g (s.grpParent g) ckContribution (s.fld GRP_CFG.RANK 0 g) true x.own)
  else s

/-- A COLL packet of the present operation from a tree neighbour. -/
def State.collPiece (s : State) (g : Nat) (k : BlPkt) (b : List Byte) : State :=
  let x := s.group g
  let kind := bitsOf k.fields 37 34
  let kid := (s.grpKids g).contains k.src
  if kind = ckLost then s.memberLost g 2 k.src
  else if kind = ckLate then
    let s1 := (s.addFld GRP_STAT.LATE_RCVD 0 g 1).lateEvent g k.src 1
    if kid ∧ s.fld GRP_CFG.POLICY 0 g = 1 ∧ !x.heard.contains k.src then
      let s2 := s1.setGroup g { x with without := addOnce x.without k.src, late := addOnce x.late k.src }
      (s2.gatherLeft g).collStep g
    else s1.setGroup g { x with late := addOnce x.late k.src }
  else if kind = ckContribution ∧ (!kid ∨ x.without.contains k.src) then s.collDiscard g
  else if kind = ckResult ∧ (s.grpRoot g ∨ k.src ≠ s.grpParent g) then s.collDiscard g
  else if 3 < kind then s.collDiscard g
  else
    let q : CollPiece := { src := k.src, rank := bitsOf k.fields 63 52, off := 4 * bitsOf k.fields 51 38, bytes := b.take xferChunk }
    let x1 : Group := { x with pieces := x.pieces ++ [q], heard := addOnce x.heard k.src,
                               flagged := x.flagged || k.fields.testBit 33 }
    let s1 := s.setGroup g x1
    let s2 := match x.desc with
      | some d =>
        if d.op = 2 ∧ kind = ckContribution ∧ !s.grpRoot g then
          s1.blSend (s1.collMsg g (s.grpParent g) ckContribution q.rank q.off x1.flagged q.bytes)
        else s1
      | none => s1
    s2.collStep g

/-- A COLL packet that authenticated (R262). Which group's DISCARDED counts one whose GTAG no group holds is free (log 118). -/
def State.collAct (s : State) (k : BlPkt) (b : List Byte) : State :=
  let tag := bitsOf k.fields 95 80
  match (List.range 64).find? (fun g => s.grpOn g && s.grpTag g == tag) with
  | none =>
    match (List.range 64).find? (fun g => s.grpTag g == tag) with
    | some g => s.collDiscard g
    | none => s.draw.collDiscard (s.freeVal % 64)
  | some g =>
    if bitsOf k.fields 79 64 ≠ s.grpSeq g ∨ !(s.grpNeighbours g).contains k.src then s.collDiscard g
    else s.collPiece g k b

/-! ## Deadlines -/

/-- LATE markers sent to the neighbours that wait for this member (R259). -/
def State.sendLate (s : State) (g : Nat) : List Nat → State
  | [] => s
  | m :: ms =>
    State.sendLate (((s.addFld GRP_STAT.LATE_SENT 0 g 1).blSend
      (s.collMsg g m ckLate (s.fld GRP_CFG.RANK 0 g) 0 false [])).lateEvent g m 0) g ms

/-- The neighbours that wait for this member (R259): the children for its share of a BROADCAST, the parent for its contribution to
any other operation; while no descriptor says which it is, both (log 118). -/
def State.waitedBy (s : State) (g : Nat) : List Nat :=
  let up := if s.grpRoot g then [] else [s.grpParent g]
  match (s.group g).desc with
  | none => s.grpKids g ++ up
  | some d => if d.op = 0 then s.grpKids g else up

/-- COLL_DEADLINE (R259): a member that has not sent its contribution, or its share of a BROADCAST, reports itself late to the
neighbours that wait for it; a root that is to do without some ranks looks again. -/
def execCollDeadline (group : Nat) (s : State) : Host.Outcome State Fault Refusal :=
  .next (if !s.grpOn group then s
    else
      let s1 := if (s.group group).sent then s else s.sendLate group (s.waitedBy group)
      if (s.group group).desc.any (fun d => d.op == 2) && s.grpRoot group then s1.collStep group else s1)

/-- COLL_LOST_TIMEOUT (R261): a child has sent neither a contribution nor LATE. -/
def execCollLostTimeout (group child : Nat) (s : State) : Host.Outcome State Fault Refusal :=
  .next (let x := s.group group
    if s.grpOn group ∧ x.desc.isSome ∧ (s.grpKids group).contains child ∧ !x.heard.contains child ∧ !x.late.contains child then
      s.memberLost group 1 child
    else s)

end Sys2Proof.Machine
end

