-- ==== Sys2Proof/Machine/Brimlink.lean ====
section
/-! DEFINITION. Packets arriving (R242, R244-R247), and the commands of Brimlink ports (R234-R240, R249). -/

namespace Sys2Proof.Machine

/-! ## Local delivery -/

/-- A discard under R247. -/
def State.peerRefused (s : State) (k : BlPkt) (port : Option Nat) : State :=
  (s.addFld SEC_STAT.PEER_REFUSED 0 0 1).raise .BL_PEER_REFUSED (portSite (port.getD 0)) uBrim
    [(2, k.src), (1, k.dpt), (1, k.typ)] { sub := port.getD 16 }

/-- What a packet refused under R244 leaves: its count and event; a transfer it belongs to remembers it (R253); an OPEN or
REFILL_REQ whose header is intact (which, no rule says) is answered with REJECT AUTH, its MATCH not readable (free). -/
def State.refusePacket (s : State) (k : BlPkt) (reason : Nat) (port : Option Nat) : State :=
  let s1 := s.authFail k.src k.epoch k.pn reason port
  let s2 := match (if k.typ = 3 then s1.recvXfer k (bitsOf k.fields 95 84) else none) with
    | some (n, x) => s1.setXfer n { x with authFail := true }
    | none => s1
  if (k.typ = 0 ∨ k.typ = 8) ∧ s2.freeAt 0 % 2 = 0 then
    (s2.draw 2).blSend (rejectMsg k.src k.spt 0 (s2.freeAt 1 % 2 ^ 32) .auth)
  else s2.draw 2

/-- The effect of an authenticated packet of a type (R242). -/
def State.packetAct (s : State) (k : BlPkt) (b : List Byte) : State :=
  match k.typ with
  | 0 => s.openAct k b
  | 1 => s.acceptAct k b
  | 2 => s.rejectAct k b
  | 3 => s.dataAct k b
  | 4 => s.closeAct k b
  | 5 => s.missingAct k b
  | 6 => s.doneAct k b
  | 7 => s.abortAct k b
  | 8 => s.refillReqAct k b
  | 9 => s.collAct k b
  | _ => s

/-- A MGMT body handed to the Hatband (R242). -/
def State.mgmtIn (s : State) (src : Nat) (b : List Byte) : State :=
  { s with brim := { s.brim with mgmtIn := s.brim.mgmtIn ++ [(src, b)] } }

/-- A packet for this module: reserved types are counted as no route, clear MGMT goes to the Hatband, the rest is
authenticated (R244), admitted (R247) and acts. -/
def State.blDeliver (s : State) (k : BlPkt) (port : Option Nat) : State :=
  if 0xB ≤ k.typ then s.noRoute k port
  else if k.typ = 0xA ∧ k.pn = 0 then (if k.tag = 0 then s.mgmtIn k.src k.body else s.refusePacket k 0 port)
  else match s.authenticate k with
    | (s1, .error r) => s1.refusePacket k r port
    | (s1, .ok b) =>
      if k.typ = 0xA then s1.mgmtIn k.src b
      else if k.typ ≠ 0 ∧ k.typ ≠ 8 ∧ !s1.admits k.dpt k.src then s1.peerRefused k port
      else if (k.typ = 0 ∨ k.typ = 8) ∧ !(List.range 8).any (fun p => s1.admits p k.src) then s1.peerRefused k port
      else s1.packetAct k b

/-- A packet arriving on a port: delivered here, or forwarded with TTL lowered (R245). -/
def State.blArrive (s : State) (port : Nat) (k : BlPkt) : State :=
  if s.brim.fenced.contains (port / 4) then s
  else if k.dst = s.moduleId then
    if k.typ == 3 && s.dataHeld k then { s with brim := { s.brim with looped := s.brim.looped ++ [k] } }
    else s.blDeliver k (some port)
  else if k.ttl = 0 then
    s.raise .BL_TTL_EXPIRED (portSite port) uBrim [(2, k.src), (2, k.dst)] { sub := port }
  else s.blOut { k with ttl := k.ttl - 1 } none (some port)

/-- A packet of the type its command names, delivered; one that waited here, sent by this module to itself (R245) or held for a
channel (R160), waits no longer. Data whose writes would still wait has not been delivered yet. -/
def State.blTyped (s : State) (typ : Nat) (k : BlPkt) : State :=
  if k.typ = typ ∧ k.dst = s.moduleId ∧ !(typ == 3 && s.dataHeld k) then
    ({ s with brim := { s.brim with looped := s.brim.looped.erase k } } : State).blDeliver k none
  else s

/-- BL_FORWARD (R245): only an UP port carries flits (R234). -/
def execBlForward (port : Nat) (pkt : BlPkt) (s : State) : Host.Outcome State Fault Refusal :=
  .next (if s.portState port = portUp then s.blArrive port pkt else s)
/-- OPEN (R252). -/
def execOpen (pkt : BlPkt) (s : State) : Host.Outcome State Fault Refusal := .next (s.blTyped 0 pkt)
/-- ACCEPT (R252). -/
def execAccept (pkt : BlPkt) (s : State) : Host.Outcome State Fault Refusal := .next (s.blTyped 1 pkt)
/-- REJECT (R253). -/
def execReject (pkt : BlPkt) (s : State) : Host.Outcome State Fault Refusal := .next (s.blTyped 2 pkt)
/-- DATA (R252). -/
def execData (pkt : BlPkt) (s : State) : Host.Outcome State Fault Refusal := .next (s.blTyped 3 pkt)
/-- CLOSE (R252). -/
def execClose (pkt : BlPkt) (s : State) : Host.Outcome State Fault Refusal := .next (s.blTyped 4 pkt)
/-- MISSING (R252). -/
def execMissing (pkt : BlPkt) (s : State) : Host.Outcome State Fault Refusal := .next (s.blTyped 5 pkt)
/-- DONE (R252). -/
def execDone (pkt : BlPkt) (s : State) : Host.Outcome State Fault Refusal := .next (s.blTyped 6 pkt)
/-- ABORT (R253). -/
def execAbort (pkt : BlPkt) (s : State) : Host.Outcome State Fault Refusal := .next (s.blTyped 7 pkt)
/-- REFILL_REQ (R255). -/
def execRefillReq (pkt : BlPkt) (s : State) : Host.Outcome State Fault Refusal := .next (s.blTyped 8 pkt)
/-- COLL (R262). -/
def execColl (pkt : BlPkt) (s : State) : Host.Outcome State Fault Refusal := .next (s.blTyped 9 pkt)
/-- BL_MGMT (R242). -/
def execBlMgmt (pkt : BlPkt) (s : State) : Host.Outcome State Fault Refusal := .next (s.blTyped 0xA pkt)

/-- BL_FLIT_RX (R236, R237): an accepted last flit brings its packet, as BL_FORWARD does. -/
def execBlFlitRx (port : Nat) (flit : BlFlit) (s : State) : Host.Outcome State Fault Refusal :=
  .next (match s.flitRx port flit with
    | (s1, some k) => s1.blArrive port k
    | (s1, none) => s1)

/-! ## Port commands -/

/-- A port goes DOWN, with the lane whose failure took it down: its held flits and packets are discarded, and groups that lose a
route end (R238, R261). -/
def State.portDrop (s : State) (p : Nat) (lane : Nat := 17) : State :=
  (((s.setWidth p (0, none) lane).setBlPort p {}).setPortState p portDown).collCheck

/-- Lanes marked failed. -/
def State.failLanes (s : State) (p mask : Nat) : State :=
  s.setFld PORT_STAT.LANE_FAIL 0 p (s.fld PORT_STAT.LANE_FAIL 0 p ||| mask % 2 ^ 17)

/-- A port comes UP at the width its good lanes allow, or goes DOWN (R235, R238, R240). After a retrain, replay resumes from the
last acknowledged SEQ. -/
def State.portRise (s : State) (p lane : Nat) : State :=
  let w := s.keptWidth p (s.fld PORT_STAT.LANE_FAIL 0 p)
  if w.1 = 0 then s.portDrop p lane
  else
    let s1 := (s.setWidth p w lane).setPortState p portUp
    let s2 := s1.setBlPort p { s1.blPort p with pause := 0 }
    (if (s1.blPort p).pause = 2 then s2.blEmit p (s2.blPort p).resend else s2).flushPort p

/-- The lowest lane of a mask; 17 for none. -/
def firstLane (mask : Nat) : Nat := ((maskBits 17 mask).head?).getD 17

/-- The brim dies have power for Brimlink: Batting has ended (R235). -/
def State.brimReady (s : State) (p : Nat) : Bool := decide (3 ≤ s.hb.stage) && s.supply.on && !s.brim.fenced.contains (p / 4)

/-- The role of a port lets it train: FABRIC, or any before Blocking has given roles (R235). -/
def State.portMayTrain (s : State) (p : Nat) : Bool :=
  s.brimReady p && (decide (s.hb.stage < 5) || s.fld PORT_CFG.ROLE 0 p == 1)

/-- A port starts training (R235). -/
def State.portTrain (s : State) (p : Nat) : State :=
  if s.portMayTrain p then ((s.setBlPort p {}).setFld PORT_STAT.LANE_FAIL 0 p 0).setPortState p portTraining else s

/-- BL_PARTNER_DETECT (R235). -/
def execBlPartnerDetect (port : Nat) (s : State) : Host.Outcome State Fault Refusal :=
  .next (if port < 16 ∧ s.portState port = portDown then s.portTrain port else s)

/-- BL_PORT_QUALIFIED (R235): training is over, every lane has been qualified, and the good lanes decide. -/
def execBlPortQualified (port : Nat) (badLanes : BitVec 17) (s : State) : Host.Outcome State Fault Refusal :=
  .next (if s.portState port = portTraining then
      let s1 := (s.setPortState port portQualifying).failLanes port badLanes.toNat
      (s1.setFld PORT_STAT.PLEVEL 0 port 1).portRise port (firstLane badLanes.toNat)
    else s)

/-- BL_RETRAIN_END (R238). -/
def execBlRetrainEnd (port : Nat) (badLanes : BitVec 17) (s : State) : Host.Outcome State Fault Refusal :=
  .next (if s.portState port = portPaused ∧ (s.blPort port).pause = 2 then
      let s1 := s.failLanes port badLanes.toNat
      (s1.setBlPort port { s1.blPort port with replays := 0 }).portRise port
        (if badLanes = 0 then (s1.blPort port).lane else firstLane badLanes.toNat)
    else s)

/-- BL_LANE_FAIL (R239, R240): the lane is marked; the port is PAUSED for a spare swap or a narrowing, or goes DOWN. -/
def execBlLaneFail (port lane : Nat) (s : State) : Host.Outcome State Fault Refusal :=
  .next (if lane < 17 ∧ (s.portState port = portUp ∨ s.portState port = portPaused) ∧
      !(s.fld PORT_STAT.LANE_FAIL 0 port).testBit lane then
      let s0 := s.failLanes port (2 ^ lane)
      let w := s0.keptWidth port (s0.fld PORT_STAT.LANE_FAIL 0 port)
      let s1 := s0.setBlPort port { s0.blPort port with lane := lane }
      if w.1 = 0 then s1.portDrop port lane
      else if w.1 = s1.fld PORT_STAT.WIDTH 0 port ∧ w.2 = (s1.blPort port).spareFor then s1
      else if (s1.blPort port).pause = 2 then s1
      else (s1.setBlPort port { s1.blPort port with pause := 1 }).setPortState port portPaused
    else s)

/-- BL_PORT_RESUME (R240): UP again with the spare in use or at the narrower width. -/
def execBlPortResume (port : Nat) (s : State) : Host.Outcome State Fault Refusal :=
  .next (if s.portState port = portPaused ∧ (s.blPort port).pause = 1 then
      s.portRise port (s.blPort port).lane
    else s)

/-- PORT_CFGp.FENCE written (R234): 1 drains the port, for as many flits as go out in 100 µs (a free number), and takes it out
of service; 0 trains and qualifies it again. -/
def State.portFence (s : State) (p : Nat) (on : Bool) : State :=
  let s1 := s.setFld PORT_CFG.FENCE 0 p (if on then 1 else 0)
  if on then
    if s.portState p = portFenced then s1
    else
      let s2 := (s1.draw).blDrain p (s1.freeVal % ((s1.blPort p).work + 1))
      (((s2.setWidth p (0, none) 17).setBlPort p {}).setPortState p portFenced).collCheck
  else if s.portState p = portFenced then
    (if s1.portMayTrain p then s1.portTrain p else s1.setPortState p portDown)
  else s1

/-- A brim-die window write of `a` at an offset: the right of R23, else the refusal of R26. -/
def State.brimGate (s : State) (a : Agent) (die off : Nat) (act : State → State) : State :=
  match s.denied a (.brimCsr die off) with
  | some (r, e) => s.refuse a (3 * 2 ^ 38 + die * 2 ^ 28 + off) (.order2 r e)
  | none => act s

/-- BL_PORT_FENCE (R234). -/
def execBlPortFence (by_ : Agent) (port : Nat) (s : State) : Host.Outcome State Fault Refusal :=
  .next (if port < 16 then s.brimGate by_ (port / 4) (0x100000 + 0x100 * (port % 4)) (fun t => t.portFence port true) else s)

/-- BL_PORT_UNFENCE (R234). -/
def execBlPortUnfence (by_ : Agent) (port : Nat) (s : State) : Host.Outcome State Fault Refusal :=
  .next (if port < 16 then s.brimGate by_ (port / 4) (0x100000 + 0x100 * (port % 4)) (fun t => t.portFence port false) else s)

/-- BL_CREDIT_WAIT_EXPIRY (R249): the packet a virtual channel would send from next has waited 10 ms at an output without a
credit. -/
def execBlCreditWaitExpiry (port vc : Nat) (s : State) : Host.Outcome State Fault Refusal :=
  .next (let x := s.blPort port
    match x.nextOf vc with
    | some (_, k) =>
      if x.credits.getD vc 0 = 0 then
        (((s.setBlPort port { x with cur := Tbl.del x.cur vc, wait := if (Tbl.find x.cur vc).isSome then x.wait else x.wait.erase k
            }).addFld PORT_STAT.STUCK 0 port 1).raise .BL_STUCK_DISCARD
          (portSite port) uBrim [(1, port), (1, vc), (2, k.dst)] { sub := port }).flushPort port
      else s
    | none => s)

end Sys2Proof.Machine
end

