-- ==== Sys2Proof/Machine/Mesh.lean ====
section
/-! DEFINITION. The panel mesh: links, flits, wire spares and rerouting (R264-R275), levels (R277), and clocks and crossings
(R280, R286). -/

namespace Sys2Proof.Machine

/-! ## Links (R264) -/

/-- The other end of link `d` of endpoint `e` (sites 0-71 with 0 north, 1 east, 2 south, 3 west; brim dies 72-75). -/
def linkPeer (e d : Nat) : Nat × Nat :=
  if e < 72 then
    match d with
    | 0 => if e < 8 then (72, e) else (e - 8, 2)
    | 1 => if e % 8 = 7 then (73, e / 8) else (e + 1, 3)
    | 2 => if 64 ≤ e then (74, e - 64) else (e + 8, 0)
    | _ => if e % 8 = 0 then (75, e / 8) else (e - 1, 1)
  else if e = 72 then (d, 0)
  else if e = 73 then (8 * d + 7, 1)
  else if e = 74 then (64 + d, 2)
  else (8 * d, 3)

/-- Links of an endpoint. -/
def linkCount (e : Nat) : Nat := if e < 72 then 4 else if e = 72 ∨ e = 74 then 8 else 9

/-- An endpoint and link that exist. -/
def linkOk (e d : Nat) : Bool := decide (e < 76) && decide (d < linkCount e)

def linkDown : Nat := 0
def linkTraining : Nat := 1
def linkUp : Nat := 2
def linkPaused : Nat := 3
def linkFenced : Nat := 4

/-- STATE of a link end. -/
def State.linkState (s : State) (e d : Nat) : Nat := s.fld MESH_LINK.STATE e d

/-- One end of a link. -/
def State.meshEnd (s : State) (e d : Nat) : MeshEnd := Tbl.at s.mesh.ends (16 * e + d) {}

/-- One end of a link replaced. -/
def State.setMeshEnd (s : State) (e d : Nat) (x : MeshEnd) : State :=
  { s with mesh := { s.mesh with ends := Tbl.set s.mesh.ends (16 * e + d) x } }

/-- UNIT of an endpoint's records. -/
def endUnit (e : Nat) : Nat := if e < 72 then uCommon else uBrim

/-- One end of a link changes state, reported (R288). -/
def State.setEndState (s : State) (e d new : Nat) : State :=
  if s.linkState e d = new then s
  else (s.setFld MESH_LINK.STATE e d new).raise .MESH_LINK_STATE e (endUnit e) [(1, d), (1, s.linkState e d), (1, new)]

/-- Both ends of a link change state. -/
def State.setLinkState (s : State) (e d new : Nat) : State :=
  let p := linkPeer e d
  (s.setEndState e d new).setEndState p.1 p.2 new

/-- A link carries packets, or holds them while PAUSED. -/
def State.linkLive (s : State) (e d : Nat) : Bool := s.linkState e d == linkUp || s.linkState e d == linkPaused

/-! ## Reachability (R275) -/

/-- The neighbours of an endpoint over live links. -/
def State.meshNext (s : State) (e : Nat) : List Nat :=
  ((List.range (linkCount e)).filter (s.linkLive e)).map (fun d => (linkPeer e d).1)

/-- Endpoints reached from a set in at most `n` further steps. -/
def State.meshReach (s : State) : Nat → List Nat → List Nat
  | 0, l => l
  | n + 1, l =>
    let new := ((l.flatMap s.meshNext).eraseDups).filter (fun e => !l.contains e)
    if new = [] then l else State.meshReach s n (l ++ new)

/-- Endpoints the active Hatband's die reaches. -/
def State.reachable (s : State) : List Nat := s.meshReach 76 [72 + s.hb.active]

/-- An endpoint marked UNREACH in every table. -/
def State.markUnreach (s : State) (e : Nat) : List Nat → State
  | [] => s
  | r :: rs => State.markUnreach (s.setFld ROUTE.UNREACH r e 1) e rs

/-- Sites that no route reaches any more: marked, their tiles fenced, MESH_TILE_UNREACH raised (R275). -/
def State.unreachEach (s : State) : List Nat → State
  | [] => s
  | e :: es =>
    let s1 := s.markUnreach e (List.range 76)
    let s2 := if (s1.ltileOf e).isSome then s1.fenceTile e causeUnreach else s1
    State.unreachEach (s2.raise .MESH_TILE_UNREACH e uCommon []) es

/-! ## Routes (R271) -/

/-- A set of tables: the word of a router for an endpoint. -/
abbrev Tables := Nat → Nat → Nat

/-- The endpoint after a router for a destination in a class: `none` where the entry is not valid or stops. -/
def hop (t : Tables) (r e c : Nat) : Option (Nat × Nat) :=
  let w := t r e
  let p := bitsOf w (3 * c + 2) (3 * c)
  if bitsOf w 16 16 = 0 ∨ p = 0 ∨ !linkOk r (p - 1) then none else some (p - 1, (linkPeer r (p - 1)).1)

/-- A route from a router reaches an endpoint. -/
def routeEnds (t : Tables) (e c : Nat) : Nat → Nat → Bool
  | 0, r => r == e
  | n + 1, r => r == e || (match hop t r e c with
    | some (_, r') => routeEnds t e c n r'
    | none => false)

/-- The channel dependencies of a class: (router and link) before (next router and link). -/
def channelDeps (t : Tables) (c : Nat) : List (Nat × Nat) :=
  (List.range 76).flatMap (fun e => (List.range 76).filterMap (fun r =>
    match hop t r e c with
    | some (d, r') =>
      (match hop t r' e c with
       | some (d', _) => if r' = e then none else some (16 * r + d, 16 * r' + d')
       | none => none)
    | none => none))

/-- Dependencies that lead on to another, taken until none is left or none goes away. -/
def pruneDeps : Nat → List (Nat × Nat) → List (Nat × Nat)
  | 0, l => l
  | n + 1, l =>
    let l' := l.filter (fun a => l.any (fun b => b.1 == a.2))
    if l'.length = l.length then l else pruneDeps n l'

/-- The route set's channel-dependency graph is acyclic within each class (R271). -/
def routesAcyclic (t : Tables) : Bool :=
  (List.range 4).all (fun c => let l := (channelDeps t c).eraseDups; (pruneDeps l.length l).isEmpty)

/-- Every valid entry of every router leads to its endpoint (R271). -/
def routesComplete (t : Tables) (routers : List Nat) : Bool :=
  routers.all (fun r => (List.range 76).all (fun e => bitsOf (t r e) 16 16 == 0 ||
    (List.range 4).all (fun c => routeEnds t e c 76 r)))

/-! ## Flits (R265, R266) -/

/-- The CRC of a mesh flit: the 8-bit SEQ, sideband bits [31:0], the data bytes. -/
def meshCrc (seq sideband : Nat) (data : List Byte) : Nat :=
  (leBytes 4 sideband ++ data).foldl crcByte (crcBits 8 (0xFFFFFFFF ^^^ seq % 256)) ^^^ 0xFFFFFFFF

/-- A link is PAUSED for a retrain (R266, R273). -/
def State.meshRetrain (s : State) (e d : Nat) : State :=
  if s.linkState e d = linkUp then s.setLinkState e d linkPaused else s

/-- A kept flit as it goes on the wires. -/
def TxFlit.mesh (f : TxFlit) : MeshFlit :=
  { sideband := BitVec.ofNat 64 (meshCrc f.seq f.head f.data * 2 ^ 32 + f.head % 2 ^ 32), data := f.data }

/-- Flits go on the wires of a link. -/
def State.meshEmit (s : State) (e d : Nat) (l : List TxFlit) : State :=
  { s with mesh := { s.mesh with flits := s.mesh.flits ++ l.map (fun f => (e, d, f.mesh)) } }

/-- The next flit of a link's stream sent (R265, R266), kept with the packets that end in it while the replay buffer has
room. -/
def State.meshPutFlit (s : State) (e d kind rest : Nat) (data : List Byte) (pkts : List MeshPkt) : State :=
  let x := s.meshEnd e d
  let kept := decide (x.replay.length < 128)
  let v := owedOf x.owed % 4
  let n := if kept then min 63 (x.owed.getD v 0) else 0
  let ack := if kind = 2 then x.rxSeq else (x.rxSeq + 255) % 256
  let f : TxFlit := { seq := x.txSeq, head := ack * 2 ^ 24 + kind * 2 ^ 22 + rest + v * 2 ^ 14 + n * 2 ^ 8, data := data }
  (s.setMeshEnd e d { x with
    txSeq := (x.txSeq + 1) % 256, unacked := x.unacked + 1, owed := x.owed.set v (x.owed.getD v 0 - n),
    replay := if kept then x.replay ++ [(f, pkts)] else x.replay }).meshEmit e d [f]

/-- Flits of the stream from the oldest unacknowledged one on: those kept, and idle flits in the places of the others. -/
def MeshEnd.resend (x : MeshEnd) : List TxFlit :=
  (List.range x.unacked).map (fun j =>
    let q := (x.txSeq + 256 * x.unacked - x.unacked + j) % 256
    ((x.replay.find? (fun f => f.1.seq == q)).map (·.1)).getD
      { seq := q, head := (x.rxSeq + 255) % 256 * 2 ^ 24 + 2 ^ 22, data := fillBytes q 128 })

/-- A CRC discard: counted, MESH_CRC at each multiple of 256, a NAK (a further one is a free choice, log 116), a retrain at 64 in
a millisecond (R266, R288). -/
def State.meshDiscard (s : State) (e d : Nat) : State :=
  let s1 := s.countPast256 MESH_LINK.CRC_ERR e d 1 .MESH_CRC e (endUnit e) [(1, d)] { sub := d }
  let x := s1.meshEnd e d
  let s2 := s1.setMeshEnd e d { x with discards := x.discards + 1, naked := true }
  let s3 := if !x.naked then s2.meshPutFlit e d 2 0 (fillBytes x.txSeq 128) []
    else if s2.freeVal % 2 = 0 then (s2.draw).meshPutFlit e d 2 0 (fillBytes x.txSeq 128) []
    else s2.draw
  if 64 ≤ x.discards + 1 then (s3.setMeshEnd e d { s3.meshEnd e d with discards := 0 }).meshRetrain e d else s3

/-- An ACK or a NAK of the other end. -/
def State.meshAck (s : State) (e d ack : Nat) (nak : Bool) : State :=
  let x := s.meshEnd e d
  let upTo := if nak then (ack + 255) % 256 else ack
  let held := (x.txSeq + 256 - (upTo + 1) % 256) % 256
  let x1 : MeshEnd := if held < x.unacked then
      { x with unacked := held, replays := 0, replay := x.replay.filter (fun f => decide ((x.txSeq + 255 - f.1.seq) % 256 < held)) }
    else x
  if nak ∧ x1.unacked ≠ 0 then
    let s1 := ((s.setMeshEnd e d { x1 with replays := x1.replays + 1 }).addFld MESH_LINK.REPLAYS e d 1).meshEmit e d x1.resend
    if 16 ≤ x1.replays + 1 then (s1.setMeshEnd e d { x1 with replays := 0 }).meshRetrain e d else s1
  else s.setMeshEnd e d x1

/-- The class of a packet (R270). -/
def classOf (op : Nat) : Nat := if op = 3 then 1 else if op = 4 then 3 else 0

/-! ### Sending (R266, R268, R270) -/

/-- The 128 bits of a packet's header (R267). -/
def meshHeader (k : MeshPkt) : Nat :=
  k.da % 2 ^ 40 * 2 ^ 88 + k.status % 256 * 2 ^ 80 + (k.len - 1) % 256 * 2 ^ 72 + k.op % 16 * 2 ^ 68 + k.unit % 16 * 2 ^ 64 +
    k.tag % 2 ^ 16 * 2 ^ 48 + k.dst % 128 * 2 ^ 41 + k.src % 128 * 2 ^ 34 + k.spt % 8 * 2 ^ 31 + (if k.hb then 2 ^ 30 else 0) +
    k.mbz % 2 ^ 30

/-- Slots of 16 bytes a packet takes, header and data (R267). -/
def pktSlotCount (k : MeshPkt) : Nat := 1 + (k.data.length + 15) / 16

/-- Flits a packet takes that shares none. -/
def meshFlits (k : MeshPkt) : Nat := (pktSlotCount k + 7) / 8

/-- The slots of a packet on a link of a level: at level 1 it takes whole flits (R268). Unused slots are zero (log 44). -/
def pktSlots (level : Nat) (k : MeshPkt) : List TxSlot :=
  let n := pktSlotCount k
  let b := leBytes 16 (meshHeader k) ++ k.data
  let m := if level = 1 then 8 * meshFlits k else n
  (List.range m).map (fun i =>
    let c := (b.drop (16 * i)).take 16
    { hdr := i == 0, bytes := c ++ List.replicate (16 - c.length) 0, last := if i + 1 = n then some k else none })

/-- A waiting packet belongs to an output and a class. -/
def waitsAt (e d c : Nat) (w : Nat × Nat × MeshPkt) : Bool := w.1 == e && w.2.1 == d + 1 && classOf w.2.2.op == c

/-- Waiting packets of a class put into its stream until a flit is full. -/
def State.meshLoad (s : State) (e d c : Nat) : Nat → State
  | 0 => s
  | n + 1 =>
    let x := s.meshEnd e d
    match decide ((Tbl.at x.out c []).length < 8), s.mesh.waiting.find? (waitsAt e d c) with
    | true, some w =>
      let s1 := s.setMeshEnd e d
        { x with out := Tbl.set x.out c (Tbl.at x.out c [] ++ pktSlots (s.fld MESH_LINK.PLEVEL e d) w.2.2) }
      State.meshLoad { s1 with mesh := { s1.mesh with waiting := s1.mesh.waiting.erase w, moved := s1.mesh.moved ++ [w] } } e d c n
    | _, _ => s

/-- A class has work and credit at an output (R270). -/
def State.meshReady (s : State) (e d c : Nat) : Bool :=
  (Tbl.at (s.meshEnd e d).out c [] != [] || s.mesh.waiting.any (waitsAt e d c)) && (s.meshEnd e d).credits.getD c 0 != 0

/-- The class of the next flit slot: round-robin from the one after the last served (R270). -/
def State.meshPick (s : State) (e d : Nat) : Option Nat :=
  ([1, 2, 3, 4].map (fun i => ((s.meshEnd e d).last + i) % 4)).find? (s.meshReady e d)

/-- One flit of a class sent: up to 8 slots of its stream, HS and HOFF naming the first header. -/
def State.meshSlot (s : State) (e d c : Nat) : State :=
  let s1 := s.meshLoad e d c s.mesh.waiting.length
  let x := s1.meshEnd e d
  let all := Tbl.at x.out c []
  let l := all.take 8
  let data := l.flatMap (fun t => t.bytes)
  let h := l.findIdx (fun t => t.hdr)
  (s1.setMeshEnd e d { x with
    out := if all.drop 8 = [] then Tbl.del x.out c else Tbl.set x.out c (all.drop 8)
    credits := x.credits.set c (x.credits.getD c 0 - 1), last := c }).meshPutFlit e d 0
      (c * 2 ^ 20 + (if h < l.length then 2 ^ 19 + h * 2 ^ 16 else 0)) (data ++ List.replicate (128 - data.length) 0)
      (l.filterMap (fun t => t.last))

/-- Up to `n` flit slots of a link used: while it is UP, a class has work and credit, and the replay buffer has room. -/
def State.meshDrain (s : State) (e d : Nat) : Nat → State
  | 0 => s
  | n + 1 =>
    if s.linkState e d = linkUp ∧ (s.meshEnd e d).replay.length < 128 then
      match s.meshPick e d with
      | some c => State.meshDrain (s.meshSlot e d c) e d n
      | none => s
    else s

/-- Flits an output has still to send, at most. -/
def State.meshWork (s : State) (e d : Nat) : Nat :=
  ((s.mesh.waiting.filter (fun w => w.1 == e && w.2.1 == d + 1)).map (fun w => meshFlits w.2.2)).sum +
    ((s.meshEnd e d).out.map (fun c => c.2.length)).sum

/-- Everything a link can send, sent. -/
def State.flushLink (s : State) (e d : Nat) : State := s.meshDrain e d (s.meshWork e d)

/-- Idle flits return the credits no other flit has taken along (R266). -/
def State.meshReturn (s : State) (e d : Nat) : Nat → State
  | 0 => s
  | n + 1 =>
    let x := s.meshEnd e d
    if s.linkState e d = linkUp ∧ x.replay.length < 128 ∧ x.owed.any (· != 0) then
      State.meshReturn (s.meshPutFlit e d 1 0 (fillBytes x.txSeq 128) []) e d n
    else s

/-- A packet put on port `p` of a router (1 north ...): it waits for its flit slots, and leaves at once where the link and its
credits let it (R273). -/
def State.meshPut (s : State) (r p : Nat) (k : MeshPkt) : State :=
  ({ s with mesh := { s.mesh with waiting := s.mesh.waiting ++ [(r, p, k)] } } : State).flushLink r (p - 1)

/-- Packets put on their ports one after another. -/
def State.meshPutAll (s : State) : List (Nat × Nat × MeshPkt) → State
  | [] => s
  | (r, p, k) :: l => State.meshPutAll (s.meshPut r p k) l

/-! ### Receiving (R265-R268) -/

/-- Data bytes that follow a header in its packet (R267). -/
def State.pktData (s : State) (k : MeshPkt) : Nat :=
  if k.op = 1 ∨ k.op = 2 ∨ k.op = 4 then k.len
  else if k.op = 3 ∧ k.status = 0 then
    if s.mesh.responses.any (fun r => r.tag == k.tag && pktUnitOf r.by_ == k.unit && s.agentSite r.by_ == k.dst && r.data != []) then k.len
    else 0
  else 0

/-- A packet's header from its 128 bits (R267). -/
def pktOf (h : Nat) : MeshPkt :=
  { da := bitsOf h 127 88, status := bitsOf h 87 80, len := bitsOf h 79 72 + 1, op := bitsOf h 71 68, unit := bitsOf h 67 64,
    tag := bitsOf h 63 48, dst := bitsOf h 47 41, src := bitsOf h 40 34, spt := bitsOf h 33 31, hb := bitsOf h 30 30 == 1,
    mbz := bitsOf h 29 0 }

/-- The whole packets of a class's byte stream, and what is left; an all-zero slot is padding (R268, log 44). At level 1 a
packet takes whole flits. -/
def State.pktParse (s : State) (level : Nat) : Nat → List Byte → List MeshPkt × List Byte
  | 0, b => ([], b)
  | n + 1, b =>
    if b.length < 16 then ([], b)
    else if leNat (b.take 16) = 0 then State.pktParse s level n (b.drop 16)
    else
      let k := pktOf (leNat (b.take 16))
      let len := s.pktData k
      let whole := 16 + (len + 15) / 16 * 16
      if b.length < whole then ([], b)
      else
        let step := if level = 1 then (whole + 127) / 128 * 128 else whole
        let r := State.pktParse s level n (b.drop step)
        ({ k with data := (b.drop 16).take len } :: r.1, r.2)

/-- A flit at one end of a link is accepted in order or discarded; the packets it completes (R266). A data flit's buffer is freed
as it is taken, and its credit goes back with what the ACK and the credits let go out. -/
def State.meshFlit (s : State) (e d : Nat) (f : MeshFlit) : State × List MeshPkt :=
  let h := f.sideband.toNat
  let kind := bitsOf h 23 22
  if s.linkState e d ≠ linkUp then (s, [])
  else if kind == 3 || meshCrc (s.meshEnd e d).rxSeq (bitsOf h 31 0) f.data != bitsOf h 63 32 then (s.meshDiscard e d, [])
  else
    let x := s.meshEnd e d
    let s1 := s.setMeshEnd e d { x with rxSeq := (x.rxSeq + 1) % 256, naked := false }
    let s2 := s1.meshAck e d (bitsOf h 31 24) (kind == 2)
    let y := s2.meshEnd e d
    let cv := bitsOf h 15 14
    let s3 := s2.setMeshEnd e d { y with credits := y.credits.set cv (y.credits.getD cv 0 + bitsOf h 13 8) }
    if kind ≠ 0 then ((s3.flushLink e d).meshReturn e d 4, [])
    else
      let v := bitsOf h 21 20
      let z0 := s3.meshEnd e d
      let z : MeshEnd := { z0 with owed := z0.owed.set v (z0.owed.getD v 0 + 1) }
      let old := Tbl.at z.part v []
      let fresh := if old = [] then (if bitsOf h 19 19 = 1 then f.data.drop (16 * bitsOf h 18 16) else []) else f.data
      let r := if v = 2 then ([], []) else s3.pktParse (s3.fld MESH_LINK.PLEVEL e d) 64 (old ++ fresh)
      let s4 := s3.setMeshEnd e d { z with part := if r.2 = [] then Tbl.del z.part v else Tbl.set z.part v r.2 }
      let s5 := if r.1 = [] then s4 else s4.setFld MESH_LINK.LAST_EOP_SEQ e d x.rxSeq
      ((s5.flushLink e d).meshReturn e d 4, r.1)

/-! ## Widths (R272) -/

/-- Failed wires of a group. -/
def groupBad (bad : List (Nat × Nat)) (g : Nat) : Nat := (bad.filter (fun w => w.1 == g)).length

/-- The width a direction keeps: 3 1,024, 2 512, 1 256, 0 none. -/
def linkWidth (bad : List (Nat × Nat)) (sb : Nat) : Nat :=
  let good (lo n : Nat) := (List.range n).all (fun i => decide (groupBad bad (lo + i) ≤ 1))
  if 2 < sb then 0
  else if good 0 32 then 3
  else if good 0 16 || good 16 16 then 2
  else if good 0 8 || good 8 8 || good 16 8 || good 24 8 then 1
  else 0

/-- Groups whose spare stands in: one failed data wire. -/
def sparesUsed (bad : List (Nat × Nat)) : Nat :=
  ((List.range 32).filter (fun g => groupBad bad g == 1 && bad.any (fun w => w.1 == g && decide (w.2 < 32)))).length

/-- A width never grows while the module is powered (R272). -/
def narrower (old new : Nat) : Nat := if old = 0 then new else min old new

/-- The wires found failed in the receive direction of one end added, its width and spares set, reported. -/
def State.endWires (s : State) (e d : Nat) (bad : List (Nat × Nat)) (sb : Nat) : State :=
  let x := s.meshEnd e d
  let all := (x.bad ++ bad).eraseDups
  let sb' := x.sbBad + sb
  let old := s.fld MESH_LINK.RX_WIDTH e d
  let w := narrower old (linkWidth all sb')
  let p := linkPeer e d
  let s1 := (((s.setMeshEnd e d { x with bad := all, sbBad := sb' }).setFld MESH_LINK.RX_WIDTH e d w).setFld
    MESH_LINK.TX_WIDTH p.1 p.2 w).setFld MESH_LINK.SB_SPARES e d (min 2 sb')
  let s2 := s1.setFld MESH_LINK.SPARES_USED e d
    (min 63 (sparesUsed all + sparesUsed (s1.meshEnd p.1 p.2).bad))
  if w ≠ old ∨ sparesUsed all ≠ sparesUsed x.bad then
    s2.raise .MESH_LINK_WIDTH e (endUnit e) [(1, d), (1, 1), (1, w), (2, (bad.head?.map (fun q => 32 * q.1 + q.2)).getD 0xFFFF)]
  else s2

/-- The fuses of a die. -/
def State.dieFuse (s : State) (e : Nat) : DieFuse := Tbl.at s.nv.dies e { site := e }

/-- The level of an endpoint's die: 1 for B0, 2 for B1 and brim dies (R277). -/
def State.dieLevel (s : State) (e : Nat) : Nat := if e < 72 ∧ (s.dieFuse e).step = 0 then 1 else 2

/-- Levels negotiated at training (R277): the lower of the two dies'. -/
def State.setLevel (s : State) (e d : Nat) : State :=
  let p := linkPeer e d
  let l := min (s.dieLevel e) (s.dieLevel p.1)
  let s1 := (s.setFld MESH_LINK.PLEVEL e d l).setFld MESH_LINK.PLEVEL p.1 p.2 l
  if l = 1 then s1.raise .MESH_LEVEL_LOW e (endUnit e) [(1, d)] else s1

/-- A die whose fused site is blank or wrong is held in reset since Carding (R276). -/
def State.dieHeld (s : State) (e : Nat) : Bool :=
  s.boot.bad.any (fun u => (u.kind == 1 || u.kind == 12) && u.cause == 1 && u.site == e)

/-! ## Waiting packets and reroutes (R273, R274) -/

/-- The port of a router's table for a packet. -/
def State.routePort (s : State) (r : Nat) (k : MeshPkt) : Nat := s.fld (ROUTE.PORT (classOf k.op)) r k.dst

/-- Packets of one end of a lost link that the other end has not delivered (R274 step 3): those that ended in a flit after the
last one that ended a delivered packet, or in one never received, then those not wholly sent. -/
def State.undelivered (s : State) (e d : Nat) : List MeshPkt :=
  let x := s.meshEnd e d
  let p := linkPeer e d
  let y := s.meshEnd p.1 p.2
  let eop := s.fld MESH_LINK.LAST_EOP_SEQ p.1 p.2
  let first := (x.txSeq + 256 * x.unacked - x.unacked) % 256
  let place := fun (q : Nat) => (q + 256 - first) % 256
  let got := place y.rxSeq
  let lost := fun (q : Nat) => decide (got ≤ place q) || (decide (place eop < got) && decide (place eop < place q)) ||
    !decide (place eop < got)
  (x.replay.filter (fun f => lost f.1.seq)).flatMap (fun f => f.2) ++ x.out.flatMap (fun c => c.2.filterMap (fun t => t.last))

/-- One end of a lost link: the undelivered packets given wait at their router again, before the others, and its flits and partial
packets are discarded (R274 step 3). -/
def State.requeue (s : State) (e d : Nat) (l : List MeshPkt) : State :=
  let x := s.meshEnd e d
  let s1 := s.setMeshEnd e d { bad := x.bad, sbBad := x.sbBad }
  { s1 with mesh := { s1.mesh with waiting := l.map (fun k => (e, d + 1, k)) ++ s1.mesh.waiting } }

/-- The Hatband takes a link out of the routes: injection pauses for the reroute, both ends re-queue what was not delivered, and
sites cut off are marked (R274, R275); `before` is what was reachable. -/
def State.linkOut (s : State) (e d : Nat) (before : List Nat) : State :=
  let p := linkPeer e d
  let s1 := (s.requeue e d (s.undelivered e d)).requeue p.1 p.2 (s.undelivered p.1 p.2)
  let s2 : State := { s1 with mesh := { s1.mesh with paused := s1.mesh.paused ++ [(e, d)], switched := false } }
  let after := s2.reachable
  s2.unreachEach (before.filter (fun x => decide (x < 72) && !after.contains x))

/-- MESH_LINK_RESUME (R272, R273, R277): what both ends kept is sent again, and what waited leaves. -/
def execMeshLinkResume (endpoint link : Nat) (txBad rxBad : List (Nat × Nat)) (sbBad : Nat) (_peerLevel : Nat) (s : State) :
    Host.Outcome State Fault Refusal :=
  .next (if linkOk endpoint link ∧ !s.dieHeld endpoint ∧ !s.dieHeld (linkPeer endpoint link).1 ∧
      (s.linkState endpoint link = linkTraining ∨ s.linkState endpoint link = linkPaused ∨
      (s.linkState endpoint link = linkDown ∧ 5 < s.hb.stage)) then
      let p := linkPeer endpoint link
      let before := s.reachable
      let s1 := ((s.endWires endpoint link rxBad sbBad).endWires p.1 p.2 txBad 0)
      let s2 := if s.linkState endpoint link = linkPaused then s1 else s1.setLevel endpoint link
      if s2.fld MESH_LINK.RX_WIDTH endpoint link = 0 ∨ s2.fld MESH_LINK.TX_WIDTH endpoint link = 0 then
        (s2.setLinkState endpoint link linkDown).linkOut endpoint link before
      else
        let s3 := s2.setLinkState endpoint link linkUp
        let s4 := (s3.meshEmit endpoint link (s3.meshEnd endpoint link).resend).meshEmit p.1 p.2 (s3.meshEnd p.1 p.2).resend
        (s4.flushLink endpoint link).flushLink p.1 p.2
    else s)

/-- MESH_LINK_DOWN (R274, R275). -/
def execMeshLinkDown (endpoint link : Nat) (s : State) : Host.Outcome State Fault Refusal :=
  .next (if linkOk endpoint link ∧ s.linkLive endpoint link then
      (s.setLinkState endpoint link linkDown).linkOut endpoint link s.reachable
    else s)

/-- A site's mesh-link FENCE bit written (R274): 1 drains the link and takes it out, 0 trains it again. -/
def State.meshFence (s : State) (e d : Nat) (on : Bool) : State :=
  let s1 := s.setFld MESH_LINK.FENCE e d (if on then 1 else 0)
  if on then
    if s.linkState e d = linkFenced then s1
    else (s1.setLinkState e d linkFenced).linkOut e d s.reachable
  else if s.linkState e d = linkFenced then s1.setLinkState e d linkTraining
  else s1

/-- MESH_LINK_FENCE (R274, R23): the Hatband and PF0 write it. -/
def execMeshLinkFence (by_ : Agent) (endpoint link : Nat) (s : State) : Host.Outcome State Fault Refusal :=
  .next (if !linkOk endpoint link then s
    else if endpoint < 72 then s.tileGate by_ endpoint (0x3000 + 0x10 * link) (fun t => t.meshFence endpoint link true)
    else s.brimGate by_ (endpoint - 72) (0x500000 + 0x10 * link) (fun t => t.meshFence endpoint link true))

/-- The words of new tables put in force. -/
def State.setRoutes (s : State) : List (Nat × Nat × Word) → State
  | [] => s
  | (r, e, w) :: l => State.setRoutes (s.setReg .ROUTE r e (setBits w 17 17 (s.fld ROUTE.UNREACH r e))) l

/-- The tables in force with some words replaced. -/
def State.tablesWith (s : State) (l : List (Nat × Nat × Word)) : Tables := fun r e =>
  match l.find? (fun x => x.1 == r && x.2.1 == e) with
  | some x => x.2.2.toNat
  | none => (s.reg .ROUTE r e).toNat

/-- Waiting packets leave by the ports of the new tables. -/
def State.rerouted (s : State) : List (Nat × Nat × MeshPkt) → List (Nat × Nat × MeshPkt)
  | [] => []
  | (r, _, k) :: l => (r, s.routePort r k, k) :: State.rerouted s l

/-- No router holds a packet but those that wait for a link that is out (R274 step 4). -/
def State.meshHoldsOnlyWaiting (s : State) : Bool :=
  s.mesh.waiting.all (fun w => !s.linkLive w.1 (w.2.1 - 1)) &&
    s.mesh.ends.all (fun x => x.2.out == [] && x.2.replay.all (fun f => f.2 == []))

/-- The mesh is empty (R274 step 5). -/
def State.meshEmpty (s : State) : Bool :=
  s.mesh.waiting == [] && s.mesh.ends.all (fun x => x.2.out == [] && x.2.replay.all (fun f => f.2 == []))

/-- The tables switched in one step, and the waiting packets put on their new ports (R274). -/
def State.switchTables (s : State) (tables : List (Nat × Nat × Word)) : State :=
  let s1 := s.setRoutes tables
  let w := s1.mesh.waiting
  let s2 : State := { s1 with mesh := { s1.mesh with waiting := [], switched := true } }
  s2.meshPutAll (s2.rerouted w)

/-- MESH_REROUTE for each link rerouted around; the pause's length is free, at most 50 µs (R274, R288). -/
def State.rerouteEvents (s : State) : List (Nat × Nat) → State
  | [] => s
  | (e, d) :: l =>
    State.rerouteEvents ((s.draw).raise .MESH_REROUTE (72 + s.hb.active) uHatband [(2, 16 * e + d), (4, s.freeVal % 51)]) l

/-! ## Clocks and crossings (R280, R286) -/

/-- PLL_LOSS_OF_LOCK (R280): a tile's clocks stop, it is fenced, its router runs on a neighbour's clock. -/
def execPllLossOfLock (endpoint : Nat) (s : State) : Host.Outcome State Fault Refusal :=
  .next (if endpoint < 72 then
      let s1 := (s.setFld CLK_STAT.LOCK endpoint 0 0).setFld CLK_STAT.FALLBACK endpoint 0 1
      let s2 := s1.setMil endpoint { s1.mil endpoint with running := false }
      (s2.fenceTile endpoint causeClock).raise .CLK_UNLOCK endpoint uCommon []
    else if endpoint < 76 then s.raise .CLK_UNLOCK endpoint uBrim []
    else s)

/-- The INTEGRITY response to a waiting request of an agent. -/
def spoiled (k : Agent × Nat) (len : Nat) : Resp := ⟨k.1, k.2, .integrity, len, []⟩

/-- The agent a packet's requester fields name (R267); a PCIe packet is of a function of its partition, PF0 where none is. -/
def State.pktAgent (s : State) (unit endpoint spt : Nat) : Agent :=
  match unit with
  | 4 => .milliner endpoint
  | 5 => .hatband
  | 6 => .pcie (((List.range 32).find? (fun f => s.fnPt f == some spt)).getD 0)
  | 7 => .brimlink (endpoint - 72) spt
  | n => .core (coreKey endpoint n)

/-- A packet is a request that gets a RESPONSE. -/
def pktAsks (k : MeshPkt) : Bool := k.op == 0 || k.op == 1 || k.op == 2

/-- The outstanding requests of the agents `p` names complete INTEGRITY (R286): those that wait at their destination or on the
mesh, and those whose response is on its way. -/
def State.spoilRequests (s : State) (p : Agent → Bool) : State :=
  let mine : Held → Bool := fun h => match h.key with
    | some k => p k.1
    | none => false
  let asks : Nat × Nat × MeshPkt → Bool := fun w => pktAsks w.2.2 && p (s.pktAgent w.2.2.unit w.2.2.src w.2.2.spt)
  let new := ((s.held ++ s.stalled).filter mine).filterMap (fun h => h.key.map (fun k => spoiled k h.range.2)) ++
    (s.mesh.waiting.filter asks).map (fun w => spoiled (s.pktAgent w.2.2.unit w.2.2.src w.2.2.spt, w.2.2.tag) w.2.2.len)
  { s with
    held := s.held.filter (fun h => !mine h), stalled := s.stalled.filter (fun h => !mine h),
    mesh := { s.mesh with
      waiting := s.mesh.waiting.filter (fun w => !asks w),
      responses := s.mesh.responses.map (fun r => if p r.by_ then { r with status := .integrity, data := [] } else r) ++ new } }

/-- The sticky overrun flag of a crossing set (R286). -/
def State.setOverrun (s : State) (site unit : Nat) : State :=
  { s with mesh := { s.mesh with overrun := if s.mesh.overrun.contains (site, unit) then s.mesh.overrun else s.mesh.overrun ++ [(site, unit)] } }

/-- XING_OVERRUN: which crossing has no stated number (free), and the UNIT fenced. -/
def State.xingEvent (s : State) (site unit : Nat) : State :=
  (s.draw).raise .XING_OVERRUN site uCommon [(1, s.freeVal % 256), (1, unit)]

/-- CROSSING_OVERRUN (R286): on a mesh link a CRC discard; on a die, the unit on the ACLK side, or the tile, is fenced. -/
def execCrossingOverrun (site : Nat) (core : Option Nat) (link : Option Nat) (s : State) : Host.Outcome State Fault Refusal :=
  .next (let s0 := if site < 72 then s.addFld CLK_STAT.XING_OVR site 0 1 else s
    match link, core with
    | some d, _ => if linkOk site d then (s0.setOverrun site (8 + d)).meshDiscard site d else s
    | none, some c =>
      if site < 72 ∧ c < 4 then
        (((s0.setOverrun site c).fenceCore (coreKey site c) causeXing).spoilRequests (fun a => a == .core (coreKey site c))).xingEvent site c
      else s
    | none, none =>
      if site < 72 then
        (((s0.setOverrun site 4).fenceTile site causeXing).spoilRequests (fun a => match a with
          | .core k => siteOf k == site
          | .milliner k => k == site
          | _ => false)).xingEvent site uCommon
      else s)

end Sys2Proof.Machine
end

