-- ==== Sys2Proof/Machine/Power.lean ====
section
/-! DEFINITION. Power delivery and control (16): rungs, points and limits, phase loss and dark domains, overvoltage, switching
of cores, droop, estimates, caps. -/

namespace Sys2Proof.Machine

/-! ## Domains (R333) -/

/-- A domain as a number. -/
def domKey (d : Domain) : Nat := (d.site * 8 + d.code) * 4 + (if d.code = 0 then d.core % 4 else 0)

/-- A domain's state. -/
def State.dom (s : State) (d : Domain) : Dom := Tbl.at s.doms (domKey d) {}

/-- A domain's state replaced. -/
def State.setDom (s : State) (d : Domain) (x : Dom) : State := { s with doms := Tbl.set s.doms (domKey d) x }

/-- The domain exists. -/
def domOk (d : Domain) : Bool :=
  if d.site < 72 then decide (d.code ≤ 4) && decide (d.core < 4) else decide (d.site < 76) && decide (5 ≤ d.code) && decide (d.code ≤ 7)

/-- Its phases. -/
def domPhases (code : Nat) : Nat := if code = 0 ∨ code = 5 then 4 else 2

/-- UNIT of a domain's records. -/
def domUnit (d : Domain) : Nat := if d.site < 72 then (if d.code = 0 then d.core else uCommon) else uBrim

/-- The core of a VCORE domain. -/
def domCore (d : Domain) : Nat := coreKey d.site d.core

/-- What power control holds of a core. -/
def State.cpw (s : State) (c : Nat) : CorePwr := Tbl.at s.cpwr c {}

/-- What power control holds of a core, replaced. -/
def State.setCpw (s : State) (c : Nat) (x : CorePwr) : State := { s with cpwr := Tbl.set s.cpwr c x }

/-! ## Points, rungs and limits (R338, R346-R348) -/

/-- The VF_POINT of a domain, its 16 bytes as a number (R338). -/
def State.vfPoint (s : State) (site code core : Nat) : Nat :=
  Tbl.at s.image.points (site + 256 * code + 65536 * core) 0

/-- The VF_POINT of a core. -/
def State.vfCore (s : State) (c : Nat) : Nat := s.vfPoint (siteOf c) 0 (coreNo c)

/-- A core's image point. -/
def State.imagePoint (s : State) (c : Nat) : Nat := bitsOf (s.vfCore c) 25 24

/-- The voltage of a core's point, in mV. -/
def State.pointMv (s : State) (c k : Nat) : Nat := bitsOf (s.vfCore c) (47 + 16 * k) (32 + 16 * k)

/-- CEIL of a core, in units of 0.25 A. -/
def State.coreCeil (s : State) (c : Nat) : Nat := bitsOf (s.vfCore c) 111 96

/-- Bits set below `n`. -/
def popCount (n w : Nat) : Nat := (maskBits n w).length

/-- The rung a core stands on. -/
def State.rung (s : State) (c : Nat) : Nat := s.fld CORE_PWR_STAT.RUNG (siteOf c) (coreNo c)

/-- ILIM of a core on a rung, in units of 1/512 A (R346). -/
def State.ilimAt (s : State) (c r : Nat) : Nat :=
  min (if popCount 4 (s.fld CORE_PWR_STAT.PHASES (siteOf c) (coreNo c)) = 4 then 24 * 512 else 18 * 512)
    (s.coreCeil c * 2 * (64 - 3 * min r 16))

/-- ILIM of a core now. -/
def State.ilim (s : State) (c : Nat) : Nat := s.ilimAt c (s.rung c)

/-- The point of a rung (R346). -/
def State.rungPoint (s : State) (c r : Nat) : Nat :=
  if r ≤ 16 then s.imagePoint c else if r ≤ 19 then min 3 (s.imagePoint c + (r - 16)) else 3

/-- One rung down, past rungs that do not exist (R346). -/
def State.rungDown (s : State) (c r : Nat) : Nat :=
  if r < 16 then r + 1 else if r < 19 ∧ s.imagePoint c + (r + 1 - 16) ≤ 3 then r + 1 else 20

/-- One rung up, past rungs that do not exist. -/
def State.rungUp (s : State) (c r : Nat) : Nat := if r = 20 then 16 + (3 - s.imagePoint c) else r - 1

/-- The conversion efficiency in force, in units of 1/1,000 (R344). -/
def State.eta (s : State) : Nat :=
  if s.fld PWR_MEAS.ETA 0 0 = 0 then 800 + Config.etaFirst % 151 else s.fld PWR_MEAS.ETA 0 0

/-- Milliwatts at the module input of a VCORE current in units of 1/512 A. -/
def State.inputMw (s : State) (c amps512 : Nat) : Nat :=
  amps512 * s.pointMv c (s.fld CORE_PWR_STAT.POINT (siteOf c) (coreNo c)) * 1000 / (512 * s.eta)

/-- P_res of a LEVEL (R351), in mW. -/
def State.pRes (s : State) (c level : Nat) : Nat := (level + 1) * s.inputMw c (s.ilim c) / 16

/-- ILIM shown, and a held reservation's P_res recomputed where ILIM has fallen (R351). -/
def State.showIlim (s : State) (c : Nat) : State :=
  let s1 := s.setFld CORE_PWR_STAT.ILIM (siteOf c) (coreNo c) (s.ilim c / 64)
  match (s.core c).resv with
  | some r => s1.setCore c { s1.core c with resv := some { r with pRes := min r.pRes (s.pRes c r.level) } }
  | none => s1

/-- A core on a rung (R339, R346): on the way down the divider moves at once, on the way up after the voltage. -/
def State.setRung (s : State) (c r : Nat) : State :=
  let st := siteOf c
  let n := coreNo c
  let s1 := s.setFld CORE_PWR_STAT.RUNG st n r
  let s2 := if r = 20 then s1.setFld CORE_PWR_STAT.DUTY st n 3 else s1
  let now := s.fld CORE_PWR_STAT.POINT st n
  let want := s.rungPoint c r
  let s3 := if now < want then
      ((s2.setFld CORE_PWR_STAT.POINT st n want).setFld CLK_STAT.DIV st 0
        (putBits (s2.fld CLK_STAT.DIV st 0) (2 * n + 1) (2 * n) want)).setCpw c { s2.cpw c with move := some want }
    else if want < now ∨ (s.cpw c).move ≠ none then s2.setCpw c { s2.cpw c with move := some want }
    else s2
  s3.showIlim c

/-- The floor on a core's rung (R348): bricks (R332), voltage sensors (R334), temperature and coolant (R357, R363), a trip or
power-down (R360, R423). -/
def State.rungFloor (s : State) (c : Nat) : Nat :=
  max (if popCount 5 (s.fld PWR_MEAS.BRICKS 0 0) = 3 then 8 else 0)
    (max (if s.fld CORE_PWR_STAT.VS_FALLBACK (siteOf c) (coreNo c) = 1 then 16 else 0)
      (max (s.fld THERM_STAT.FLOOR (siteOf c) 0) (if s.supply.trip || s.supply.powerDown then 20 else 0)))

/-- A floor that applies holds its core down (R348). -/
def State.applyFloor (s : State) (c : Nat) : State :=
  if s.rung c < s.rungFloor c then s.setRung c (s.rungFloor c) else s

/-- Floors of several cores. -/
def State.applyFloors (s : State) : List Nat → State
  | [] => s
  | c :: cs => State.applyFloors (s.applyFloor c) cs

/-- The cores the image enables. -/
def State.enabledCores (s : State) : List Nat :=
  s.image.tiles.flatMap (fun t => (maskBits 4 t.cores).map (coreKey t.site))

/-! ## OFF and the first stage (R331, R360, R422) -/

/-- Records that reach the flash store (R380). -/
def EventState.toFlash (e : EventState) (l : List EvtRec) : EventState :=
  { e with flash := (l.reverse ++ e.flash).take Config.flashStoreSize }

/-- The module OFF (R331): only flash and fuses keep what they hold, with the pins, the commands that wait and what was sent. Of
the records that had not been delivered, those of SEV 2 and 3 that had reached the flash store stay; how many is free. -/
def State.off (s : State) : State :=
  let bad := s.events.undelivered.filter (fun r => decide (2 ≤ r.sev))
  let e : EventState := { flash := s.events.flash }
  let sup : Supply := { input := s.supply.input, modEn := s.supply.modEn, on := false, latch := s.supply.latch }
  let h : Hatband := { stage := 0, halted := s.hb.halted }
  let fused : Tbl Chan := (s.chans.filter (fun x => x.2.rowFuse != [] || x.2.colFuse != [])).map
    (fun x => (x.1, { rowFuse := x.2.rowFuse, colFuse := x.2.colFuse }))
  { State.reset with
    pending := s.pending, freeCtr := s.freeCtr + 1, hostOut := s.hostOut, nv := s.nv, supply := sup, hb := h, chans := fused,
    events := e.toFlash (bad.take (s.freeVal % (bad.length + 1))) }

/-- The first-stage enable opens and latches, and the module goes OFF (R360, R422). -/
def State.openFirstStage (s : State) : State :=
  { s with supply := { s.supply with latch := true } }.off

/-! ## Phase loss, dark domains, overvoltage (R335-R337) -/

/-- A core's VCORE domain. -/
def vcore (c : Nat) : Domain := { site := siteOf c, code := 0, core := coreNo c }

/-- The domains of a site other than VMESH have power: the image in force has not left the site out (R298), no re-block has retired
it (R324), and its VSRAM and VDRAM domains are not dark (R336). -/
def State.sitePowered (s : State) (e : Nat) : Bool :=
  decide (s.fld DOM_STAT.DARK e 0 % 8 = 0) &&
  (s.reblocks.any (fun r => r.2.news.any (fun x => x.2 == e)) ||
    ((s.image.tiles.isEmpty || s.image.tiles.any (fun t => t.site == e)) && !s.reblocks.any (fun r => r.2.olds.contains e)))

/-- The power of a domain is on: it has phases that can be lost. -/
def State.domOn (s : State) (d : Domain) : Bool :=
  s.supply.on && !(s.dom d).dark &&
  (d.site ≥ 72 || d.code = 4 || (!(s.boot.failed || s.hb.halted || s.boot.restarting) && s.sitePowered d.site)) &&
  (if d.site < 72 then
    (if d.code = 0 then decide (s.fld CORE_PWR_STAT.PHASES d.site d.core ≠ 0) &&
        (s.fld CORE_PWR_STAT.STATE d.site d.core == 0 || decide (2 ≤ (s.dom d).ramp))
     else decide (bitsOf (s.fld DOM_STAT.PHASES d.site 0) (2 * d.code - 1) (2 * d.code - 2) ≠ 0))
   else true)

/-- Milliners held in reset (R204, R336). -/
def State.holdMil (s : State) (site : Nat) : State :=
  (s.setMil site { s.mil site with running := false }).setFld RESET_STAT.MIL_HELD site 0 1

/-- A core that is ON or in RETAIN is switched off, and one that is switching on stays off. -/
def State.coreOff (s : State) (c : Nat) : State :=
  let s1 := if (s.dom (vcore c)).ramp = 0 then s else s.setDom (vcore c) { s.dom (vcore c) with ramp := 0 }
  if s.pwrState c < 2 then (s1.setFld CORE_PWR_STAT.STATE (siteOf c) (coreNo c) 2).setFld SRAM_STAT.RETAINED c 0 0 else s1

/-- Cores switched off. -/
def State.coresOff (s : State) : List Nat → State
  | [] => s
  | c :: cs => State.coresOff (s.coreOff c) cs

/-- Ports taken down. -/
def State.portsDown (s : State) : List Nat → State
  | [] => s
  | p :: ps => State.portsDown (if s.portState p = portFenced then s else s.portDrop p) ps

/-- Links of an endpoint taken down. -/
def State.linksDown (s : State) (e : Nat) : List Nat → State
  | [] => s
  | d :: ds =>
    State.linksDown (if s.linkLive e d then (s.setLinkState e d linkDown).linkOut e d s.reachable else s) e ds

/-- What follows from a dark domain (R336). -/
def State.darkEffect (s : State) (d : Domain) : State :=
  if d.code = 0 then (s.setFld CORE_PWR_STAT.STATE d.site d.core 3).fenceCore (domCore d) causePower
  else if d.code ≤ 3 then
    let cs := (List.range 4).map (coreKey d.site)
    let s1 := ((s.coresOff cs).fenceCores causePower cs).holdMil d.site
    (s1.loseParts .fenced (s1.ownedBy d.site)).refreshDeg
  else if d.code = 4 then s.linksDown d.site (List.range 4)
  else if d.code = 5 then
    if d.site = 72 then s.off
    else if d.site = 74 then s.setFld EVT_STAT.STANDBY_OK 0 0 0
    else (s.portsDown ((List.range 4).map (fun k => 4 * (d.site - 72) + k))).linksDown d.site (List.range (linkCount d.site))
  else s.portsDown ((List.range 4).map (fun k => 4 * (d.site - 72) + k))

/-- A domain goes dark (R336): 0 a second phase lost, 1 an overvoltage. -/
def State.darken (s : State) (d : Domain) (cause : Nat) : State :=
  let s1 := s.setDom d { s.dom d with dark := true, ramp := 0 }
  let s2 := if d.site < 72 ∧ d.code ≠ 0 then
      s1.setFld DOM_STAT.DARK d.site 0 (s1.fld DOM_STAT.DARK d.site 0 ||| 2 ^ (d.code - 1)) else s1
  (s2.raise .DOMAIN_DARK d.site (domUnit d) [(1, d.code), (1, cause)]).darkEffect d

/-- A phase shed (R335): left out of the good phases and counted. -/
def State.shedPhase (s : State) (d : Domain) (p : Nat) : State :=
  let s1 := s.setDom d { s.dom d with lost := addOnce (s.dom d).lost p }
  if d.site < 72 then
    let s2 := s1.addFld DOM_STAT.SHEDS d.site 0 1
    if d.code = 0 then
      (s2.setFld CORE_PWR_STAT.PHASES d.site d.core (putBits (s2.fld CORE_PWR_STAT.PHASES d.site d.core) p p 0)).showIlim (domCore d)
    else
      let b := 2 * (d.code - 1) + p
      s2.setFld DOM_STAT.PHASES d.site 0 (putBits (s2.fld DOM_STAT.PHASES d.site 0) b b 0)
  else s1

/-- PHASE_LOSS (R335, R336). -/
def execPhaseLoss (dom : Domain) (phase commanded measured : Nat) (s : State) : Host.Outcome State Fault Refusal :=
  .next (if domOk dom ∧ phase < domPhases dom.code ∧ !(s.dom dom).lost.contains phase ∧ s.domOn dom then
      let s1 := (s.shedPhase dom phase).raise .PHASE_SHED dom.site (domUnit dom)
        [(1, dom.code), (1, phase), (4, commanded), (4, measured)]
      if (s.dom dom).lost = [] then s1 else s1.darken dom 0
    else s)

/-- A reservation of the core has reached its start (its set point is 15 mV higher, R351). -/
def State.resvStarted (s : State) (c : Nat) : Bool :=
  match (s.core c).resv with
  | some r => r.started
  | none => false

/-- The set point of a domain and the voltage its overvoltage test is a share of, in mV (R334, R337, R338, R351). -/
def State.setPoint (s : State) (d : Domain) : Nat × Nat :=
  if d.code = 0 then
    let c := domCore d
    let v := s.pointMv c (s.fld CORE_PWR_STAT.POINT d.site d.core)
    (v + (if s.fld CORE_PWR_STAT.VS_FALLBACK d.site d.core = 1 then 40 else 0) + (if s.resvStarted c then 15 else 0), v)
  else
    let v := bitsOf (s.vfPoint d.site d.code 0xFF) 47 32
    let w := if v = 0 then [720, 750, 1050, 1800, 750, 750, 900, 1200].getD d.code 0 else v
    (w, w)

/-- The output is an overvoltage (R337). -/
def State.overvolt (s : State) (d : Domain) (mv : Nat) : Bool :=
  decide ((s.setPoint d).1 * 100 + 12 * (s.setPoint d).2 < mv * 100) || (d.code == 0 && decide (920 < mv))

/-- OVERVOLTAGE_DETECT (R337). -/
def execOvervoltageDetect (dom : Domain) (mv : Nat) (s : State) : Host.Outcome State Fault Refusal :=
  .next (if domOk dom ∧ s.domOn dom ∧ s.overvolt dom mv then
      let s1 := s.raise .OVERVOLTAGE dom.site (domUnit dom) [(1, dom.code), (2, mv)]
      (s1.setDom dom { s1.dom dom with isolated := true }).darken dom 1
    else s)

/-- ISOLATION_CHECK (R337). -/
def execIsolationCheck (dom : Domain) (mv : Nat) (s : State) : Host.Outcome State Fault Refusal :=
  .next (if (s.dom dom).isolated then
      let s1 := s.setDom dom { s.dom dom with isolated := false }
      if (s.setPoint dom).1 * 110 < mv * 100 then
        (s1.raise .ISOLATION_FAIL dom.site (domUnit dom) [(1, dom.code), (2, mv)]).openFirstStage
      else s1
    else s)

/-! ## Bricks (R332) -/

/-- The brick limit in W for a number of good bricks (R332). -/
def brickLimit (good : Nat) : Nat := if good = 3 then 2200 else 3000

/-- BRICK_FAIL for each brick that has failed. -/
def State.brickEvents (s : State) (good sev : Nat) : List Nat → State
  | [] => s
  | b :: bs =>
    State.brickEvents (s.raise .BRICK_FAIL (72 + s.hb.active) uHatband [(1, b), (1, good)] { sev := some sev }) good sev bs

/-- BRICK_POLL (R332). -/
def execBrickPoll (good : BitVec 5) (s : State) : Host.Outcome State Fault Refusal :=
  .next (if s.supply.on ∧ s.fld PWR_MEAS.BRICKS 0 0 ≠ 0 then
      let g := good.toNat
      let n := popCount 5 g
      let gone := (List.range 5).filter (fun b => (s.fld PWR_MEAS.BRICKS 0 0).testBit b && !g.testBit b)
      let s1 := ((s.setFld PWR_MEAS.BRICKS 0 0 g).setFld THERM_LIMITS.BRICK_W 0 0 (brickLimit n)).brickEvents g (if n ≤ 2 then 3 else 1) gone
      if n ≤ 2 then { s1 with hb := { s1.hb with halted := true } }.openFirstStage
      else s1.applyFloors s1.enabledCores
    else s)

/-! ## Voltage sensors (R334) -/

/-- A number put into a falling list. -/
def insertDesc (x : Nat) : List Nat → List Nat
  | [] => [x]
  | y :: ys => if y ≤ x then x :: y :: ys else y :: insertDesc x ys

/-- The median of a list of odd length. -/
def median (l : List Nat) : Nat := (l.foldl (fun a x => insertDesc x a) []).getD (l.length / 2) 0

/-- Sensors that are broken: out of range, or off the median of the others for 1 ms. -/
def brokenSensors (readings : List Nat) (lasted : Nat) : List Nat :=
  (List.range 8).filter (fun i =>
    let r := readings.getD i 0
    let m := median (readings.eraseIdx i)
    decide (r < 400) || decide (1000 < r) || (lasted.testBit i && (decide (m + 60 < r) || decide (r + 60 < m))))

/-- VSENSE_BROKEN for each sensor newly left out. -/
def State.vsEvents (s : State) (c : Nat) (readings : List Nat) : List Nat → State
  | [] => s
  | i :: is =>
    State.vsEvents (s.raise .VSENSE_BROKEN (siteOf c) (coreNo c) [(1, i), (2, readings.getD i 0)]) c readings is

/-- VSENSE_CHECK (R334). -/
def execVsenseCheck (core : Nat) (readings : List Nat) (lasted : BitVec 8) (s : State) : Host.Outcome State Fault Refusal :=
  .next (if s.pwrState core = 0 ∧ readings.length = 8 then
      let bad := brokenSensors readings lasted.toNat
      let st := siteOf core
      let n := coreNo core
      let s1 := s.vsEvents core readings (bad.filter (fun i => !(s.cpw core).vsBad.contains i))
      let s2 := (s1.setCpw core { s1.cpw core with vsBad := bad }).setFld CORE_PWR_STAT.VS_GOOD st n (8 - bad.length)
      (s2.setFld CORE_PWR_STAT.VS_FALLBACK st n (if 8 - bad.length < 5 then 1 else 0)).applyFloor core
    else s)

/-! ## Switching cores (R340, R341) -/

/-- Every queue reads DISABLED and every fuller has stopped (R340). -/
def State.coreIdle (s : State) (c : Nat) : Bool :=
  (List.range 4).all (fun q => s.qState c q == qDisabled) &&
  (List.range 34).all (fun n => s.fld FUL_STAT.STATE c n == fulStopped && !s.fulInSwap c n)

/-- A request that is ignored (R340): the queue and opcode of SC_MANY have no value here and are free. -/
def State.pwrRefuse (s : State) (c : Nat) : State :=
  let s1 := s.setFld CORE_PWR_STAT.REFUSED (siteOf c) (coreNo c) 1
  (s1.draw 2).countConflict c (s1.freeVal % 4) (s1.freeAt 1 % 256)

/-- A requested state of a core (R340): 0 ON, 2 RETAIN, 3 OFF; 1 is ignored, and so is RETAIN from OFF, whose contents are
gone (log 45). -/
def State.corePwr (s : State) (c req : Nat) : State :=
  let st := siteOf c
  let n := coreNo c
  if req = 1 then s
  else
    let s1 := s.setFld (CORE_PWR.REQ n) st 0 req
    let d := vcore c
    let x := s1.cpw c
    if !s.coreEnabled c then s1
    else if s.coreFenced c ∨ s.pwrState c = 3 then s1.pwrRefuse c
    else if req = 0 then
      if s.pwrState c = 0 ∨ (s.dom d).ramp ≠ 0 then s1
      else (s1.setDom d { s1.dom d with ramp := 1 }).setCpw c { x with fromOff := decide (s.pwrState c = 2) }
    else if s.pwrState c = 0 ∧ !s.coreIdle c then s1.pwrRefuse c
    else if req = 2 then
      if s.pwrState c = 2 then s1
      else ((s1.setDom d { s1.dom d with ramp := 0 }).setFld CORE_PWR_STAT.STATE st n 1).setFld SRAM_STAT.RETAINED c 0 1
    else ((s1.setDom d { s1.dom d with ramp := 0 }).setFld CORE_PWR_STAT.STATE st n 2).setFld SRAM_STAT.RETAINED c 0 0

/-- CORE_PWR_ON (R340, R341). -/
def execCorePwrOn (by_ : Agent) (site core : Nat) (s : State) : Host.Outcome State Fault Refusal :=
  .next (s.tileGate by_ site 0x5000 (fun t => t.corePwr (coreKey site (core % 4)) 0))

/-- CORE_PWR_RETAIN (R340). -/
def execCorePwrRetain (by_ : Agent) (site core : Nat) (s : State) : Host.Outcome State Fault Refusal :=
  .next (s.tileGate by_ site 0x5000 (fun t => t.corePwr (coreKey site (core % 4)) 2))

/-- CORE_PWR_OFF (R340). -/
def execCorePwrOff (by_ : Agent) (site core : Nat) (s : State) : Host.Outcome State Fault Refusal :=
  .next (s.tileGate by_ site 0x5000 (fun t => t.corePwr (coreKey site (core % 4)) 3))

/-- Stage `n` runs. -/
def State.inStage (s : State) (n : Nat) : Bool :=
  s.supply.on && !s.supply.powerDown && !s.hb.halted && s.hb.stage == n && !s.boot.failed && !s.boot.stopped && !s.boot.restarting &&
  !s.boot.linkTurn

/-- A domain asks to be switched on (R341): one whose enable waits; in Batting a VCORE or a brim SerDes domain; in a re-block a
domain of a site it brings up. -/
def State.switchingOn (s : State) (d : Domain) : Bool :=
  (s.dom d).ramp == 1 ||
  ((s.dom d).ramp == 0 && domOk d && !(s.dom d).dark &&
    ((s.inStage 2 && (d.code == 0 || d.code == 6 || d.code == 7)) ||
      (decide (d.code < 4) && s.reblocks.any (fun r => r.2.news.any (fun x => x.2 == d.site)))))

/-- ADMISSION_HEADROOM (R341). -/
def execAdmissionHeadroom (dom : Domain) (s : State) : Host.Outcome State Fault Refusal :=
  .next (if s.switchingOn dom then s.setDom dom { s.dom dom with ramp := 2 } else s)

/-- ADMISSION_TIMEOUT (R341): the measured headroom is a free value. -/
def execAdmissionTimeout (dom : Domain) (s : State) : Host.Outcome State Fault Refusal :=
  .next (if s.switchingOn dom then
      let s1 := s.setDom dom { s.dom dom with ramp := 3 }
      s1.draw.raise .ADMIT_SLOW dom.site (domUnit dom) [(1, dom.code), (4, s1.freeVal % 2 ^ 32)]
    else s)

/-- A key of [lo, hi). -/
def inRange (lo hi k : Nat) : Bool := decide (lo ≤ k) && decide (k < hi)

/-- DMEM and wide registers of a core's fullers cleared (R174). -/
def State.clearFullers (s : State) (c : Nat) : List Nat → State
  | [] => s
  | n :: ns =>
    let lo := fulByte c n 0x4000
    let s1 : State := { s with mem := memClear s.mem lo (lo + 0x2000), marks := Tbl.dropKeys s.marks (inRange lo (lo + 0x2000)) }
    State.clearFullers (s1.setFul c n { s1.ful c n with w := [], wPoison := [] }) c ns

/-- A core's SRAM cleared with valid check bits (R22). -/
def State.clearSram (s : State) (c : Nat) : State :=
  let lo := sramByte c 0
  { s with mem := memClear s.mem lo (lo + 2 ^ 23), marks := Tbl.dropKeys s.marks (inRange lo (lo + 2 ^ 23)) }

/-- A clear of a core's SRAM begins: accesses wait until it ends (R22). -/
def State.beginClear (s : State) (c : Nat) : State := (s.clearSram c).setFld SRAM_STAT.CLEARING c 0 1

/-- RAMP_DONE (R340, R341). -/
def execRampDone (dom : Domain) (s : State) : Host.Outcome State Fault Refusal :=
  .next (if 2 ≤ (s.dom dom).ramp then
      let s1 := s.setDom dom { s.dom dom with ramp := 0 }
      if dom.code = 0 then
        let c := domCore dom
        let s2 := (s1.setFld CORE_PWR_STAT.STATE dom.site dom.core 0).setFld SRAM_STAT.RETAINED c 0 0
        if (s2.cpw c).fromOff then
          ((s2.setCpw c { s2.cpw c with fromOff := false }).clearFullers c (List.range 34)).beginClear c
        else s2
      else s1
    else s)

/-- VOLTAGE_MOVE_DONE (R339). -/
def execVoltageMoveDone (core : Nat) (s : State) : Host.Outcome State Fault Refusal :=
  .next (match (s.cpw core).move with
    | some p =>
      let st := siteOf core
      let n := coreNo core
      let s1 := s.setCpw core { s.cpw core with move := none }
      (s1.setFld CORE_PWR_STAT.POINT st n p).setFld CLK_STAT.DIV st 0 (putBits (s1.fld CLK_STAT.DIV st 0) (2 * n + 1) (2 * n) p)
    | none => s)

/-! ## Droop (R342) -/

/-- DROOP_ONSET (R282, R342): `depth` in per cent below the set point; the stretched cycles are counted. -/
def execDroopOnset (core depth cycles sharePermille : Nat) (s : State) : Host.Outcome State Fault Refusal :=
  .next (if s.pwrState core = 0 ∧ 3 < depth then
      let s1 := s.addFld CLK_STAT.STRETCHES (siteOf core) 0 cycles
      if 10 < sharePermille then s1.raise .DROOP_MANY (siteOf core) (coreNo core) [(2, sharePermille)] else s1
    else s)

/-! ## Estimates and calibration (R343, R344, R349) -/

/-- The issue duty after an interval (R349): halved above ILIM, doubled at or below 15/16 of it, 1/16 at rung 20. -/
def State.nextDuty (s : State) (c est : Nat) : Nat :=
  let d := s.fld CORE_PWR_STAT.DUTY (siteOf c) (coreNo c)
  if s.rung c = 20 then 3
  else if s.ilim c < est * 64 then min 3 (d + 1)
  else if est * 64 * 16 ≤ 15 * s.ilim c then d - 1
  else d

/-- ESTIMATOR_INTERVAL (R343, R349): the estimate is a free value. -/
def execEstimatorInterval (core : Nat) (s : State) : Host.Outcome State Fault Refusal :=
  .next (if s.pwrState core = 0 then
      let est := Config.estimate core s.freeCtr % 256
      let s0 := s.draw
      let duty := s.nextDuty core est
      let s1 := (s0.setFld CORE_PWR_STAT.EST (siteOf core) (coreNo core) est).setFld CORE_PWR_STAT.DUTY (siteOf core) (coreNo core) duty
      s1.setCpw core { s1.cpw core with estSum := (s1.cpw core).estSum + est, estN := (s1.cpw core).estN + 1 }
    else s)

/-- A gain one quarter of the way toward the ratio, within 0.5-2.0 (R344); the rounding of the quarter is free. -/
def nextGain (gain telemetry estimate free : Nat) : Nat :=
  if estimate = 0 then 2048 + free % 6145
  else
    let n := 3 * gain * estimate + telemetry * 4096
    let q := n / (4 * estimate) + (if n % (4 * estimate) = 0 then 0 else free % 2)
    min 8192 (max 2048 q)

/-- GAIN_CALIBRATION (R344). -/
def execGainCalibration (core telemetry estimate : Nat) (held : Bool) (s : State) : Host.Outcome State Fault Refusal :=
  .next (if s.pwrState core = 0 then
      let st := siteOf core
      let n := coreNo core
      let g := nextGain (s.fld CORE_PWR_STAT.GAIN st n) telemetry estimate s.freeVal
      let s1 := s.draw.setFld CORE_PWR_STAT.GAIN st n g
      if held ∧ (g = 2048 ∨ g = 8192) then s1.raise .EST_DRIFT st n [(2, g)] else s1
    else s)

/-- ETA_REFIT (R344): the meter's readings shown; the refitted efficiency is a free value within its range. -/
def execEtaRefit (meterW meterV _domainW : Nat) (s : State) : Host.Outcome State Fault Refusal :=
  .next (if s.supply.on then
      let s1 := s.draw
      ((s1.setFld PWR_MEAS.INPUT_W 0 0 meterW).setFld PWR_MEAS.INPUT_V 0 0 meterV).setFld PWR_MEAS.ETA 0 0 (800 + s.freeVal % 151)
    else s)

/-! ## Caps (R345, R347) -/

/-- A cap's number: 0 module, 16 + PT, 256 + site. -/
def capModule : Nat := 0
def capPart (p : Nat) : Nat := 16 + p
def capTile (site : Nat) : Nat := 256 + site

/-- The caps there are. -/
def State.capKeys (s : State) : List Nat :=
  capModule :: ((s.image.parts.map (fun p => capPart p.pt)) ++
    ((s.image.tiles.filter (fun t => s.fld PWR_CAP.CAP t.site 0 != 0)).map (fun t => capTile t.site)))

/-- A cap in force, in W; no tile cap is none. -/
def State.capWatts (s : State) (k : Nat) : Option Nat :=
  if k = capModule then some (s.fld MOD_CAP.EFFECTIVE 0 0)
  else if k < 256 then some (s.fld PT_CAP.CAP 0 (k - 16))
  else if s.fld PWR_CAP.CAP (k - 256) 0 = 0 then none else some (s.fld PWR_CAP.CAP (k - 256) 0)

/-- The sites under a cap. -/
def State.capSites (s : State) (k : Nat) : List Nat :=
  if k = capModule then s.image.tiles.map (·.site)
  else if k < 256 then (s.partTiles (k - 16)).map (·.site)
  else [k - 256]

/-- The enabled cores under a cap. -/
def State.capCores (s : State) (k : Nat) : List Nat :=
  s.enabledCores.filter (fun c => (s.capSites k).contains (siteOf c))

/-- The caps above a core. -/
def State.capsAbove (s : State) (c : Nat) : List Nat := s.capKeys.filter (fun k => (s.capSites k).contains (siteOf c))

/-- A core's average estimate since the last evaluation, at the input, in mW; the last estimate where there was none. -/
def State.coreMw (s : State) (c : Nat) : Nat :=
  let x := s.cpw c
  if x.estN = 0 then s.inputMw c (s.fld CORE_PWR_STAT.EST (siteOf c) (coreNo c) * 64)
  else s.inputMw c (x.estSum * 64) / x.estN

/-- What a cap counts for a core: with a reservation that has started, the larger of estimate and P_res (R351). -/
def State.countedMw (s : State) (c : Nat) : Nat :=
  match (s.core c).resv with
  | some r => if r.started then max (s.coreMw c) r.pRes else s.coreMw c
  | none => s.coreMw c

/-- The power under a cap (R345), in mW at the input. -/
def State.capMw (s : State) (other : List (Nat × Nat)) (brimMw k : Nat) : Nat :=
  let sites := s.capSites k
  ((s.capCores k).map s.countedMw).foldl (· + ·) 0 +
    ((other.filter (fun x => sites.contains x.1 || k == capModule)).map (·.2)).foldl (· + ·) 0 * 1000 / s.eta +
    (if k = capModule then brimMw * 1000 / s.eta else 0)

/-- A core holds a reservation. -/
def State.holdsResv (s : State) (c : Nat) : Bool := (s.core c).resv.isSome

/-- A core steps down under an over cap: those with a reservation only when every other core of the cap is at rung 20. -/
def State.stepsUnder (s : State) (k c : Nat) : Bool :=
  (s.capCores k).contains c &&
  (!s.holdsResv c || (s.capCores k).all (fun x => s.holdsResv x || s.rung x == 20))

/-- Cores stepped down one rung. -/
def State.stepDown (s : State) : List Nat → State
  | [] => s
  | c :: cs => State.stepDown (s.setRung c (max (s.rungDown c (s.rung c)) (s.rungFloor c))) cs

/-- CAP_OVER and CAP_UNMET of one cap; of the module cap the partition or site is a free value. -/
def State.capReport (s : State) (power : Nat → Nat) (above unmet : Nat → Bool) : List Nat → State
  | [] => s
  | k :: ks =>
    let kind := if k = capModule then 0 else if k < 256 then 1 else 2
    let s0 := if k = capModule then s.draw else s
    let who := if k = capModule then s.freeVal % 256 else if k < 256 then k - 16 else k - 256
    let items := [(1, kind), (1, who), (2, power k / 1000), (2, (s.capWatts k).getD 0)]
    let hb := 72 + s.hb.active
    let s1 := if above k then s0.raise .CAP_OVER hb uHatband items else s0
    State.capReport (s1.episode .CAP_UNMET hb uHatband k (unmet k) (!above k) items) power above unmet ks

/-- Estimates of the next 100 µs begin. -/
def State.clearSums (s : State) : State :=
  { s with cpwr := s.cpwr.map (fun x => (x.1, { x.2 with estSum := 0, estN := 0 })) }

/-- The module cap in force: the least of HOST, MGMT and LIMIT (R345; log 107). -/
def State.moduleCap (s : State) : State :=
  s.setFld MOD_CAP.EFFECTIVE 0 0 (min (s.fld MOD_CAP.HOST 0 0) (min (s.fld MOD_CAP.MGMT 0 0) (s.fld MOD_CAP.LIMIT 0 0)))

/-- CAP_EVALUATION (R345, R347): `otherMw` the telemetry of each site's other domains, `brimMw` that of the brim domains. -/
def execCapEvaluation (otherMw : List (Nat × Nat)) (brimMw : Nat) (s : State) : Host.Outcome State Fault Refusal :=
  .next (if s.supply.on then
      let s1 := s.moduleCap
      let ks := s1.capKeys
      let power := s1.capMw otherMw brimMw
      let above : Nat → Bool := fun k => match s1.capWatts k with
        | some w => decide (w * 1000 < power k)
        | none => false
      let high : Nat → Bool := fun k => match s1.capWatts k with
        | some w => decide (w * 1000 * 15 < power k * 16)
        | none => false
      let unmet : Nat → Bool := fun k => above k && (s1.capCores k).all (fun c => s1.rung c == 20)
      let down := s1.enabledCores.filter (fun c => ks.any (fun k => above k && s1.stepsUnder k c))
      let p : PwrCtl := { s1.pwr with
        high := s1.pwr.high ++ ks.filter (fun k => high k && !s1.pwr.high.contains k),
        power := (s1.image.tiles.map (fun t => capTile t.site) ++ ks).foldl (fun t k => Tbl.set t k (power k)) [] }
      let s2 : State := { s1 with pwr := p }
      ((s2.stepDown down).capReport power above unmet ks).clearSums
    else s)

/-- Cores taken up one rung where every cap above them allowed it, never above a floor (R347, R348). -/
def State.stepUp (s : State) : List Nat → State
  | [] => s
  | c :: cs =>
    let up := s.rungUp c (s.rung c)
    State.stepUp (if s.rung c ≠ 0 ∧ s.rungFloor c < s.rung c ∧ !(s.capsAbove c).any (fun k => s.pwr.high.contains k)
      then s.setRung c (max up (s.rungFloor c)) else s) cs

/-- RUNG_UP (R347). -/
def execRungUp (s : State) : Host.Outcome State Fault Refusal :=
  .next (if s.supply.on then
      let s1 := s.stepUp s.enabledCores
      { s1 with pwr := { s1.pwr with high := [] } }
    else s)

/-- A module cap as written (R345): 0 sets the ceiling, 300-3,000 W otherwise. -/
def clampModuleCap (w : Nat) : Nat := if w = 0 then 3000 else min 3000 (max 300 w)

/-- MANAGEMENT_CAP_WRITE (R345). -/
def execManagementCapWrite (watts : Nat) (s : State) : Host.Outcome State Fault Refusal :=
  .next (if s.supply.on then (s.setFld MOD_CAP.MGMT 0 0 (clampModuleCap watts)).moduleCap else s)

end Sys2Proof.Machine
end

