-- ==== Sys2Proof/Machine/Hints.lean ====
section
/-! DEFINITION. Heavy-phase hints: HEAVY, LIGHT, reservations and forecasts (R115, R351, R365, R366). -/

namespace Sys2Proof.Machine

/-! ## Tile caps and forecasts (R365, R366) -/

/-- TILE.PWR_CAP in force: the lower of PF0's value and every forecast (R366); 0 is none. -/
def State.refreshTileCap (s : State) (site : Nat) : State :=
  let mine := (s.pwr.forecasts.flatMap (·.caps)).filter (fun x => x.1 == site) |>.map (·.2)
  let p := Tbl.at s.pwr.pf0 site 0
  let all := if p = 0 then mine else p :: mine
  s.setFld PWR_CAP.CAP site 0 (match all with
    | [] => 0
    | a :: l => l.foldl min a)

/-- Tile caps of several sites brought up to date. -/
def State.refreshTileCaps (s : State) : List Nat → State
  | [] => s
  | x :: xs => State.refreshTileCaps (s.refreshTileCap x) xs

/-- PF0 or the Hatband writes a tile cap (R345): 0 none, otherwise 8-300 W. -/
def State.writeTileCap (s : State) (site v : Nat) : State :=
  { s with pwr := { s.pwr with pf0 := Tbl.set s.pwr.pf0 site (if v = 0 then 0 else min 300 (max 8 v)) } }.refreshTileCap site

/-- The sites next to a site, orthogonal and diagonal. -/
def siteNeighbours (site : Nat) : List Nat :=
  (List.range 72).filter (fun x => x != site &&
    decide (x / 8 ≤ site / 8 + 1) && decide (site / 8 ≤ x / 8 + 1) && decide (x % 8 ≤ site % 8 + 1) && decide (site % 8 ≤ x % 8 + 1))

/-- The cap a forecast sets on a neighbour: max(8 W, P_now - E * FC_GAIN), `e` in 1/16 K. -/
def State.forecastCap (s : State) (site e : Nat) : Nat :=
  max 8 ((Tbl.at s.pwr.power (capTile site) 0 - e * s.fld COOL_CFG.FC_GAIN 0 0 * 1000 / 16) / 1000)

/-- The forecast of a granted reservation (R365): the excess E over FC_TARGET rests on the thermal resistance fitted in
Sizing and is a free value. -/
def State.forecast (s : State) (c : Nat) : State :=
  if s.fld COOL_CFG.FORECAST 0 0 = 0 then s
  else
    let s1 := s.draw 2
    if s.freeVal % 2 = 0 then s1
    else
      let e := 1 + s.freeAt 1 % (2 ^ 15 - 1)
      let ns := (siteNeighbours (siteOf c)).filter (fun x => (s.tileAt x).isSome)
      let f : Forecast := { core := c, caps := ns.map (fun x => (x, s.forecastCap x e)) }
      let s2 : State := { s1 with pwr := { s1.pwr with forecasts := s1.pwr.forecasts ++ [f] } }
      (s2.refreshTileCaps ns).raise .FORECAST_CAP (72 + s.hb.active) uHatband [(1, siteOf c), (2, e), (4, ns.length)]
        { sub := siteOf c }

/-! ## Reservations (R115, R351) -/

/-- A core's reservation ends: its forecast waits for its 5 ms. -/
def State.resvEnd (s : State) (c : Nat) : State :=
  let s1 := (s.setCore c { s.core c with resv := none }).setFld CORE_PWR_STAT.RSVD_HINT (siteOf c) (coreNo c) 0
  { s1 with pwr := { s1.pwr with
      forecasts := s1.pwr.forecasts.map (fun f => if f.core = c then { f with ended := true } else f) } }

/-- Reservations of several cores end. -/
def State.resvEnds (s : State) : List Nat → State
  | [] => s
  | c :: cs => State.resvEnds (s.resvEnd c) cs

/-- Power reserved under a cap, in mW. -/
def State.resvUnder (s : State) (k : Nat) : Nat :=
  ((s.capCores k).map (fun c => match (s.core c).resv with
    | some r => r.pRes
    | none => 0)).foldl (· + ·) 0

/-- A core's P_res less its present estimate fits within the headroom of every cap above it (R351). -/
def State.resvFits (s : State) (c level : Nat) : Bool :=
  let need := s.pRes c level - s.inputMw c (s.fld CORE_PWR_STAT.EST (siteOf c) (coreNo c) * 64)
  (s.capsAbove c).all (fun k => match s.capWatts k with
    | some w => decide (need + Tbl.at s.pwr.power k 0 + s.resvUnder k ≤ w * 1000)
    | none => true)

/-- The intermediate rail in mV: an eighth of the metered input, 50 V before the first reading (R329; log 79). -/
def State.railMv (s : State) : Nat := if s.fld PWR_MEAS.INPUT_V 0 0 = 0 then 6250 else s.fld PWR_MEAS.INPUT_V 0 0 * 10 / 8

/-- The power reserved on the row plane of a core, in mW (R341). -/
def State.resvOnPlane (s : State) (c : Nat) : Nat :=
  ((s.enabledCores.filter (fun x => siteOf x / 8 == siteOf c / 8)).map (fun x => match (s.core x).resv with
    | some r => r.pRes
    | none => 0)).foldl (· + ·) 0

/-- A core's P_res less its present estimate fits its row plane: 80 A less its measured current, in mA, and less what hints have
reserved on it (R341, R351). -/
def State.planeFits (s : State) (c level measured : Nat) : Bool :=
  let need := s.pRes c level - s.inputMw c (s.fld CORE_PWR_STAT.EST (siteOf c) (coreNo c) * 64)
  decide (measured + (need + s.resvOnPlane c) * 1000 / s.railMv ≤ 80000)

/-- The cores a hint names. -/
def State.hintCores (s : State) (c scope : Nat) : List Nat :=
  if scope = 0 then [c] else (s.enabledCores.filter (fun x => siteOf x == siteOf c))

/-- Reservations granted to cores, an earlier one replaced. -/
def State.grantEach (s : State) (r : Reservation) : List Nat → State
  | [] => s
  | c :: cs =>
    let s1 := (s.resvEnd c).setCore c { s.core c with resv := some { r with pRes := s.pRes c r.level } }
    State.grantEach ((s1.setFld CORE_PWR_STAT.RSVD_HINT (siteOf c) (coreNo c) 1).forecast c) r cs

/-- HEAVY's effect (R115, R351): granted where every cap and the row plane have room; the row plane's current is measured (free,
one reading for the hint). -/
def State.heavyAct (s : State) (c q : Nat) (f : Fetched) : State :=
  let lead := min 50 (cmdBits f.word 39 32)
  let dur := cmdBits f.word 55 40
  let level := cmdBits f.word 59 56
  let scope := cmdBits f.word 61 60
  if 2 ≤ scope then s.finishNow c q f .badFormat
  else
    let cs := s.hintCores c scope
    let s1 := s.draw
    let s2 := if cs.all (fun x => s.resvFits x level && s.planeFits x level (s.freeVal % 80001)) then
        let r : Reservation := { level := level, scope := scope, lead := lead, dur := dur, owner := c }
        (s1.grantEach r cs).addFld SEQ_STAT.HINT_ACCEPT c 0 1
      else (s1.addFld SEQ_STAT.HINT_REFUSED c 0 1).raise .HINT_REFUSED (siteOf c) (coreNo c)
        [(1, level), (1, lead), (2, dur)]
    s2.finishNow c q f .ok

/-- The cores whose reservation a LIGHT of a core ends: its own and those it asked for. -/
def State.lightCores (s : State) (c : Nat) : List Nat :=
  (List.range 4).map (coreKey (siteOf c)) |>.filter (fun x => match (s.core x).resv with
    | some r => x == c || r.owner == c
    | none => false)

/-- HEAVY (R115). -/
def execHeavy (core q : Nat) (s : State) : Host.Outcome State Fault Refusal :=
  .next (s.issue core q 2 0 (fun _ => true) (fun f t => t.heavyAct core q f))

/-- LIGHT (R115). -/
def execLight (core q : Nat) (s : State) : Host.Outcome State Fault Refusal :=
  .next (s.control core q 2 1 (fun _ => true) (fun _ t => t.resvEnds (t.lightCores core)))

/-- RESERVATION_START (R351): every good phase is in operation, the set point is raised, and caps count P_res. -/
def execReservationStart (core : Nat) (s : State) : Host.Outcome State Fault Refusal :=
  .next (match (s.core core).resv with
    | some r => s.setCore core { s.core core with resv := some { r with started := true } }
    | none => s)

/-- RESERVATION_END (R115): DUR after its start. -/
def execReservationEnd (core : Nat) (s : State) : Host.Outcome State Fault Refusal :=
  .next (if s.resvStarted core then s.resvEnd core else s)

/-- FORECAST_END (R365, R366): the oldest ended forecast of the core lifts. -/
def execForecastEnd (core : Nat) (s : State) : Host.Outcome State Fault Refusal :=
  .next (match s.pwr.forecasts.find? (fun f => f.core == core && f.ended) with
    | some f =>
      let s1 : State := { s with pwr := { s.pwr with forecasts := s.pwr.forecasts.erase f } }
      s1.refreshTileCaps (f.caps.map (·.1))
    | none => s)

end Sys2Proof.Machine
end

