-- ==== Sys2Proof/Machine/Thermal.lean ====
section
/-! DEFINITION. Temperature and coolant (17): sensors, thresholds, DRAM throttling, trips, flow, SHED, thermistors, limits and
the cycle record. Temperatures are in 1/16 °C. -/

namespace Sys2Proof.Machine

/-- A quotient whose rounding the spec leaves open: down or up by a free bit. -/
def freeQuot (n d free : Nat) : Nat := n / d + (if n % d = 0 then 0 else free % 2)

/-! ## Sensors and spots (R353-R356) -/

/-- The endpoint of a sensor, and its number in its die's BROKEN bits (16 the diode, 17 and 18 the DRAM layers). -/
def sensorPlace : Sensor → Nat × Nat
  | .monitor site i => (site, i)
  | .diode site => (site, 16)
  | .dram site l => (site, 17 + l)
  | .brimMonitor die i => (72 + die, i)
  | .brimDiode die => (72 + die, 16)

/-- The sensor exists. -/
def sensorOk : Sensor → Bool
  | .monitor site i => decide (site < 72) && decide (i < 16)
  | .diode site => decide (site < 72)
  | .dram site l => decide (site < 72) && decide (l < 2)
  | .brimMonitor die i => decide (die < 4) && decide (i < 8)
  | .brimDiode die => decide (die < 4)

/-- A sensor as one number. -/
def sensorKey (e i : Nat) : Nat := 32 * e + i

/-- T_crit of a sensor's die (R354), in 1/16 °C. -/
def tCrit (e i : Nat) : Int := if 72 ≤ e then 108 * 16 else if 17 ≤ i then 105 * 16 else 110 * 16

/-- The monitor is retired (R354). -/
def State.sensorRetired (s : State) (e i : Nat) : Bool := s.therm.retired.contains (sensorKey e i)

/-- The sensor is broken. -/
def State.sensorBroken (s : State) (e i : Nat) : Bool :=
  if e < 72 then (s.fld THERM_STAT.BROKEN e 0).testBit i else s.therm.broken.contains (sensorKey e i)

/-- A sensor's reading as taken: T_crit while it is broken; none while it is retired or has given none. -/
def State.reading (s : State) (e i : Nat) : Option Int :=
  if s.sensorRetired e i then none
  else if s.sensorBroken e i then some (tCrit e i)
  else Tbl.find s.therm.readings (sensorKey e i)

/-- The sensors at a spot. -/
def spotSensors (k : Nat) : List Nat := if k = 0 then [0, 1, 16] else [2 * k, 2 * k + 1]

/-- The readings at a spot; with both monitors retired it reads T_crit. -/
def State.spotReadings (s : State) (e k : Nat) : List Int :=
  if s.sensorRetired e (2 * k) && s.sensorRetired e (2 * k + 1) then [tCrit e 0]
  else (spotSensors k).filterMap (s.reading e)

/-- The highest of a list of temperatures. -/
def maxTemp : List Int → Option Int
  | [] => none
  | a :: l => some (l.foldl max a)

/-- The lowest of a list of temperatures. -/
def minTemp : List Int → Option Int
  | [] => none
  | a :: l => some (l.foldl min a)

/-- A die's temperature (R356): the highest of its spots. -/
def State.dieTemp (s : State) (e : Nat) : Option Int :=
  maxTemp ((List.range (if e < 72 then 8 else 4)).flatMap (s.spotReadings e))

/-- A tile's DRAM temperature: the higher of its two layers. -/
def State.dramTemp (s : State) (site : Nat) : Option Int := maxTemp ([17, 18].filterMap (s.reading site))

/-- SENSOR_DISAGREE at a spot (R355), once per episode: more than 4 °C apart until within 3 °C; the higher reading first. -/
def State.spotDisagree (s : State) (e k : Nat) : State :=
  match maxTemp (s.spotReadings e k), minTemp (s.spotReadings e k) with
  | some a, some b =>
    s.episode .SENSOR_DISAGREE e (endUnit e) (16 * e + k) (decide (64 < a - b)) (decide (a - b ≤ 48))
      [(1, k), (2, unsignedOf 16 a), (2, unsignedOf 16 b)]
  | _, _ => s

/-! ## Trip (R360) -/

/-- A trip is detected: TEMP_TRIP, HALTED, floor 20 on every core, and the trip record with the cycle counts in flash. -/
def State.trip (s : State) (source e : Nat) (t : Int) : State :=
  if s.supply.trip ∨ !s.supply.on then s
  else
    let s1 := if source = 4 then s.raise .TEMP_TRIP (72 + s.hb.active) uHatband [(1, source), (1, e), (2, unsignedOf 16 t)]
      else s.raise .TEMP_TRIP e (endUnit e) [(1, source), (2, unsignedOf 16 t)]
    let r : TripRec := { boot := s.fld BOOT_STAGE.BOOT_COUNT 0 0, source := source, site := e, temp := t }
    let s2 : State := { s1 with
      supply := { s1.supply with trip := true },
      hb := { s1.hb with halted := true },
      nv := { s1.nv with trip := some r, cycles := s1.therm.counts } }
    s2.applyFloors s2.enabledCores

/-- TRIP_ENABLE_OPEN (R360). -/
def execTripEnableOpen (s : State) : Host.Outcome State Fault Refusal :=
  .next (if s.supply.trip then s.openFirstStage else s)

/-! ## Thresholds (R357, R359) -/

/-- The thermal floor of a temperature (R357). -/
def stepFloor (t : Int) : Nat := if t < 1600 then 0 else min 5 (1 + (t - 1600).toNat / 32)

/-- THR of a temperature (R359). -/
def thrOf (t : Int) : Nat := if t < 1600 then 0 else min 15 (3 + 3 * ((t - 1600).toNat / 32))

/-- A level that rises at its thresholds and falls 1 °C below them. -/
def withHysteresis (level : Int → Nat) (old : Nat) (t : Int) : Nat := max (level t) (min old (level (t + 15)))

/-- The refresh band of a temperature (R156): it falls 2 °C below its threshold. -/
def bandOf (old : Nat) (t : Int) : Nat :=
  let up := if 95 * 16 < t then 2 else if 85 * 16 < t then 1 else 0
  let hold := if old = 2 ∧ 93 * 16 < t then 2 else if 1 ≤ old ∧ 83 * 16 < t then 1 else 0
  max up hold

/-- The coolant state is SHED. -/
def State.shedding (s : State) : Bool := s.fld COOL_STAT.STATE 0 0 == 4

/-- THERM_STAT.FLOOR brought up to date (R348, R357, R363), and the floor applied to the tile's cores. -/
def State.showFloor (s : State) (site : Nat) : State :=
  let f := max (Tbl.at s.therm.steps site 0) (max (if s.fld THERM_STAT.CLAMP site 0 = 1 then 16 else 0) (if s.shedding then 20 else 0))
  let s1 := s.setFld THERM_STAT.FLOOR site 0 f
  s1.applyFloors (s1.enabledCores.filter (fun c => siteOf c == site))

/-- THR and the refresh band on the cores of a tile. -/
def State.setBand (s : State) (band thr : Nat) : List Nat → State
  | [] => s
  | c :: cs => State.setBand ((s.setFld DRAM_STAT.BAND c 0 band).setFld DRAM_STAT.THR c 0 thr) band thr cs

/-- THR and band of a tile brought up to date, a change reported (R156, R171, R359). -/
def State.showThr (s : State) (site band : Nat) : State :=
  let thr := if s.shedding then 15 else Tbl.at s.therm.thr site 0
  let c0 := coreKey site 0
  if s.fld THERM_STAT.THR site 0 = thr ∧ s.fld DRAM_STAT.BAND c0 0 = band then s
  else
    let s1 := (s.setFld THERM_STAT.THR site 0 thr).setBand band thr ((List.range 4).map (coreKey site))
    s1.raise .DRAM_BAND site uCommon [(1, band), (1, thr), (2, s1.fld THERM_STAT.DRAM_T site 0)]

/-- The responses to a logic die's temperature. -/
def State.logicTemp (s : State) (site : Nat) (t : Int) : State :=
  let t16 := unsignedOf 16 t
  let oldStep := Tbl.at s.therm.steps site 0
  let oldClamp := s.fld THERM_STAT.CLAMP site 0
  let step := withHysteresis stepFloor oldStep t
  let clamp := if 110 * 16 ≤ t ∨ (oldClamp = 1 ∧ 109 * 16 < t) then 1 else 0
  let floorOf : Nat → Nat → Nat := fun a b => max a (16 * b)
  let s1 := (s.setFld THERM_STAT.DIE_T site 0 t16).setFld THERM_STAT.WARN site 0 (if 98 * 16 ≤ t then 1 else 0)
  let s2 := (s1.setFld THERM_STAT.CLAMP site 0 clamp)
  let s3 : State := { s2 with therm := { s2.therm with steps := Tbl.set s2.therm.steps site step } }
  let s4 := s3.episode .TEMP_WARN site uCommon site (decide (98 * 16 ≤ t)) (decide (t < 98 * 16)) [(2, t16)]
  let s5 := if floorOf oldStep oldClamp = floorOf step clamp then s4
    else s4.raise .TEMP_THROTTLE site uCommon [(1, floorOf step clamp), (2, t16)]
  let s6 := if oldClamp = clamp then s5 else s5.raise .TEMP_CLAMP site uCommon [(1, clamp), (2, t16)]
  let s7 := s6.showFloor site
  if 118 * 16 < t then s7.trip 1 site t else s7

/-- A channel's retrain brought forward when the tile's DRAM temperature has moved by RT_DT since its last training (R159). -/
def Chan.moved (x : Chan) (dt : Nat) (t : Int) : Chan :=
  match x.trainTemp with
  | some t0 => { x with early := x.early || (decide (dt ≠ 0) && decide (16 * dt ≤ (t - t0).natAbs)) }
  | none => { x with trainTemp := some t }

/-- The channels of a core after a DRAM temperature. -/
def State.chansMoved (s : State) (c : Nat) (t : Int) : List Nat → State
  | [] => s
  | p :: ps => State.chansMoved
      (if s.fld DRAM_CH_STAT.ROLE c p = roleDead then s
       else s.setChan c p ((s.chan c p).moved (s.fld DRAM_CFG.RT_DT (siteOf c) 0) t)) c t ps

/-- The channels of a tile's cores after a DRAM temperature. -/
def State.trainMoved (s : State) (t : Int) : List Nat → State
  | [] => s
  | c :: cs => State.trainMoved (s.chansMoved c t (List.range 17)) t cs

/-- The responses to a tile's DRAM temperature. -/
def State.dramHot (s : State) (site : Nat) (t : Int) : State :=
  let s1 := s.setFld THERM_STAT.DRAM_T site 0 (unsignedOf 16 t)
  let s2 : State := { s1 with therm := { s1.therm with
    thr := Tbl.set s1.therm.thr site (withHysteresis thrOf (Tbl.at s1.therm.thr site 0) t) } }
  let s3 := (s2.trainMoved t (s2.enabledCores.filter (fun c => siteOf c == site))).showThr site
    (bandOf (s2.fld DRAM_STAT.BAND (coreKey site 0) 0) t)
  if 110 * 16 < t then s3.trip 2 site t else s3

/-- BRIM_W of a temperature (R357); its rounding is free. -/
def brimLimit (t : Int) (free : Nat) : Nat := 3000 - freeQuot (150 * (t - 1600).toNat) 16 free

/-- The responses to a brim die's temperature: BRIM_W follows the hottest brim die. -/
def State.brimHot (s : State) (e : Nat) (t : Int) : State :=
  let worst := ((List.range 4).filterMap (fun d => s.dieTemp (72 + d))).foldl max t
  let w := brimLimit worst s.freeVal
  let s0 := s.draw
  let s1 := if s0.fld THERM_LIMITS.BRIM_W 0 0 = w then s0
    else (s0.setFld THERM_LIMITS.BRIM_W 0 0 w).raise .BRIM_HOT e uBrim [(2, unsignedOf 16 t), (2, w)]
  if 115 * 16 < t then s1.trip 3 e t else s1

/-- A die's temperatures brought up to date (R356). -/
def State.updateTemps (s : State) (e : Nat) : State :=
  let s1 := match s.dieTemp e with
    | some t => if e < 72 then s.logicTemp e t else s.brimHot e t
    | none => s
  if e < 72 then
    match s1.dramTemp e with
    | some t => s1.dramHot e t
    | none => s1
  else s1

/-- A sensor is found broken (R354): 0 missing, 1 out of range. -/
def State.breakSensor (s : State) (e i cause : Nat) : State :=
  let s1 := if e < 72 then s.setFld THERM_STAT.BROKEN e 0 (s.fld THERM_STAT.BROKEN e 0 ||| 2 ^ i)
    else { s with therm := { s.therm with broken := addOnce s.therm.broken (sensorKey e i) } }
  (s1.raise .SENSOR_BROKEN e (endUnit e) [(1, i), (1, cause)]).updateTemps e

/-- The spots of a sensor compared. -/
def State.spotOf (s : State) (e i : Nat) : State := if i < 17 then s.spotDisagree e (if i = 16 then 0 else i / 2) else s

/-- TEMP_SAMPLE (R354-R357, R359): a reading after its Sizing offset; a broken or retired sensor is not read. -/
def execTempSample (sensor : Sensor) (t : Int) (s : State) : Host.Outcome State Fault Refusal :=
  let e := (sensorPlace sensor).1
  let i := (sensorPlace sensor).2
  .next (if sensorOk sensor ∧ !s.sensorRetired e i ∧ !s.sensorBroken e i ∧ s.supply.on then
      if t < -640 ∨ 2400 < t then s.breakSensor e i 1
      else
        let s1 : State := { s with therm := { s.therm with readings := Tbl.set s.therm.readings (sensorKey e i) t } }
        (s1.spotOf e i).updateTemps e
    else s)

/-- SENSOR_MISSING (R354). -/
def execSensorMissing (sensor : Sensor) (s : State) : Host.Outcome State Fault Refusal :=
  let e := (sensorPlace sensor).1
  let i := (sensorPlace sensor).2
  .next (if sensorOk sensor ∧ !s.sensorRetired e i ∧ !s.sensorBroken e i ∧ s.supply.on then s.breakSensor e i 0 else s)

/-! ## Coolant (R361-R364) -/

/-- Floors and throttle levels of every site brought up to date. -/
def State.showAll (s : State) : List Nat → State
  | [] => s
  | x :: xs => State.showAll ((s.showFloor x).showThr x (s.fld DRAM_STAT.BAND (coreKey x 0) 0)) xs

/-- The flow of the last 250 ms times the sensor factor, in mL/min: pulses * 240,000 over KFACTOR. -/
def State.flowNum (s : State) : Nat := ((s.therm.pulses.take 5).foldl (· + ·) 0) * 240000

/-- f = flow over SETPOINT reaches `pct` per cent. -/
def State.flowAtLeast (s : State) (pct : Nat) : Bool :=
  decide (pct * (s.fld COOL_CFG.KFACTOR 0 0 * s.fld COOL_CFG.SETPOINT 0 0) ≤ 100 * s.flowNum)

/-- The coolant state by flow alone (R361). -/
def State.flowState (s : State) : Nat :=
  if s.flowAtLeast 85 then 0 else if s.flowAtLeast 70 then 1 else if s.flowAtLeast 50 then 2 else 3

/-- COOL_W of a state (R361-R363). -/
def State.coolLimit (s : State) (st : Nat) : Nat :=
  let d := s.fld COOL_CFG.KFACTOR 0 0 * s.fld COOL_CFG.SETPOINT 0 0
  if st = 4 then 300
  else if st = 3 then 1050
  else if st = 2 then 1050 + freeQuot ((10 * s.flowNum - 5 * d) * 1950) (2 * d) s.freeVal
  else 3000

/-- The coolant state changed and reported; floors and throttle levels follow SHED. -/
def State.setCool (s : State) (new : Nat) : State :=
  let old := s.fld COOL_STAT.STATE 0 0
  let w := s.coolLimit new
  let s1 := (s.draw.setFld COOL_STAT.STATE 0 0 new).setFld THERM_LIMITS.COOL_W 0 0 w
  if old = new then s1
  else
    let s2 := if new = 4 ∨ old = 4 then s1.showAll (List.range 72) else s1
    s2.raise .COOL_STATE (72 + s.hb.active) uHatband [(1, old), (1, new), (2, s.fld COOL_STAT.FLOW 0 0), (2, w)]

/-- SHED (R363): 1 no pulses, 2 slope. -/
def State.shed (s : State) (cause : Nat) : State :=
  if s.shedding then s
  else
    let s1 := s.setFld COOL_STAT.SHED_CAUSE 0 0 cause
    let s2 : State := { s1 with therm := { s1.therm with steady := 0 } }
    (s2.setCool 4).raise .COOL_SHED (72 + s.hb.active) uHatband [(1, cause), (4, s.therm.hot1), (2, s.fld COOL_STAT.FLOW 0 0)]

/-- FLOW_PULSE (R361). -/
def execFlowPulse (s : State) : Host.Outcome State Fault Refusal :=
  .next (if s.supply.on then
      { s with therm := { s.therm with pulses := match s.therm.pulses with
          | [] => [1]
          | p :: ps => (p + 1) :: ps } }
    else s)

/-- FLOW_UPDATE (R361-R363). -/
def execFlowUpdate (s : State) : Host.Outcome State Fault Refusal :=
  .next (if s.supply.on then
      let k := s.fld COOL_CFG.KFACTOR 0 0
      let flow := min 65535 (freeQuot s.flowNum k s.freeVal)
      let s1 := s.draw.setFld COOL_STAT.FLOW 0 0 flow
      let ok := s.flowAtLeast 85
      let by_ := s.flowState
      let s2 := s1.episode .COOL_FLOW_LOW (72 + s.hb.active) uHatband 0 (!ok) ok [(2, flow), (2, s.fld COOL_CFG.SETPOINT 0 0)]
      let steady := if ok ∧ s.therm.pulses.headD 0 ≠ 0 then s.therm.steady + 1 else 0
      let s3 := if s.shedding ∧ steady < 20 then s2
        else (s2.setCool by_).setFld COOL_STAT.SHED_CAUSE 0 0 0
      { s3 with therm := { s3.therm with steady := steady, pulses := 0 :: s3.therm.pulses.take 5 } }
    else s)

/-- FLOW_PULSE_TIMEOUT (R363). -/
def execFlowPulseTimeout (s : State) : Host.Outcome State Fault Refusal :=
  .next (if s.supply.on then s.shed 1 else s)

/-- Logic-die temperatures now, by site. -/
def State.dieTemps (s : State) : Tbl Int :=
  (List.range 72).filterMap (fun e => (s.dieTemp e).map (fun t => (e, t)))

/-- Tiles that have risen faster than 1.5 K/ms over the last two evaluations' span. -/
def State.hotTiles (s : State) : Nat :=
  (s.dieTemps.filter (fun x => match Tbl.find s.therm.prev2 x.1 with
    | some old => decide (48 < x.2 - old)
    | none => false)).length

/-- SLOPE_EVALUATION (R363). -/
def execSlopeEvaluation (s : State) : Host.Outcome State Fault Refusal :=
  .next (if s.supply.on then
      let n := s.hotTiles
      let s1 : State := { s with therm := { s.therm with
        hot1 := n, hot2 := s.therm.hot1, prev2 := s.therm.prev1, prev1 := s.dieTemps } }
      if 8 ≤ n ∧ 8 ≤ s.therm.hot1 then s1.shed 2 else s1
    else s)

/-- The hottest logic die. -/
def hottest : Tbl Int → Nat × Int
  | [] => (0, 0)
  | [x] => x
  | x :: l => if (hottest l).2 ≤ x.2 then x else hottest l

/-- COOLANT_TRIP_CHECK (R363): the record names the hottest logic die (log 46). -/
def execCoolantTripCheck (s : State) : Host.Outcome State Fault Refusal :=
  .next (let h := hottest s.dieTemps
    if s.supply.on ∧ s.shedding ∧ ((8 ≤ s.therm.hot1 ∧ 8 ≤ s.therm.hot2) ∨ 105 * 16 < h.2) then
      (s.trip 4 h.1 h.2).openFirstStage
    else s)

/-- A thermistor's next state: broken (for good, until the next bring-up), its misses, and whether it breaks now. -/
def thermistor (broken : Bool) (miss : Nat) (r : Option Int) : Bool × Nat :=
  match r with
  | some t => (broken || decide (t < -320) || decide (1920 < t), 0)
  | none => (broken || decide (10 ≤ miss + 1), miss + 1)

/-- THERMISTOR_BROKEN; the reading of a missing thermistor is free. -/
def State.thermistorBroken (s : State) (which : Nat) (r : Option Int) : State :=
  let s1 := s.draw
  s1.raise .THERMISTOR_BROKEN (72 + s.hb.active) uHatband
    [(1, which), (2, match r with
      | some t => unsignedOf 16 t
      | none => s.freeVal % 2 ^ 16)]

/-- INLET_W of an inlet temperature (R364). -/
def inletLimit (t : Int) (free : Nat) : Nat := max 1050 (3000 - freeQuot (100 * (t - 720).toNat) 16 free)

/-- THERMISTOR_SAMPLE (R364): a broken inlet thermistor reads 55 °C. -/
def execThermistorSample (inlet outlet : Option Int) (s : State) : Host.Outcome State Fault Refusal :=
  .next (if s.supply.on then
      let ib := s.fld COOL_STAT.IN_BROKEN 0 0 == 1
      let ob := s.fld COOL_STAT.OUT_BROKEN 0 0 == 1
      let i := thermistor ib s.therm.inMiss inlet
      let o := thermistor ob s.therm.outMiss outlet
      let s1 : State := { s with therm := { s.therm with inMiss := i.2, outMiss := o.2 } }
      let s2 := if i.1 ∧ !ib then (s1.setFld COOL_STAT.IN_BROKEN 0 0 1).thermistorBroken 0 inlet else s1
      let s3 := if o.1 ∧ !ob then (s2.setFld COOL_STAT.OUT_BROKEN 0 0 1).thermistorBroken 1 outlet else s2
      let s4 := match o.1, outlet with
        | false, some t => s3.setFld COOL_STAT.OUTLET 0 0 (unsignedOf 12 t)
        | _, _ => s3
      let t := if i.1 then some (880 : Int) else inlet
      match t with
      | some v =>
        let w := inletLimit v s4.freeVal
        let s5 := (s4.draw.setFld COOL_STAT.INLET 0 0 (unsignedOf 12 v)).setFld THERM_LIMITS.INLET_W 0 0 w
        s5.episode .COOL_INLET_HIGH (72 + s.hb.active) uHatband 0 (decide (720 < v)) (decide (v ≤ 720)) [(2, unsignedOf 16 v), (2, w)]
      | none => s4
    else s)

/-- LIMIT_UPDATE (R358). -/
def execLimitUpdate (s : State) : Host.Outcome State Fault Refusal :=
  .next (if s.supply.on then
      (s.setFld MOD_CAP.LIMIT 0 0 (min (s.fld THERM_LIMITS.COOL_W 0 0) (min (s.fld THERM_LIMITS.INLET_W 0 0)
        (min (s.fld THERM_LIMITS.BRIM_W 0 0) (s.fld THERM_LIMITS.BRICK_W 0 0))))).moduleCap
    else s)

/-! ## The thermal-cycle record (R367) -/

/-- The bin of a half-cycle's range in 1/16 K. -/
def cycleBin (r : Nat) : Option Nat :=
  if r < 160 then none else if r < 320 then some 0 else if r < 640 then some 1 else some 2

/-- Turning points counted by the three-point rainflow method (log 47), newest first: the points left and the ranges
counted. -/
def rainflow : Nat → List Int → List Nat → List Int × List Nat
  | n + 1, a :: b :: c :: l, out =>
    let x := (a - b).natAbs
    let y := (b - c).natAbs
    if x < y then (a :: b :: c :: l, out)
    else if l = [] then (a :: [b], y :: out)
    else rainflow n (a :: l) (y :: y :: out)
  | _, l, out => (l, out)

/-- Half-cycles added to a site's bins. -/
def addHalves (t : Tbl Nat) (site : Nat) : List Nat → Tbl Nat
  | [] => t
  | r :: rs =>
    addHalves (match cycleBin r with
      | some b => Tbl.set t (3 * site + b) (min (2 ^ 32 - 1) (Tbl.at t (3 * site + b) 0 + 1))
      | none => t) site rs

/-- A turning point enters a site's record. -/
def Therm.turn (x : Therm) (site : Nat) (c : Cycle) (p : Int) : Therm :=
  let r := rainflow (c.turns.length + 1) (p :: c.turns) []
  { x with cycles := Tbl.set x.cycles site { c with turns := r.1 }, counts := addHalves x.counts site r.2 }

/-- A site's diode reading taken (R367): a turning point is an extreme left by 2 K or more. -/
def Therm.sample (x : Therm) (site : Nat) (t : Int) : Therm :=
  let c := Tbl.at x.cycles site {}
  match c.ext with
  | none => { x with cycles := Tbl.set x.cycles site { c with ext := some t, turns := [t] } }
  | some e =>
    if c.rises then
      if e ≤ t then { x with cycles := Tbl.set x.cycles site { c with ext := some t } }
      else if 32 ≤ e - t then x.turn site { c with ext := some t, rises := false } e
      else x
    else if t ≤ e then { x with cycles := Tbl.set x.cycles site { c with ext := some t } }
    else if 32 ≤ t - e then x.turn site { c with ext := some t, rises := true } e
    else x

/-- Sites sampled one after another. -/
def State.cycleSites (s : State) (x : Therm) : List Nat → Therm
  | [] => x
  | e :: es => State.cycleSites s (match s.reading e 16 with
      | some t => x.sample e t
      | none => x) es

/-- CYCLE_SAMPLE (R367). -/
def execCycleSample (s : State) : Host.Outcome State Fault Refusal :=
  .next (if s.supply.on then { s with therm := s.cycleSites s.therm (List.range 72) } else s)

/-- CYCLE_FLASH_WRITE (R367). -/
def execCycleFlashWrite (s : State) : Host.Outcome State Fault Refusal :=
  .next (if s.supply.on then { s with nv := { s.nv with cycles := s.therm.counts } } else s)

end Sys2Proof.Machine
end

