-- ==== Sys2Proof/Machine/Reset.lean ====
section
/-! DEFINITION. Fences, tests and resets ordered through TILE.RESET_CTL, partition control and partition resets
(R312-R323, R326-R328). -/

namespace Sys2Proof.Machine

/-! ## TILE.RESET_CTL (R315, R319, R322, R327) -/

/-- An operation's status shown. -/
def State.rstStatus (s : State) (site : Nat) (st : Status) : State := s.setFld RESET_STAT.STATUS site 0 st.code

/-- STATE_CONFLICT of each listed core counted (R116, R322): the queue and opcode of SC_MANY are free. -/
def State.conflictCores (s : State) : List Nat → State
  | [] => s
  | c :: cs => State.conflictCores ((s.draw 2).countConflict c (s.freeVal % 4) (s.freeAt 1 % 256)) cs

/-- The cores an operation names: those of CMASK, or all four. -/
def opCores (site op cmask : Nat) : List Nat :=
  if op ≤ 4 then (maskBits 4 cmask).map (coreKey site) else (List.range 4).map (coreKey site)

/-- An operation that is ignored with STATE_CONFLICT (R322, R327). -/
def State.rstRefuse (s : State) (site op cmask : Nat) : State :=
  (s.rstStatus site .stateConflict).conflictCores (opCores site op cmask)

/-- Writes of the commands a core has issued. -/
def State.outstanding (s : State) (c : Nat) : List (Nat × Nat × Store) :=
  (List.range 4).flatMap (fun q => (s.queue c q).inflight.flatMap (fun x => x.writes.map (fun w => (c, cmdRequester x.word, w))))

/-- A reset starts (R319 steps 1 and 2): a fence of cause 9; what the units had issued stays outstanding. -/
def State.resetStart (s : State) (site op cmask : Nat) (part : Option Nat) : State :=
  let cs := opCores site op cmask
  let run : ResetRun := {
    op := op, cmask := cmask, part := part,
    writes := ((Tbl.find s.resets site).map (·.writes)).getD [] ++ cs.flatMap s.outstanding }
  let s1 := if op ≤ 4 then s.fenceCores causeReset cs
    else (s.setMil site { s.mil site with running := false }).fenceTile site causeReset
  { s1.setFld RESET_STAT.BUSY site 0 1 with resets := Tbl.set s1.resets site run }

/-- A test starts: it runs on fenced units only (R327). -/
def State.testStart (s : State) (site op cmask : Nat) : State :=
  let fenced := if op = 4 then (maskBits 4 cmask).all (fun n => s.fld (RESET_STAT.CORE_CAUSE n) site 0 != 0 || s.fld RESET_STAT.TILE_CAUSE site 0 != 0)
    else s.fld RESET_STAT.TILE_CAUSE site 0 != 0
  let run : ResetRun := { op := op, cmask := cmask }
  if fenced then { s.setFld RESET_STAT.BUSY site 0 1 with resets := Tbl.set s.resets site run }
  else s.rstRefuse site op cmask

/-- A cause that only UNFENCE after a passed test clears (R315). -/
def hardCause (c : Nat) : Bool := c != 0 && c != causeHost && c != causeReset

/-- A core's fence clears, reported. -/
def State.unfenceCore (s : State) (site n : Nat) : State :=
  let old := s.fld (RESET_STAT.CORE_CAUSE n) site 0
  if old = 0 then s
  else (s.setFld (RESET_STAT.CORE_CAUSE n) site 0 0).raise .UNIT_UNFENCED site uCommon [(1, 2 ^ n), (1, old)]

/-- Fences of several cores clear. -/
def State.unfenceCores (s : State) (site : Nat) : List Nat → State
  | [] => s
  | n :: ns => State.unfenceCores (s.unfenceCore site n) site ns

/-- A tile's fence clears, reported. -/
def State.unfenceTile (s : State) (site : Nat) : State :=
  let old := s.fld RESET_STAT.TILE_CAUSE site 0
  if old = 0 then s
  else (s.setFld RESET_STAT.TILE_CAUSE site 0 0).raise .UNIT_UNFENCED site uCommon [(1, 0xF), (1, old)]

/-- UNFENCE (R315): a hardware fence clears only after a passed test. -/
def State.unfence (s : State) (site op cmask : Nat) : State :=
  if op = 3 then
    if (maskBits 4 cmask).all (fun n => !hardCause (s.fld (RESET_STAT.CORE_CAUSE n) site 0) ||
        (s.fld RESET_STAT.TEST_PASS site 0).testBit n) then
      ((s.rstStatus site .ok).unfenceCores site (maskBits 4 cmask)).refreshDeg
    else s.rstRefuse site op cmask
  else if !hardCause (s.fld RESET_STAT.TILE_CAUSE site 0) || s.tilePass.contains site then
    ((s.rstStatus site .ok).unfenceTile site).refreshDeg
  else s.rstRefuse site op cmask

/-- An operation of TILE.RESET_CTL. While one runs, only a reset of a wider scope is taken, and takes over a narrower reset
(R322). -/
def State.resetOp (s : State) (site op cmask : Nat) : State :=
  let run := Tbl.find s.resets site
  if op = 0 ∨ 72 ≤ site then s
  else if 8 < op then (if run.isSome then s.rstStatus site .stateConflict else s.rstStatus site .badFormat)
  else match run with
    | some r =>
      if op = 6 ∧ r.op = 2 then s.resetStart site 6 cmask none else s.rstRefuse site op cmask
    | none =>
      match op with
      | 1 => (s.fenceCores causeHost (opCores site 1 cmask)).rstStatus site .ok
      | 2 => s.resetStart site 2 cmask none
      | 4 => s.testStart site 4 cmask
      | 5 => (s.fenceTile site causeHost).rstStatus site .ok
      | 6 => s.resetStart site 6 cmask none
      | 8 => s.testStart site 8 cmask
      | _ => s.unfence site op cmask

/-- A write of TILE.RESET_CTL: CMASK is kept, OP acts. -/
def State.resetCtl (s : State) (site op cmask : Nat) : State :=
  if (Tbl.find s.resets site).isSome then s.resetOp site op cmask
  else (s.setFld RESET_CTL.CMASK site 0 cmask).resetOp site op cmask

/-- FENCE_CORE (R312). -/
def execFenceCore (by_ : Agent) (site cmask : Nat) (s : State) : Host.Outcome State Fault Refusal :=
  .next (s.tileGate by_ site 0x4000 (fun t => t.resetCtl site 1 (cmask % 16)))

/-- RESET_CORE (R319). -/
def execResetCore (by_ : Agent) (site cmask : Nat) (s : State) : Host.Outcome State Fault Refusal :=
  .next (s.tileGate by_ site 0x4000 (fun t => t.resetCtl site 2 (cmask % 16)))

/-- UNFENCE_CORE (R315). -/
def execUnfenceCore (by_ : Agent) (site cmask : Nat) (s : State) : Host.Outcome State Fault Refusal :=
  .next (s.tileGate by_ site 0x4000 (fun t => t.resetCtl site 3 (cmask % 16)))

/-- TEST_CORE (R327). -/
def execTestCore (by_ : Agent) (site cmask : Nat) (s : State) : Host.Outcome State Fault Refusal :=
  .next (s.tileGate by_ site 0x4000 (fun t => t.resetCtl site 4 (cmask % 16)))

/-- FENCE_TILE (R312). -/
def execFenceTile (by_ : Agent) (site : Nat) (s : State) : Host.Outcome State Fault Refusal :=
  .next (s.tileGate by_ site 0x4000 (fun t => t.resetCtl site 5 0))

/-- RESET_TILE (R319). -/
def execResetTile (by_ : Agent) (site : Nat) (s : State) : Host.Outcome State Fault Refusal :=
  .next (s.tileGate by_ site 0x4000 (fun t => t.resetCtl site 6 0))

/-- UNFENCE_TILE (R315). -/
def execUnfenceTile (by_ : Agent) (site : Nat) (s : State) : Host.Outcome State Fault Refusal :=
  .next (s.tileGate by_ site 0x4000 (fun t => t.resetCtl site 7 0))

/-- TEST_TILE (R327). -/
def execTestTile (by_ : Agent) (site : Nat) (s : State) : Host.Outcome State Fault Refusal :=
  .next (s.tileGate by_ site 0x4000 (fun t => t.resetCtl site 8 0))

/-! ## Ends of tests and resets -/

/-- SRAMs cleared. -/
def State.clearSrams (s : State) : List Nat → State
  | [] => s
  | c :: cs => State.clearSrams (s.clearSram c) cs

/-- A status that is not OK, chosen freely. -/
def failStatus (free : Nat) : Status :=
  [Status.retry, .aborted, .stateConflict, .badFormat, .noResource, .featureLevel, .integrity, .poison, .fenced, .scaleSkew,
    .auth, .memberLost].getD (free % 12) .integrity

/-- TEST_DONE (R327): the tested cores' SRAM is clear; the status of a failed test is not stated and free. -/
def execTestDone (site passed : Nat) (milOk : Bool) (s : State) : Host.Outcome State Fault Refusal :=
  .next (match Tbl.find s.resets site with
    | some r =>
      if r.op = 4 ∨ r.op = 8 then
        let mask := if r.op = 4 then r.cmask else 0xF
        let good := passed % 16 &&& mask
        let ok := good == mask && (r.op == 4 || milOk)
        let s1 : State := { s with
          resets := Tbl.del s.resets site,
          tilePass := if r.op = 8 ∧ ok then addOnce s.tilePass site else s.tilePass }
        let s2 := (s1.setFld RESET_STAT.BUSY site 0 0).setFld RESET_STAT.TEST_PASS site 0
          ((s.fld RESET_STAT.TEST_PASS site 0 &&& (0xF - mask)) ||| good)
        (if ok then s2.rstStatus site .ok else s2.draw.rstStatus site (failStatus s2.freeVal)).clearSrams
          ((maskBits 4 mask).map (coreKey site))
      else s
    | none => s)

/-- The registers of a window kind in a reset domain. -/
def domainRegs (w : Window) (d : ResetDomain) : List Reg :=
  ((regLocs.filter (fun l => l.win == w)).map (·.reg)).eraseDups.filter (fun r => r.domain == d)

/-- FENCED of a core's fullers, kept through resets (R320). -/
def State.fencedFuls (s : State) (c : Nat) : List Nat := (List.range 34).filter (fun n => s.fld FUL_STAT.FENCED c n == 1)

/-- Fullers fenced. -/
def State.setFenced (s : State) (c : Nat) : List Nat → State
  | [] => s
  | n :: ns => State.setFenced (s.setFld FUL_STAT.FENCED c n 1) c ns

/-- The registers and engines of a core at reset (R319 step 4, R117, R320), and its crossings' flags (R284); a power reservation is
not the core's. -/
def State.coreReset (s : State) (c : Nat) : State :=
  let fs := s.fencedFuls c
  let s1 : State := { s with
    regs := resetRegs s.regs (domainRegs .core .core) c,
    mesh := { s.mesh with overrun := s.mesh.overrun.filter (fun x => x != (siteOf c, coreNo c)) } }
  ((s1.setCore c { resv := (s.core c).resv }).clearFullers c (List.range 34)).setFenced c fs

/-- Cores reset. -/
def State.coreResets (s : State) : List Nat → State
  | [] => s
  | c :: cs => State.coreResets (s.coreReset c) cs

/-- The Hatband starts the tile runtime on a milliner (R321); where it starts is not stated and free. -/
def State.startMil (s : State) (site : Nat) : State :=
  let m : Mil := { running := true, pc := BitVec.ofNat 64 s.freeVal }
  (s.draw.setMil site m).setFld RESET_STAT.MIL_HELD site 0 0

/-- TILE-domain registers of a tile back at reset, with its crossings' flags (R284), its milliner in reset. -/
def State.tileReset (s : State) (site : Nat) : State :=
  let s1 : State := { s with
    regs := resetRegs (resetRegs s.regs (domainRegs .mil .tile) site) (domainRegs .tile .tile) site,
    mesh := { s.mesh with overrun := s.mesh.overrun.filter (fun x => x != (site, 4)) } }
  (s1.setMil site {}).coreResets ((List.range 4).map (coreKey site))

/-- Agents of a reset unit. -/
def agentOf (site : Nat) (r : ResetRun) : Agent → Bool
  | .core c => decide (siteOf c = site) && (decide (4 < r.op) || r.cmask.testBit (coreNo c))
  | .milliner t => t == site && decide (4 < r.op)
  | _ => false

/-- The router takes over the tags still outstanding (R319 step 3). -/
def State.absorb (s : State) (site : Nat) (r : ResetRun) : State :=
  let l := (s.mesh.responses.filter (fun x => agentOf site r x.by_)).map (fun x => (x.by_, x.tag)) ++
    ((s.held ++ s.stalled).filterMap Held.key).filter (fun x => agentOf site r x.1)
  { s with mesh := { s.mesh with absorbing := s.mesh.absorbing ++ l } }

/-- Host and reset fences of cores clear at the end of a reset (R315). -/
def State.softClear (s : State) (site : Nat) : List Nat → State
  | [] => s
  | n :: ns =>
    State.softClear (if hardCause (s.fld (RESET_STAT.CORE_CAUSE n) site 0) then s else s.unfenceCore site n) site ns

/-- The partition of a reset is READY, and its PART_RESET completes (R316, R321). -/
def State.partResetEnd (s : State) (p : Nat) (r : PartReset) : State :=
  let total := ((s.partTiles p).map (fun t => s.fld RESET_STAT.ABSORBED t.site 0)).foldl (· + ·) 0
  let s1 : State := { s with partResets := Tbl.del s.partResets p }
  let s2 := ((s1.setPart p { s1.part p with fresh := true }).setPartState p 0).raise .RESET_DONE (72 + s.hb.active) uHatband [(1, 2), (1, min 255 total)] { pt := some p }
  s2.refreshDeg.subDone r.fn r.sub .ok

/-- A tile reset that is part of a partition reset has ended. -/
def State.partSiteDone (s : State) (p site : Nat) : State :=
  match Tbl.find s.partResets p with
  | some r =>
    let left := r.sites.filter (· != site)
    if left = [] then s.partResetEnd p r
    else { s with partResets := Tbl.set s.partResets p { r with sites := left } }
  | none => s

/-! ## Partition control (R316, R317, R321) -/

/-- Tiles fenced by the host one after another; a tile whose own reset runs ignores it, with STATE_CONFLICT (R322). -/
def State.fenceTiles (s : State) : List Nat → State
  | [] => s
  | x :: xs =>
    State.fenceTiles (if (Tbl.find s.resets x).isSome ∧ s.fld RESET_STAT.TILE_CAUSE x 0 = causeReset then s.rstRefuse x 5 0
      else s.fenceTile x causeHost) xs

/-- PART_SERVE (R316). -/
def execPartServe (fn sq : Nat) (s : State) : Host.Outcome State Fault Refusal :=
  .next (s.hostCmd fn sq 0x0A (fun x => match s.subPt fn x with
    | some p => ((s.setPart p { s.part p with fresh := false }).setPartState p 1).subDone fn x.id .ok
    | none => s))

/-- PART_DRAIN (R316): complete at DRAINING; READY once no sequence is live. -/
def execPartDrain (fn sq : Nat) (s : State) : Host.Outcome State Fault Refusal :=
  .next (s.hostCmd fn sq 0x0B (fun x => match s.subPt fn x with
    | some p => ((s.setPartState p 2).subDone fn x.id .ok).drainSettle p
    | none => s))

/-- PART_FENCE (R312, R316, R323). -/
def execPartFence (fn sq : Nat) (s : State) : Host.Outcome State Fault Refusal :=
  .next (s.hostCmd fn sq 0x0C (fun x =>
    let p := x.target
    let s1 := s.fenceTiles ((s.partTiles p).map (·.site))
    ((s1.loseAll p .fenced).setPartState p 3).subDone fn x.id .ok))

/-- Commands of a partition that have not started complete FENCED (R321). -/
def State.fenceSubs (s : State) (f : Nat) : List Nat → State
  | [] => s
  | id :: ids => State.fenceSubs (s.subDone f id .fenced) f ids

/-- The commands of a function for the queue owner that have not been forwarded. -/
def State.notForwarded (s : State) (f : Nat) : List Nat :=
  ((s.fn f).subs.filter (fun x => !x.busy && x.sq != 0)).map (·.id)

/-- Every function of a partition. -/
def State.fenceFns (s : State) (p : Nat) : List Nat → State
  | [] => s
  | f :: fs => State.fenceFns (if s.fnPt f = some p then s.fenceSubs f (s.notForwarded f) else s) p fs

/-- Transfers of a partition end ABORTED, the peers told (R253, R321). -/
def State.abortXfers (s : State) (p : Nat) : List (Nat × Xfer) → State
  | [] => s
  | (n, x) :: l => State.abortXfers (if x.pt = p then s.xferAbort n x .aborted else s) p l

/-- Operations of a partition's groups end ABORTED, LOST sent to the tree neighbours (R261, R321). -/
def State.abortGroups (s : State) (p : Nat) : List Nat → State
  | [] => s
  | g :: gs =>
    let x := s.group g
    State.abortGroups (match x.desc with
      | some d =>
        if s.fld GRP_CFG.PT 0 g = p ∧ s.grpOn g then
          let s1 := s.collSend g ckLost (s.fld GRP_CFG.RANK 0 g) false [] ((s.grpNeighbours g).filter (fun m => (s.blRoute m).isSome))
          let s2 := (s1.collRecord g d .aborted x.flagged x.without.length).setFld GRP_STAT.SEQ_DONE 0 g d.seq
          (s2.setFld GRP_STAT.LAST_STATUS 0 g Status.aborted.code).setGroup g {}
        else s
      | none => s) p gs

/-- Tile resets of a partition start; each takes over a narrower reset that runs. -/
def State.startResets (s : State) (p : Nat) : List Nat → State
  | [] => s
  | x :: xs => State.startResets (s.resetStart x 6 0 (some p)) p xs

/-- PART_RESET (R319, R321). -/
def execPartReset (fn sq : Nat) (s : State) : Host.Outcome State Fault Refusal :=
  .next (s.hostCmd fn sq 0x0D (fun x =>
    let p := x.target
    let sites := (s.partTiles p).map (·.site)
    if (Tbl.find s.partResets p).isSome then s.subConflict fn x
    else
      let s1 := ((s.subBusy fn x.id).fenceFns p (List.range 32)).abortXfers p s.brim.xfers
      let s2 := ((s1.abortGroups p (List.range 64)).loseAll p .fenced)
      let r : PartReset := { fn := fn, sub := x.id, sites := sites }
      if sites = [] then s2.partResetEnd p r
      else { s2.startResets p sites with partResets := Tbl.set s2.partResets p r }))

/-- Partitions that are SERVING drain. -/
def State.drainAll (s : State) : List Nat → State
  | [] => s
  | p :: ps => State.drainAll (if (s.part p).state = 1 then (s.setPartState p 2).drainSettle p else s) ps

/-- MOD_DRAIN (R317). -/
def execModDrain (fn sq : Nat) (s : State) : Host.Outcome State Fault Refusal :=
  .next (s.hostCmd fn sq 0x0F (fun x =>
    let s1 : State := { s with hb := { s.hb with drain := true } }
    ((s1.drainAll (s.parts.map (·.1))).settleDrain).subDone fn x.id .ok))

/-! ## Brim dies (R326) -/

/-- BRIM_DIE_FENCE (R326): BD1, BD3, or the standby Hatband of BD2; the ports of a fenced die go DOWN. -/
def execBrimDieFence (die : Nat) (s : State) : Host.Outcome State Fault Refusal :=
  .next (if (die = 1 ∨ die = 3) ∧ !s.brim.fenced.contains die then
      let s1 : State := { s with brim := { s.brim with fenced := s.brim.fenced ++ [die] } }
      (s1.portsDown ((List.range 4).map (fun k => 4 * die + k))).linksDown (72 + die) (List.range (linkCount (72 + die)))
    else if die = 2 ∧ s.hb.active = 0 ∧ !s.brim.fenced.contains 2 then
      let s1 : State := { s with brim := { s.brim with fenced := s.brim.fenced ++ [2] } }
      s1.setFld EVT_STAT.STANDBY_OK 0 0 0
    else s)

end Sys2Proof.Machine
end

