-- ==== Sys2Proof/Machine/ImageFmt.lean ====
section
/-! DEFINITION. Signed images (R390, R391), the Hatblock image (R306-R308), its checks (R296, R338) and its application
(R298). -/

namespace Sys2Proof.Machine

/-! ## The image header (R390, R391) -/

/-- `n` bytes of an image from an offset, as a number. -/
def byAt (l : List Byte) (off n : Nat) : Nat := leNat ((l.drop off).take n)

/-- A range of bytes is zero. -/
def zeroAt (l : List Byte) (off n : Nat) : Bool := ((l.drop off).take n).all (· == 0)

/-- The fused package serial, as BD0's fuses hold it. -/
def State.serial (s : State) : Nat := (s.dieFuse 72).serial

/-- ROOTk (R387). -/
def State.rootKey (s : State) (k : Nat) : BitVec 512 := if k < 2 then Config.root k else Tbl.at s.nv.owners k 0

/-- The longest body of each TYPE. -/
def maxBody (typ : Nat) : Nat :=
  [2 ^ 20, 15 * 2 ^ 20, 16 * 2 ^ 20, 8192, 15 * 2 ^ 20, 4096].getD typ 0

def imgType (l : List Byte) : Nat := byAt l 6 1
def imgSlot (l : List Byte) : Nat := byAt l 7 1
def imgSvn (l : List Byte) : Nat := byAt l 8 4
def imgFormat (l : List Byte) : Nat := byAt l 12 4
def imgBody (l : List Byte) : List Byte := l.drop 512
def imgDigest (l : List Byte) : BitVec 512 := BitVec.ofNat 512 (byAt l 32 64)

/-- The first check of R391 that an image of a TYPE fails; 0 none. -/
def State.verifyImage (s : State) (l : List Byte) (typ : Nat) : Nat :=
  if l.length < 512 ∨ byAt l 0 4 ≠ 0x4B484452 ∨ byAt l 4 2 ≠ 1 ∨ imgType l ≠ typ ∨ 5 < typ ∨ 3 < imgSlot l ∨
      !(zeroAt l 96 32 && zeroAt l 261 3 && zeroAt l 396 116) ∨ (typ ≠ 1 ∧ imgFormat l ≠ 0) ∨
      byAt l 16 8 ≠ (imgBody l).length ∨ maxBody typ < (imgBody l).length then 1
  else if Config.sha512 ((l.drop 128).take 133) ≠ s.rootKey (imgSlot l) ∨ !s.nv.prog.testBit (imgSlot l) ∨
      s.nv.revoke.testBit (imgSlot l) ∨ (2 ≤ imgSlot l ∧ typ < 4) then 2
  else if !Config.ecdsaOk ((l.drop 128).take 133) (l.take 264) ((l.drop 264).take 132) then 3
  else if (byAt l 24 8 ≠ 0 ∧ byAt l 24 8 ≠ s.serial) ∨
      (if typ < 4 then decide (imgSvn l < s.nv.svn.getD typ 0) || decide (64 < imgSvn l) else decide (imgSvn l ≠ 0)) then 4
  else if Config.sha512 (imgBody l) ≠ imgDigest l then 5
  else 0

/-- IMG_REFUSED (R413); `slot` the firmware slot. -/
def State.imgRefused (s : State) (l : List Byte) (slot typ check : Nat) : State :=
  s.raise .IMG_REFUSED (72 + s.hb.active) uHatband [(1, slot), (1, typ), (1, check), (1, imgSlot l % 256)] { sub := 16 * slot + typ }

/-! ## TLVs (R305, R307) -/

/-- A TLV: its type, its offset in the body, and its value. -/
structure Tlv where
  typ : Nat
  off : Nat
  val : List Byte
  deriving DecidableEq, Repr

/-- TLVs one after another; the offset of one that does not fit. -/
def parseTlvs : Nat → Nat → List Byte → Except Nat (List Tlv)
  | 0, _, _ => .ok []
  | _ + 1, _, [] => .ok []
  | n + 1, off, b :: bs =>
    let l := b :: bs
    let len := byAt l 2 2
    let step := 4 + (len + 3) / 4 * 4
    if l.length < step ∨ 65532 < len ∨ !zeroAt l (4 + len) (step - 4 - len) then .error off
    else match parseTlvs n (off + step) (l.drop step) with
      | .ok ts => .ok ({ typ := byAt l 0 2, off := off, val := (l.drop 4).take len } :: ts)
      | .error e => .error e

/-- The length of a TLV's value; `none`: the type is not known. -/
def tlvLen (typ : Nat) : Option (Nat → Bool) :=
  match typ with
  | 0x0101 => some (· == 4)
  | 0x0102 => some (· == 24)
  | 0x0103 => some (· == 24)
  | 0x0104 => some (· == 156)
  | 0x0105 => some (· == 8)
  | 0x0106 => some (· == 8192)
  | 0x0107 => some (· == 516)
  | 0x0108 => some (· == 16)
  | 0x0109 => some (· == 14)
  | 0x010A => some (· == 14)
  | 0x810B => some (fun n => decide (1 ≤ n))
  | _ => none

/-- The key of a TLV (R307). -/
def tlvKey (t : Tlv) : Nat :=
  match t.typ with
  | 0x0101 | 0x0103 | 0x0104 | 0x0107 | 0x0109 => byAt t.val 0 1
  | 0x0102 => byAt t.val 0 2
  | 0x0108 => byAt t.val 0 3
  | 0x010A => byAt t.val 0 1 + 256 * byAt t.val 2 2
  | _ => 0

/-- The first TLV that is of no known type without bit 15, has the wrong length, or repeats a key. -/
def badTlv : List Tlv → List (Nat × Nat) → Option Nat
  | [], _ => none
  | t :: ts, seen =>
    match tlvLen t.typ with
    | none => if t.typ < 0x8000 then some t.off else badTlv ts seen
    | some ok => if ok t.val.length ∧ !seen.contains (t.typ, tlvKey t) then badTlv ts ((t.typ, tlvKey t) :: seen) else some t.off

/-- The TLVs of a type. -/
def ofType (ts : List Tlv) (typ : Nat) : List Tlv := ts.filter (fun t => t.typ == typ)

def tileOf (t : Tlv) : TileEntry :=
  { ltile := byAt t.val 0 1, site := byAt t.val 1 1, cores := byAt t.val 2 1, wdog := byAt t.val 3 1 % 2 == 1,
    autoSwap := byAt t.val 3 1 / 2 % 2 == 1 }

def coreOf (t : Tlv) : CoreCfg :=
  { site := byAt t.val 0 1, core := byAt t.val 1 1, phys := (List.range 4).map (fun j => byAt t.val (2 + j) 1),
    spare := byAt t.val 6 1, autoSpare := byAt t.val 7 1 % 2 == 1, gang := byAt t.val 7 1 / 2 % 4,
    pch := (List.range 16).map (fun k => byAt t.val (8 + k) 1) }

def partOf (t : Tlv) : PartCfg :=
  { pt := byAt t.val 0 1, expLevel := byAt t.val 1 1, owner := byAt t.val 2 1, tiles := byAt t.val 4 8, fns := byAt t.val 12 4,
    ports := byAt t.val 16 2, ceil := byAt t.val 20 4 }

def routeOf (t : Tlv) : RouteCfg :=
  { router := byAt t.val 0 1, mcast := byAt t.val 1 1, entries := (List.range 76).map (fun e => byAt t.val (4 + 2 * e) 2) }

def adapterOf (t : Tlv) : AdapterCfg :=
  { ltile := byAt t.val 0 1, base := byAt t.val 4 5, slotBytes := byAt t.val 9 3, slots := byAt t.val 12 2 }

def regionOf (t : Tlv) : RegionCfg :=
  { ltile := byAt t.val 0 1, kind := byAt t.val 1 1, index := byAt t.val 2 2, base := byAt t.val 4 5, len := byAt t.val 9 5 }

/-- Modules an allow bitmap names. -/
def allowOf (t : Tlv) : Nat × List Nat := (byAt t.val 0 1, maskBits 4096 (byAt t.val 4 512))

/-- The image a list of TLVs says. -/
def imageOf (ts : List Tlv) : Image :=
  let cfg := ((ofType ts 0x0105).head?.map (·.val)).getD []
  { tiles := (ofType ts 0x0101).map tileOf, cores := (ofType ts 0x0102).map coreOf, parts := (ofType ts 0x0103).map partOf,
    routes := (ofType ts 0x0104).map routeOf, moduleId := byAt cfg 0 2, fabric := byAt cfg 2 2, minw := byAt cfg 4 4,
    blRoutes := (List.range 4096).map (fun m => byAt (((ofType ts 0x0106).head?.map (·.val)).getD []) (2 * m) 2),
    blAllow := (ofType ts 0x0107).map allowOf,
    points := (ofType ts 0x0108).foldl (fun t x => Tbl.set t (byAt x.val 0 3) (byAt x.val 0 16)) [],
    adapters := (ofType ts 0x0109).map adapterOf, regions := (ofType ts 0x010A).map regionOf,
    policy := byAt (((ofType ts 0x810B).head?.map (·.val)).getD []) 0 1 }

/-- The domains an image gives points to: 288 cores, four more on each site, three on each brim die (R333, R338). -/
def imageDomains : List Nat :=
  (List.range 72).flatMap (fun st => (List.range 4).map (fun n => st + 65536 * n) ++
    [1, 2, 3, 4].map (fun d => st + 256 * d + 65536 * 255)) ++
  (List.range 4).flatMap (fun n => [5, 6, 7].map (fun d => 72 + n + 256 * d + 65536 * 255))

/-- Check 3 of R296 for a full image: the offset of what breaks it. -/
def fullStructure (body : List Byte) : Except Nat (List Tlv) :=
  if body.length < 64 ∨ byAt body 0 4 ≠ 0x4B48424B ∨ byAt body 4 2 ≠ 1 ∨ byAt body 28 4 + 64 ≠ body.length ∨ !zeroAt body 32 32 then
    .error 0
  else match parseTlvs body.length 64 (body.drop 64) with
    | .error e => .error e
    | .ok ts =>
      match badTlv ts [] with
      | some e => .error e
      | none =>
        let tiles := (ofType ts 0x0101).map tileOf
        let has : Nat → Nat → Bool := fun typ k => (ofType ts typ).any (fun t => tlvKey t == k)
        let all := tiles.all (fun x => (maskBits 4 x.cores).all (fun n => has 0x0102 (x.site + 256 * n)) &&
            ((ofType ts 0x010A).any (fun t => byAt t.val 0 1 == x.ltile))) &&
          (List.range 76).all (has 0x0104) && has 0x0105 0 && has 0x0106 0 &&
          (ofType ts 0x0103).all (fun p => has 0x0107 (tlvKey p)) && imageDomains.all (has 0x0108)
        if all ∧ byAt body 6 1 = 0 then .ok ts else .error 0

/-! ## Consistency (R296 check 4, R338) -/

/-- No value twice. -/
def distinct (l : List Nat) : Bool := l.eraseDups.length == l.length

/-- The words of the routes of an image. -/
def Image.tables (g : Image) : Tables := fun r e =>
  match g.routes.find? (fun x => x.router == r) with
  | some x => let w := x.entries.getD e 0; w % 2 ^ 12 + w / 2 ^ 15 * 2 ^ 16
  | none => 0

/-- Voltage ranges of the domains other than VCORE: one value each (R333), mV. -/
def domVolt (code : Nat) : Nat := [0, 750, 1050, 1800, 750, 750, 900, 1200].getD code 0

/-- The points of a core keep R338. -/
def corePointOk (w : Nat) : Bool :=
  let v := (List.range 4).map (fun k => bitsOf w (47 + 16 * k) (32 + 16 * k))
  let ceil := bitsOf w 111 96
  v.all (fun x => decide (550 ≤ x) && decide (x ≤ 850)) &&
  decide (v.getD 1 0 ≤ v.getD 0 0) && decide (v.getD 2 0 ≤ v.getD 1 0) && decide (v.getD 3 0 ≤ v.getD 2 0) &&
  decide (16 ≤ ceil) && decide (ceil ≤ 96) && decide (bitsOf w 31 24 < 4) && bitsOf w 127 112 == 0

/-- The points of every domain of an image. -/
def pointsOk (g : Image) : Bool :=
  g.points.all (fun x => if x.1 / 256 % 256 = 0 then corePointOk x.2
    else bitsOf x.2 47 32 == domVolt (x.1 / 256 % 256) && bitsOf x.2 127 48 == 0 && bitsOf x.2 31 24 == 0)

/-- The sum of CEIL x V at the image point over the enabled cores, in units of 0.25 mW, is at most 2,396 W (R338). -/
def ceilingsOk (g : Image) : Bool :=
  let each := g.tiles.flatMap (fun t => (maskBits 4 t.cores).map (fun n =>
    let w := Tbl.at g.points (t.site + 65536 * n) 0
    let p := bitsOf w 25 24
    bitsOf w 111 96 * bitsOf w (47 + 16 * p) (32 + 16 * p)))
  decide (each.foldl (· + ·) 0 ≤ 4 * 2396000)

/-- A CORE_CFG entry is in range: distinct arrays and channels (R16). -/
def coreCfgOk (c : CoreCfg) : Bool :=
  decide (c.site < 72) && decide (c.core < 4) && distinct c.phys && c.phys.all (fun p => decide (p < 5)) &&
  decide (c.spare < 5) && !c.phys.contains c.spare && distinct c.pch && c.pch.all (fun p => decide (p < 17))

/-- A PARTITION entry is in range and names enabled tiles, its owner among them. -/
def partCfgOk (g : Image) (p : PartCfg) : Bool :=
  decide (p.pt < 8) && p.tiles != 0 && p.tiles.testBit p.owner &&
  (maskBits 64 p.tiles).all (fun l => g.tiles.any (fun t => t.ltile == l)) &&
  decide (8 * popCount 64 p.tiles ≤ p.ceil) && decide (p.ceil ≤ 3000)

/-- A region or table lies in its tile's DRAM or SRAM space. -/
def regionOk (g : Image) (r : RegionCfg) : Bool :=
  decide (r.ltile < 64) && decide (r.kind < 4) && decide (r.base + r.len ≤ 2 ^ 40) && g.tiles.any (fun t => t.ltile == r.ltile)

/-- The values of a TLV that R307 leaves no room for are absent: bytes it states as 0, bits it names no field for, and an EXP_LEVEL
that is no feature level (R278); the reading of log 125. -/
def tlvInRange (t : Tlv) : Bool :=
  let z := zeroAt t.val
  match t.typ with
  | 0x0101 => decide (byAt t.val 3 1 < 4)
  | 0x0102 => decide (byAt t.val 7 1 < 8)
  | 0x0103 => z 3 1 && z 18 2 && (byAt t.val 1 1 == 1 || byAt t.val 1 1 == 2)
  | 0x0104 => z 2 2 && decide (byAt t.val 1 1 < 32) && (List.range 76).all (fun e => byAt t.val (4 + 2 * e) 2 / 2 ^ 12 % 8 == 0)
  | 0x0106 => (List.range 4096).all (fun m => let w := byAt t.val (2 * m) 2; decide (w < 2 ^ 11) && w / 2 ^ 8 % 2 == 0)
  | 0x0107 | 0x0109 => z 1 3
  | _ => true

/-- Check 4 of R296. -/
def Image.consistent (g : Image) : Bool :=
  distinct (g.tiles.map (·.ltile)) && distinct (g.tiles.map (·.site)) &&
  g.tiles.all (fun t => decide (t.ltile < 64) && decide (t.site < 72) && decide (t.cores < 16) && t.cores != 0) &&
  g.cores.all coreCfgOk && g.parts.all (partCfgOk g) &&
  g.parts.all (fun p => g.parts.all (fun q => p.pt == q.pt || (p.tiles &&& q.tiles == 0 && p.fns &&& q.fns == 0))) &&
  g.regions.all (regionOk g) && g.adapters.all (fun a => decide (a.ltile < 64) && decide (a.slots ≤ 4096) && decide (a.base < 2 ^ 40)) &&
  decide (g.moduleId < 4096) && g.blRoutes.all (fun w => decide (w < 2 ^ 11)) &&
  pointsOk g && ceilingsOk g && routesAcyclic g.tables && routesComplete g.tables (List.range 76)

/-! ## Units (R295-R297) -/

/-- A cause that marks its unit bad (R303); UNCAL leaves its core in use (R299). -/
def badCause (c : Nat) : Bool := c != 0x07 && c != 0x09 && c != 0x0D && c != 0x0C

/-- A unit of a kind is marked bad. -/
def State.markedBad (s : State) (kind site core index : Nat) : Bool :=
  s.boot.bad.any (fun u => u.kind == kind && u.site == site && (u.core == core || kind == 1) && (u.index == index || kind ≤ 2))

/-- An array is good. -/
def State.arrayGood (s : State) (site n p : Nat) : Bool := !s.markedBad 3 site n p

/-- A channel is good. -/
def State.chanGood (s : State) (site n k : Nat) : Bool := !s.markedBad 4 site n k

/-- Phases of a core's VCORE domain found bad. -/
def State.badPhases (s : State) (site n : Nat) : Nat :=
  (s.boot.bad.filter (fun u => u.kind == 10 && u.site == site && u.core == n && u.sub == 0)).length

/-- A core is marked bad (R295). -/
def State.coreBad (s : State) (site n : Nat) : Bool :=
  s.markedBad 2 site n 0 || decide (2 ≤ s.badPhases site n) ||
  decide (((List.range 17).filter (s.chanGood site n)).length < 16) ||
  decide (((List.range 5).filter (s.arrayGood site n)).length < 4) ||
  s.boot.bad.any (fun u => u.kind == 6 && u.site == site && u.core == n)

/-- A site is marked bad (R292, R293, R295). -/
def State.siteBad (s : State) (site : Nat) : Bool :=
  s.boot.bad.any (fun u => (u.kind == 1 || u.kind == 14) && u.site == site) ||
  (List.range 4).all (s.coreBad site)

/-- A substitution of R297: kind, core number, old and new physical number. -/
structure Subst where
  kind : Nat
  site : Nat
  core : Nat
  old  : Nat
  new  : Nat
  deriving DecidableEq, Repr

/-- A CORE_CFG after R297, with its substitutions; none: a unit it names is not good. -/
def State.substCore (s : State) (autoSwap : Bool) (c : CoreCfg) : Option (CoreCfg × List Subst) :=
  let badA := c.phys.filter (fun p => !s.arrayGood c.site c.core p)
  let badC := c.pch.filter (fun k => !s.chanGood c.site c.core k)
  let spareOk := c.autoSpare && s.arrayGood c.site c.core c.spare
  let chOk := autoSwap && s.chanGood c.site c.core 16 && !c.pch.contains 16
  if s.coreBad c.site c.core then none
  else match badA, badC with
    | [], [] => some (c, [])
    | [a], [] =>
      if spareOk then some ({ c with phys := c.phys.map (fun p => if p = a then c.spare else p), spare := 7 },
        [⟨3, c.site, c.core, a, c.spare⟩]) else none
    | [], [k] =>
      if chOk then some ({ c with pch := c.pch.map (fun p => if p = k then 16 else p) }, [⟨4, c.site, c.core, k, 16⟩]) else none
    | [a], [k] =>
      if spareOk && chOk then
        some ({ c with phys := c.phys.map (fun p => if p = a then c.spare else p), spare := 7,
                       pch := c.pch.map (fun p => if p = k then 16 else p) },
          [⟨3, c.site, c.core, a, c.spare⟩, ⟨4, c.site, c.core, k, 16⟩])
      else none
    | _, _ => none

/-- CORE_CFG entries after R297; none: an enabled unit is not good. -/
def State.substAll (s : State) (g : Image) : List CoreCfg → Option (List CoreCfg × List Subst)
  | [] => some ([], [])
  | c :: cs =>
    match g.tiles.find? (fun t => t.site == c.site) with
    | some t =>
      if t.cores.testBit c.core then
        match s.substCore t.autoSwap c, s.substAll g cs with
        | some (c', a), some (l, b) => some (c' :: l, a ++ b)
        | _, _ => none
      else s.substAll g cs
    | none => s.substAll g cs

/-- Check 5 of R296 for the sites `p` names. -/
def State.unitsOk (s : State) (g : Image) (p : Nat → Bool) : Option (Image × List Subst) :=
  if g.tiles.any (fun t => p t.site && s.siteBad t.site) then none
  else match s.substAll g (g.cores.filter (fun c => p c.site)) with
    | some (l, b) => some ({ g with cores := g.cores.filter (fun c => !p c.site) ++ l }, b)
    | none => none

/-- The feature level of a partition of an image (R278). -/
def State.levelOf (s : State) (g : Image) (p : PartCfg) : Nat :=
  ((g.tiles.filter (fun t => p.tiles.testBit t.ltile)).map (fun t => s.dieLevel t.site)).foldl min 2

/-- What checking an image answers: the check that fails and the TLV's offset, or the image after substitution. -/
inductive Checked where
  | bad (check off : Nat) (st : Status)
  | good (g : Image) (subs : List Subst)
  deriving DecidableEq, Repr

/-- Checks 1 to 6 of R296 on a full image. -/
def State.checkImage (s : State) (l : List Byte) : Checked :=
  if s.verifyImage l 4 ≠ 0 then .bad 1 0 .auth
  else if byAt (imgBody l) 8 8 ≠ s.serial then .bad 2 0 .auth
  else match fullStructure (imgBody l) with
    | .error e => .bad 3 e .badFormat
    | .ok ts =>
      let g := imageOf ts
      if !g.consistent then .bad 4 0 .badFormat
      else match ts.find? (fun t => !tlvInRange t) with
      | some t => .bad 4 t.off .badFormat
      | none => match s.unitsOk g (fun _ => true) with
        | none => .bad 5 0 .noResource
        | some (g', subs) =>
          if g'.parts.any (fun p => decide (s.levelOf g' p < p.expLevel)) then .bad 6 0 .featureLevel
          else .good g' subs

/-! ## Application (R298) -/

/-- Fields loaded one after another. -/
def State.loadFlds (s : State) : List (Fld × Nat × Nat × Nat) → State
  | [] => s
  | (f, u, i, v) :: l => State.loadFlds (s.loadFld f u i v) l

/-- The partition of a logical tile in an image. -/
def Image.ptOf (g : Image) (l : Nat) : Option Nat := (g.parts.find? (fun p => p.tiles.testBit l)).map (·.pt)

/-- The fields the image gives a core. -/
def coreFields (c : CoreCfg) (point : Nat) : List (Fld × Nat × Nat × Nat) :=
  let k := coreKey c.site c.core
  (List.range 16).map (fun j => (CH_REMAP.PCH (j % 8), k, j / 8, c.pch.getD j 0)) ++
  (List.range 17).map (fun p => (DRAM_CH_STAT.ROLE, k, p,
    if c.pch.contains p then roleInService else if p = 16 then roleSpare else roleOut)) ++
  (List.range 4).map (fun j => (ARRAY_MAP.PHYS j, k, 0, c.phys.getD j 0)) ++
  [(ARRAY_MAP.SPARE, k, 0, c.spare), (ARRAY_MAP.AUTO_SPARE, k, 0, if c.autoSpare then 1 else 0), (ARRAY_CFG.GANG, k, 0, c.gang),
   (CORE_PWR_STAT.POINT, c.site, c.core, point), (CORE_PWR.REQ c.core, c.site, 0, 0)]

/-- The fields the image gives a tile. -/
def tileFields (g : Image) (t : TileEntry) : List (Fld × Nat × Nat × Nat) :=
  let pt := g.ptOf t.ltile
  let dv := (List.range 4).map (fun n => bitsOf (Tbl.at g.points (t.site + 65536 * n) 0) 25 24 * 4 ^ n) |>.foldl (· + ·) 0
  [(MIL_ID.PV, t.site, 0, if pt.isSome then 1 else 0), (MIL_ID.PT, t.site, 0, pt.getD 0), (MIL_ID.LTILE, t.site, 0, t.ltile),
   (MIL_WDOG.EN, t.site, 0, if t.wdog then 1 else 0), (DRAM_CFG.AUTO_SWAP, t.site, 0, if t.autoSwap then 1 else 0),
   (CLK_STAT.DIV, t.site, 0, dv)] ++
  ((List.range 4).filter (fun n => !t.cores.testBit n)).map (fun n => (CORE_PWR.REQ n, t.site, 0, 3)) ++
  (g.cores.filter (fun c => c.site == t.site && t.cores.testBit c.core)).flatMap
    (fun c => coreFields c (bitsOf (Tbl.at g.points (t.site + 65536 * c.core) 0) 25 24))

/-- A router's tables and multicast mask. -/
def routeFields (x : RouteCfg) : List (Fld × Nat × Nat × Nat) :=
  (List.range 76).flatMap (fun e =>
    let w := x.entries.getD e 0
    (ROUTE.V, x.router, e, w / 2 ^ 15) :: (List.range 4).map (fun c => (ROUTE.PORT c, x.router, e, bitsOf w (3 * c + 2) (3 * c)))) ++
  [(MCAST_MASK.MASK, x.router, 0, x.mcast % 32)]

/-- The firewall map of an image in one router (R24). -/
def fwFields (g : Image) (router : Nat) : List (Fld × Nat × Nat × Nat) :=
  (List.range 64).flatMap (fun l =>
    let p := if g.tiles.any (fun t => t.ltile == l) then g.ptOf l else none
    [(FW_MAP.V (l % 16), router, l / 16, if p.isSome then 1 else 0), (FW_MAP.PT (l % 16), router, l / 16, p.getD 0)])

/-- The fields the image gives Brimlink. -/
def brimFields (g : Image) : List (Fld × Nat × Nat × Nat) :=
  (BL_SELF.MODULE_ID, 0, 0, g.moduleId) ::
  (List.range 16).flatMap (fun p => [(PORT_CFG.ROLE, 0, p, if g.fabric.testBit p then 1 else 0), (PORT_CFG.MINW, 0, p, g.minw / 4 ^ p % 4)]) ++
  (List.range 4096).flatMap (fun m => let w := g.blRoutes.getD m 0
    [(BL_ROUTE.V, 0, m, w / 2 ^ 10 % 2), (BL_ROUTE.ALT_V, 0, m, w / 2 ^ 9 % 2), (BL_ROUTE.ALT, 0, m, w / 16 % 16), (BL_ROUTE.PRI, 0, m, w % 16)]) ++
  g.blAllow.flatMap (fun a => a.2.map (fun m => (BL_ALLOW.A m, 0, 64 * a.1 + m / 64, 1)))

/-- The fields the image gives the functions and the caps. -/
def hostFields (g : Image) : List (Fld × Nat × Nat × Nat) :=
  (List.range 32).flatMap (fun f =>
    let p := (g.parts.find? (fun x => x.fns.testBit f)).map (·.pt)
    [(FN_STAT.PV, f, 0, if p.isSome then 1 else 0), (FN_STAT.PT, f, 0, p.getD 0)]) ++
  g.parts.flatMap (fun p => [(PT_CAP.CEIL, 0, p.pt, p.ceil), (PT_CAP.CAP, 0, p.pt, p.ceil)]) ++
  [(UPD_CTL.DIST_POLICY, 0, 0, g.policy % 2)]

/-- Cores the image leaves disabled switched off (R298 step 3). -/
def State.offCores (s : State) (g : Image) : State :=
  s.coresOff ((List.range 288).filter (fun c => !g.tiles.any (fun t => t.site == siteOf c && t.cores.testBit (coreNo c))))

/-- Feature levels, partitions and image in force (R298 step 5). -/
def State.tie (s : State) (g : Image) : State :=
  { s with
    image := g,
    levels := g.parts.foldl (fun t p => Tbl.set t p.pt (s.levelOf g p)) [],
    parts := g.parts.foldl (fun t p => Tbl.set t p.pt (s.part p.pt)) [] }

/-- A full image applied (R298). -/
def State.applyImage (s : State) (g : Image) : State :=
  let s1 := s.loadFlds (g.tiles.flatMap (tileFields g) ++ g.routes.flatMap routeFields ++ brimFields g ++ hostFields g)
  let s2 := (s1.offCores g).loadFlds ((List.range 76).flatMap (fwFields g))
  s2.tie g

/-! ## Partial images (R308, R324) -/

/-- What a partial image says: its KIND, its logical tiles, its partition, and its image. -/
structure Partial where
  tlvs  : List Tlv
  kind  : Nat
  tiles : List Nat
  pt    : Nat
  image : Image
  deriving DecidableEq, Repr

/-- Check 3 of R296 for a partial image (R308): only entries of its scope, a full set of MESH_ROUTE entries. -/
def partialStructure (g : Image) (body : List Byte) : Except Nat Partial :=
  let kind := byAt body 6 1
  if body.length < 64 ∨ byAt body 0 4 ≠ 0x4B48424B ∨ byAt body 4 2 ≠ 1 ∨ byAt body 28 4 + 64 ≠ body.length ∨
      !zeroAt body 32 32 ∨ (kind ≠ 1 ∧ kind ≠ 2) then .error 0
  else match parseTlvs body.length 64 (body.drop 64) with
    | .error e => .error e
    | .ok ts =>
      match badTlv ts [] with
      | some e => .error e
      | none =>
        let pt := byAt body 7 1
        let img := imageOf ts
        let scope := if kind = 1 then maskBits 64 (byAt body 16 8)
          else match img.parts.head? with
            | some p => maskBits 64 p.tiles
            | none => []
        let sites := img.tiles.map (·.site)
        let inScope : Tlv → Bool := fun t => match t.typ with
          | 0x0101 | 0x0109 | 0x010A => scope.contains (byAt t.val 0 1)
          | 0x0102 => sites.contains (byAt t.val 0 1)
          | 0x0104 => true
          | 0x0103 | 0x0107 => kind == 2 && byAt t.val 0 1 == pt
          | n => decide (0x8000 ≤ n) && (tlvLen n).isNone
        let has : Nat → Nat → Bool := fun typ k => (ofType ts typ).any (fun t => tlvKey t == k)
        match ts.find? (fun t => !inScope t) with
        | some t => .error t.off
        | none =>
          if (List.range 76).all (has 0x0104) ∧ scope.all (fun l => has 0x0101 l) ∧ (kind = 1 ∨ (has 0x0103 pt ∧ has 0x0107 pt)) ∧
              img.tiles.all (fun x => (maskBits 4 x.cores).all (fun n => has 0x0102 (x.site + 256 * n))) ∧
              scope ≠ [] ∧ scope.all (fun l => kind == 2 || g.tiles.any (fun t => t.ltile == l)) then
            .ok { tlvs := ts, kind := kind, tiles := scope, pt := pt, image := img }
          else .error 0

/-- The image in force with a partial image put in. -/
def Image.merge (g : Image) (p : Partial) : Image :=
  let oldSites := (g.tiles.filter (fun t => p.tiles.contains t.ltile)).map (·.site)
  let newSites := p.image.tiles.map (·.site)
  { g with
    tiles := g.tiles.filter (fun t => !p.tiles.contains t.ltile) ++ p.image.tiles
    cores := g.cores.filter (fun c => !oldSites.contains c.site && !newSites.contains c.site) ++ p.image.cores
    parts := if p.kind = 2 then g.parts.filter (fun x => x.pt != p.pt) ++ p.image.parts else g.parts
    routes := p.image.routes
    blAllow := if p.kind = 2 then g.blAllow.filter (fun x => x.1 != p.pt) ++ p.image.blAllow else g.blAllow
    adapters := g.adapters.filter (fun a => !p.tiles.contains a.ltile) ++ p.image.adapters
    regions := g.regions.filter (fun r => !p.tiles.contains r.ltile) ++ p.image.regions }

/-- What checking a partial image answers. -/
inductive PartialChecked where
  | bad (st : Status)
  | good (p : Partial) (g : Image) (subs : List Subst)
  deriving DecidableEq, Repr

/-- Checks 1 to 6 of R296 on a partial image for a partition, with R308 and R278: a level is lowered only by a re-block of the
whole partition after its reset. -/
def State.checkPartial (s : State) (pt : Nat) (l : List Byte) : PartialChecked :=
  if s.verifyImage l 4 ≠ 0 ∨ byAt (imgBody l) 8 8 ≠ s.serial then .bad .auth
  else match partialStructure s.image (imgBody l) with
    | .error _ => .bad .badFormat
    | .ok p =>
      let g := s.image.merge p
      let mine := if p.kind = 2 then p.pt == pt else p.tiles.all (fun x => s.partOfTile x == some pt)
      if !(g.consistent && mine && p.tlvs.all tlvInRange) then .bad .badFormat
      else match s.unitsOk g (fun x => p.image.tiles.any (fun t => t.site == x)) with
        | none => .bad .noResource
        | some (g', subs) =>
          if g'.parts.any (fun q => decide (s.levelOf g' q < q.expLevel) ||
              (q.pt == pt && decide (s.levelOf g' q < Tbl.at s.levels pt 0) && !(p.kind == 2 && (s.part pt).fresh))) then
            .bad .featureLevel
          else .good p g' subs

end Sys2Proof.Machine
end

