-- ==== Sys2Proof/Machine/Bringup.lean ====
section
/-! DEFINITION. Bring-up (R289-R311), the first stage's power-up and power-down (R422-R424), restarting (R309), the loss of
REFCLK (R280), and re-blocking (R324, R310). -/

namespace Sys2Proof.Machine

/-! ## Flash and fuses shown (R387, R394, R396) -/

/-- Fields set one after another. -/
def State.setFlds (s : State) : List (Fld × Nat × Nat × Nat) → State
  | [] => s
  | (f, u, i, v) :: l => State.setFlds (s.setFld f u i v) l

/-- A firmware slot. -/
def State.slot (s : State) (k : Nat) : Slot := Tbl.at s.nv.slots k {}

/-- A firmware slot replaced. -/
def State.setSlot (s : State) (k : Nat) (x : Slot) : State := { s with nv := { s.nv with slots := Tbl.set s.nv.slots k x } }

/-- HB.FUSE_STAT, HB.SLOT_STAT and FLASH_COUNT show what flash and fuses hold. -/
def State.showNv (s : State) : State :=
  s.setFlds [(FUSE_STAT.REVOKE, 0, 0, s.nv.revoke), (FUSE_STAT.PROG, 0, 0, s.nv.prog), (FUSE_STAT.DBG_LOCK, 0, 0, s.nv.dbgLock),
    (FUSE_STAT.SVN_BOOT, 0, 0, s.nv.svn.getD 0 0), (FUSE_STAT.SVN_HBFW, 0, 0, s.nv.svn.getD 1 0),
    (FUSE_STAT.SVN_RT, 0, 0, s.nv.svn.getD 2 0), (FUSE_STAT.SVN_FMC, 0, 0, s.nv.svn.getD 3 0),
    (SLOT_STAT.FMT_A, 0, 0, (s.slot 0).fmt), (SLOT_STAT.FMT_B, 0, 0, (s.slot 1).fmt),
    (SLOT_STAT.STATE_A, 0, 0, (s.slot 0).state), (SLOT_STAT.STATE_B, 0, 0, (s.slot 1).state),
    (SLOT_STAT.TRIES, 0, 0, s.nv.tries), (SLOT_STAT.ACTIVE, 0, 0, s.nv.active),
    (EVT_STAT.FLASH_COUNT, 0, 0, s.events.flash.length)]

/-- A slot has the right to stand in for the ACTIVE one (R395): GOOD or CONFIRMING. -/
def State.slotStandsIn (s : State) (k : Nat) : Bool := (s.slot k).state == 4 || (s.slot k).state == 3

/-- An image stored in a slot passes R391; a slot that stores no image of the TYPE is as delivered. -/
def State.slotVerifies (s : State) (k typ : Nat) : Bool :=
  match Tbl.find (s.slot k).images typ with
  | some l => s.verifyImage l typ == 0
  | none => true

/-- The boot ROM and the boot loader can use a slot (R392, R395). -/
def State.slotBoots (s : State) (k : Nat) : Bool := s.slotVerifies k 0 && s.slotVerifies k 1

/-- What a bring-up does about a TRIAL slot (R396), before Carding: a reversion that is due, or one more try. -/
def State.trialStart (s : State) : State :=
  let a := s.nv.active
  if (s.slot a).state = 2 then
    match s.nv.revert with
    | some cause =>
      let s1 := s.setSlot a { s.slot a with state := 1 }
      let s2 : State := { s1 with nv := { s1.nv with active := 1 - a, tries := 0, revert := none } }
      s2.raise .UPD_REVERTED (72 + s2.hb.active) uHatband [(1, a), (1, cause)]
    | none =>
      { s with nv := { s.nv with tries := min 4 (s.nv.tries + 1), revert := if 4 ≤ s.nv.tries + 1 then some 3 else none } }
  else { s with nv := { s.nv with revert := none } }

/-- The trial bring-up counts as failed: the slot is given back at the next bring-up (R396). -/
def State.trialFails (s : State) (cause : Nat) : State :=
  if (s.slot s.nv.active).state = 2 then { s with nv := { s.nv with revert := some (s.nv.revert.getD cause) } } else s

/-! ## Start and end of power (R289, R309, R331, R422-R424) -/

/-- The first stage starts from OFF, and bring-up begins (R289, R422). -/
def State.powerUp (s : State) : State :=
  let s1 : State := { s with supply := { s.supply with on := true, powerDown := false, trip := false }, hb := {} }
  s1.trialStart

/-- Bring-up may start: MOD_EN high, the input at 40 V, no latch, not running (R422). -/
def State.mayStart (s : State) : Bool := s.supply.modEn && s.supply.input && !s.supply.latch && !s.supply.on

/-- INPUT_RISE_40V (R289, R422). -/
def execInputRise40v (s : State) : Host.Outcome State Fault Refusal :=
  .next (let s1 : State := { s with supply := { s.supply with input := true } }
    if s1.mayStart then s1.powerUp else s1)

/-- MOD_EN_RISE (R422, R424): while a power-down runs, it completes and the latch holds. -/
def execModEnRise (s : State) : Host.Outcome State Fault Refusal :=
  .next (let s1 : State := { s with supply := { s.supply with modEn := true } }
    if s1.mayStart then s1.powerUp else s1)

/-- Every record of SEV 2 and 3 that has not reached the flash store is written (R423 step 2). -/
def EventState.flushFlash (e : EventState) : EventState := e.toFlash (e.undelivered.filter (fun r => decide (2 ≤ r.sev)))

/-- MOD_EN_FALL (R423 steps 1 to 3): floors, cycle counts and records, ports. -/
def execModEnFall (s : State) : Host.Outcome State Fault Refusal :=
  .next (let s1 : State := { s with supply := { s.supply with modEn := false } }
    if s1.supply.on ∧ !s1.supply.powerDown then
      let s2 : State := { s1 with
        supply := { s1.supply with powerDown := true },
        nv := { s1.nv with cycles := s1.therm.counts },
        events := s1.events.flushFlash }
      (s2.applyFloors s2.enabledCores).portsDown (List.range 16)
    else s1)

/-- FIRST_STAGE_OPEN (R423 step 4). -/
def execFirstStageOpen (s : State) : Host.Outcome State Fault Refusal :=
  .next (if s.supply.powerDown then s.openFirstStage else s)

/-- FIRST_STAGE_LATCH_CLEAR (R422): MOD_EN has been low for 10 ms. -/
def execFirstStageLatchClear (s : State) : Host.Outcome State Fault Refusal :=
  .next (if !s.supply.modEn ∧ !s.supply.on then { s with supply := { s.supply with latch := false } } else s)

/-- INPUT_BELOW_30V (R422): the latch clears; whether a running first stage has lost its control supply yet is free. -/
def execInputBelow30v (s : State) : Host.Outcome State Fault Refusal :=
  .next (let s1 := if s.supply.on ∧ s.freeVal % 2 = 1 then s.draw.off else if s.supply.on then s.draw else s
    { s1 with supply := { s1.supply with input := false, latch := false } })

/-- INPUT_SAG (R330, R331): OFF where BD0's VBRIM_L has fallen below its threshold; else the regulators follow the input down,
and what fails shows itself by its own steps. -/
def execInputSag (vbrimLost : Bool) (s : State) : Host.Outcome State Fault Refusal :=
  .next (if vbrimLost ∧ s.supply.on then
      let s1 := s.off
      { s1 with supply := { s1.supply with input := false } }
    else s)

/-- Registers of every unit in the CORE and TILE domains. -/
def lostRegs : List Nat := ((regLocs.map (·.reg)).eraseDups.filter (fun r => r.domain == .core || r.domain == .tile)).map (·.num)

/-- Power removed from every tile domain except VMESH (R290, R280): cores off, what they and the milliners hold is gone. -/
def State.tilesLost (s : State) : State :=
  let s1 := s.coresOff (List.range 288)
  { s1 with
    regs := Tbl.dropKeys s1.regs (fun k => lostRegs.contains (k % 2 ^ 7)),
    cores := [], fullers := [], mils := [], mem := [], marks := [], swaps := [], repairs := [], resets := [], held := [], stalled := [] }

/-- REFCLK_MISSING (R280): HALTED, and power is removed from the tiles. -/
def execRefclkMissing (die : Nat) (s : State) : Host.Outcome State Fault Refusal :=
  .next (if die < 4 ∧ s.supply.on ∧ !s.hb.halted then
      let s1 := s.raise .REFCLK_LOST (72 + die) uBrim []
      let s2 : State := { s1 with hb := { s1.hb with halted := true } }
      (s2.tilesLost.loseParts .fenced (s2.parts.map (·.1))).refreshDeg
    else s)

/-! ## Units and stage reports (R290, R302, R303, R311) -/

/-- A unit entered in the record: UNIT_BAD where its cause marks it bad. -/
def State.markUnit (s : State) (u : BadUnit) : State :=
  if badCause u.cause then
    ({ s with boot := { s.boot with bad := s.boot.bad ++ [u] } } : State).raise .UNIT_BAD (72 + s.hb.active) uHatband
      [(1, u.kind), (1, u.site), (1, u.core), (2, u.index), (1, u.cause)]
  else { s with boot := { s.boot with notes := s.boot.notes ++ [u] } }

/-- Units entered one after another. -/
def State.markUnits (s : State) : List BadUnit → State
  | [] => s
  | u :: us => State.markUnits (s.markUnit u) us

/-- A stage report written (R302); DURATION and CYCLE are measured (free). -/
def State.report (s : State) (n status flags slot : Nat) (entries : List BadUnit) : State :=
  let r : Report := {
    stage := n, status := status, flags := (if 2560 < entries.length then 1 else 0) + flags, slot := slot,
    duration := s.freeVal % 2 ^ 32, bootCount := s.fld BOOT_STAGE.BOOT_COUNT 0 0, cycle := s.freeAt 1 % 2 ^ 64,
    entries := entries.take 2560 }
  let now := (s.boot.reports.head?).getD [] ++ [r]
  let s1 := (s.draw 2).setFld BOOT_STAGE.LAST_STATUS 0 0 status
  { s1 with
    boot := { s1.boot with reports := (now :: s1.boot.reports.drop 1).take 4 },
    nv := { s1.nv with reports := now } }

/-- A stage passes (R289, R309, R311): the next one begins, unless STOP_AFTER names it. -/
def State.stagePass (s : State) (n flags slot : Nat) (entries : List BadUnit) : State :=
  let stop : Bool := decide (n < 6) && s.fld BOOT_CTL.STOP_AFTER 0 0 == n
  let s1 := s.report n 0 (flags + (if stop then 2 else 0)) slot entries
  let s2 := s1.raise .STAGE_END (72 + s.hb.active) uHatband [(1, n), (4, s.freeVal % 2 ^ 32), (4, entries.length)]
  if stop then { s2 with boot := { s2.boot with stopped := true } }
  else { s2 with hb := { s2.hb with stage := n + 1 } }

/-- A stage fails (R290). -/
def State.stageFail (s : State) (n : Nat) (st : Status) (slot : Nat) (entries : List BadUnit) : State :=
  let s1 := s.tilesLost.report n st.code 0 slot entries
  let s2 := (s1.setFld BOOT_STAGE.FAILED_STAGE 0 0 n).setFld BOOT_TIME.TOTAL_US 0 0 s1.freeVal
  let k := match entries with
    | u :: _ => (u.kind, u.cause)
    | [] => (0, 0)
  let s3 := s2.draw.raise .STAGE_FAILED (72 + s.hb.active) uHatband [(1, n), (1, st.code), (1, k.1), (1, k.2)]
  ({ s3 with boot := { s3.boot with failed := true } } : State).trialFails 0

/-! ## Carding (R292) -/

/-- What Carding loads from flash (R309): BOOT_COUNT one higher, the last trip, the cycle counts, the reports of earlier
bring-ups. -/
def State.cardLoad (s : State) : State :=
  let n := (s.nv.bootCount + 1) % 2 ^ 32
  let old := if s.boot.reports = [] then (if s.nv.reports = [] then [] else [s.nv.reports]) else s.boot.reports.take 3
  let s1 : State := { s with
    nv := { s.nv with bootCount := n },
    therm := { s.therm with counts := s.nv.cycles },
    boot := { s.boot with reports := [] :: old } }
  let t := match s1.nv.trip with
    | some r => [(TRIP_LAST.BOOT_COUNT, 0, 0, r.boot), (TRIP_LAST.SOURCE, 0, 0, r.source), (TRIP_LAST.SITE, 0, 0, r.site % 128),
        (TRIP_LAST.TEMP, 0, 0, unsignedOf 16 r.temp)]
    | none => []
  (s1.setFlds ((BOOT_STAGE.BOOT_COUNT, 0, 0, n) :: t)).showNv

/-- A die whose identity fails (R276): DIE_ID_BAD with its strap and fused site, which a tile die's registers show. -/
def State.idFails (s : State) : List BadUnit → State
  | [] => s
  | u :: us =>
    State.idFails (if (u.kind = 1 ∨ u.kind = 12) ∧ u.cause = 1 then
        (if u.site < 72 then
          ((s.setFld DIE_ID.STRAP u.site 0 u.d0).loadFld DIE_ID.SITE u.site 0 u.d1).loadFld MIL_ID.SITE u.site 0 u.d1
        else s).raise .DIE_ID_BAD (72 + s.hb.active) uHatband [(1, u.d0), (1, u.d1)]
      else s) us

/-- The fields loaded from the fuses of the sites (R7). -/
def State.fuseFields (s : State) : List (Fld × Nat × Nat × Nat) :=
  (List.range 72).flatMap (fun e =>
    let x := s.dieFuse e
    [(DIE_ID.PKG_SERIAL, e, 0, x.serial), (DIE_ID.STEP, e, 0, x.step), (DIE_ID.SITE, e, 0, x.site),
     (MIL_ID.STEP, e, 0, x.step), (MIL_ID.SITE, e, 0, x.site)])

/-- Straps, identity and the VMESH domain of every site (R292 steps 3 and 4). -/
def cardFields (bad : List BadUnit) : List (Fld × Nat × Nat × Nat) :=
  (List.range 72).flatMap (fun e =>
    let ok := !bad.any (fun u => u.kind == 1 && u.site == e)
    [(DIE_ID.STRAP, e, 0, e), (DIE_ID.ID_OK, e, 0, if bad.any (fun u => u.kind == 1 && u.site == e && u.cause == 1) then 0 else 1),
     (DOM_STAT.PHASES, e, 0, 0xC0), (CLK_STAT.LOCK, e, 0, if ok then 1 else 0)])

/-- CARDING_DONE (R292, R276, R387, R391, R395). `fwOk`: BD0 has verified firmware as far as the delivered images go. -/
def execCardingDone (fwOk refclkOk pllOk standbyOk : Bool) (bad : List BadUnit) (s : State) : Host.Outcome State Fault Refusal :=
  .next (if s.inStage 1 then
      let s1 := s.cardLoad
      let a := s1.nv.active
      let b := 1 - a
      let s2 := if s1.slotVerifies a 0 then s1
        else s1.imgRefused (Tbl.at (s1.slot a).images 0 []) a 0 (s1.verifyImage (Tbl.at (s1.slot a).images 0 []) 0)
      let s3 := if s1.slotVerifies a 1 then s2
        else s2.imgRefused (Tbl.at (s1.slot a).images 1 []) a 1 (s1.verifyImage (Tbl.at (s1.slot a).images 1 []) 1)
      let useA := s1.slotBoots a
      let useB := s1.slotStandsIn b && s1.slotBoots b
      let s4 : State := { s3 with boot := { s3.boot with fwSlot := if useA then a else b } }
      let noStandby := !standbyOk && !bad.any (fun u => u.kind == 12 && u.site == 74)
      let extra : List BadUnit := if noStandby then
          [{ kind := 12, cause := [1, 2, 15].getD (s4.freeVal % 3) 1, site := 74, core := 0xFF, index := 2 }] else []
      let all := bad ++ extra
      let s5 := (((s4.draw.loadFlds s4.fuseFields).setFlds (cardFields all)).idFails all).markUnits all
      if !(fwOk && refclkOk && pllOk && (useA || useB)) then s5.stageFail 1 .integrity 0 all
      else s5.stagePass 1 0 0 all
    else s)

/-! ## Batting (R293) -/

/-- BATTING_FLOW_TIMEOUT (R293 step 1): 200 ms of Batting have passed with less than 2.0 L/min. -/
def execBattingFlowTimeout (flow : Nat) (s : State) : Host.Outcome State Fault Refusal :=
  .next (if s.inStage 2 ∧ flow < 2000 then
      let u : BadUnit := { kind := 16, cause := 0x10, site := 0xFF, core := 0xFF, index := 0, d0 := flow }
      (s.markUnit u).stageFail 2 .noResource 0 [u]
    else s)

/-- The domain of a phase entry. -/
def phaseDomain (u : BadUnit) : Domain := { site := u.site, code := u.sub, core := if u.sub = 0 then u.core else 0 }

/-- Phases found bad are shed (R293). -/
def State.shedBad (s : State) : List BadUnit → State
  | [] => s
  | u :: us =>
    State.shedBad (if u.kind = 10 then
        let d := phaseDomain u
        let s1 := s.setDom d { s.dom d with lost := addOnce (s.dom d).lost u.index }
        if u.site < 72 then
          let s2 := s1.addFld DOM_STAT.SHEDS u.site 0 1
          if u.sub = 0 then s2.setFld CORE_PWR_STAT.PHASES u.site u.core (s2.fld CORE_PWR_STAT.PHASES u.site u.core &&& (0xF - 2 ^ (u.index % 4)))
          else s2.setFld DOM_STAT.PHASES u.site 0 (s2.fld DOM_STAT.PHASES u.site 0 &&& (0xFF - 2 ^ ((2 * u.sub - 2 + u.index % 2) % 8)))
        else s1
      else s) us

/-- The phases of the tile domains, all of them good before they are driven (R293 step 3). -/
def battPhases : List (Fld × Nat × Nat × Nat) :=
  (List.range 72).flatMap (fun e => (DOM_STAT.PHASES, e, 0, 0xFF) :: (List.range 4).map (fun n => (CORE_PWR_STAT.PHASES, e, n, 0xF)))

/-- The cores whose VCORE domain has not failed are on, the others off (R293). -/
def State.battCores (s : State) : List (Fld × Nat × Nat × Nat) :=
  (List.range 288).flatMap (fun c =>
    let on := decide (s.badPhases (siteOf c) (coreNo c) < 2)
    [(CORE_PWR_STAT.STATE, siteOf c, coreNo c, if on then 0 else 2), (CORE_PWR_STAT.VS_GOOD, siteOf c, coreNo c, if on then 8 else 0)])

/-- Sites with a VSRAM, VDRAM or VMESH domain that does not reach regulation, all its phases bad (R293); the voltage reached is
measured (free). -/
def State.railSites (s : State) : List BadUnit :=
  (List.range 72).flatMap (fun e => if s.markedBad 1 e 0xFF 0 then [] else
    (([1, 2, 3, 4].filter (fun code => decide (domPhases code ≤ (s.dom { site := e, code := code }).lost.length))).take 1).map
      (fun code => { kind := 1, cause := 3, site := e, core := 0xFF, index := 0, d0 := code, d1 := s.freeAt e % 2 ^ 32 }))

/-- Cores that a second failed phase marks bad (R293). -/
def State.phaseCores (s : State) : List BadUnit :=
  ((List.range 288).filter (fun c => decide (2 ≤ s.badPhases (siteOf c) (coreNo c)) && !s.markedBad 2 (siteOf c) (coreNo c) 0)).map
    (fun c => { kind := 2, cause := 4, site := siteOf c, core := coreNo c, index := 0 })

/-- Bricks found bad. -/
def badBricks (bricks : Nat) : List BadUnit :=
  ((List.range 5).filter (fun b => !bricks.testBit b)).map (fun b => { kind := 11, cause := 0x08, site := 0xFF, core := 0xFF, index := b })

/-- No domain is switching on any longer. -/
def State.rampsEnd (s : State) : State := { s with doms := s.doms.map (fun x => (x.1, { x.2 with ramp := 0 })) }

/-- BATTING_DONE (R293). -/
def execBattingDone (bricks : BitVec 5) (bad : List BadUnit) (s : State) : Host.Outcome State Fault Refusal :=
  .next (if s.inStage 2 then
      let n := popCount 5 bricks.toNat
      let all := badBricks bricks.toNat ++ bad
      let s1 := (s.setFld PWR_MEAS.BRICKS 0 0 bricks.toNat).setFld THERM_LIMITS.BRICK_W 0 0 (brickLimit n)
      if n < 4 then (s1.markUnits (badBricks bricks.toNat)).stageFail 2 .noResource 0 (badBricks bricks.toNat)
      else
        let s2 := ((s1.rampsEnd.setFlds battPhases).shedBad bad).markUnits all
        let new := s2.phaseCores ++ s2.railSites
        (((s2.draw 72).setFlds s2.battCores).markUnits new).stagePass 2 0 0 (all ++ new)
    else s)

/-! ## Fulling (R294, R295) -/

/-- The DRAM of some tile is above 85 °C, so that the retention screen is skipped there (R294). -/
def State.tooHot (s : State) : Bool :=
  (List.range 72).any (fun e => match s.dramTemp e with
    | some t => decide (85 * 16 < t)
    | none => false)

/-- RETENTION_HOLD_END (R294 step 6). -/
def execRetentionHoldEnd (s : State) : Host.Outcome State Fault Refusal :=
  .next (if s.inStage 3 then { s with boot := { s.boot with holdDone := true, skipped := s.tooHot } } else s)

/-- Beat columns of a bank with failing beats in 4 or more rows: mapped as columns (R295). -/
def bankCols (b : BankTest) : List Nat :=
  ((b.beats.map (·.2)).eraseDups).filter (fun c => decide (4 ≤ (((b.beats.filter (fun x => x.2 == c)).map (·.1)).eraseDups).length))

/-- Rows of a bank with a failing beat that no mapped column covers (R295). -/
def bankRows (b : BankTest) : List Nat := ((b.beats.filter (fun x => !(bankCols b).contains x.2)).map (·.1)).eraseDups

/-- A bank repaired (R295): its rows and columns mapped, each repair that fails again taking a further spare, and a REPAIRED
entry; or, with too few spares, its channel marked bad for MEMTEST (where the first failing beat lies in the slice is free, no
logical channel being mapped yet). -/
def State.repairBank (s : State) (b : BankTest) : State × BadUnit :=
  let c := coreKey b.site b.core
  let x := s.chan c b.chan
  let ra := b.rowsAgain.filter (bankRows b).contains
  let ca := b.colsAgain.filter (bankCols b).contains
  if x.rowsLeft b.bank < (bankRows b).length + ra.length ∨ x.colsLeft b.bank < (bankCols b).length + ca.length then
    let u : BadUnit := { kind := 4, cause := 6, site := b.site, core := b.core, index := b.chan, d0 := b.beats.length, d1 := s.freeVal % 2 ^ 30 }
    ((s.draw).markUnit u, u)
  else
    let u : BadUnit := { kind := 5, cause := 7, site := b.site, core := b.core, index := b.chan, sub := b.bank, d0 := (bankRows b).length,
                         d1 := (bankCols b).length }
    ((s.setChan c b.chan { x with
      rowSoft := x.rowSoft ++ (bankRows b).map (fun r => (b.bank, r)), colSoft := x.colSoft ++ (bankCols b).map (fun k => (b.bank, k)),
      rowDead := x.rowDead ++ ra.map (fun _ => b.bank), colDead := x.colDead ++ ca.map (fun _ => b.bank), tested := true }).markUnit u, u)

/-- Banks repaired one after another, with their entries. -/
def State.repairBanks (s : State) : List BankTest → State × List BadUnit
  | [] => (s, [])
  | b :: bs =>
    let r := s.repairBank b
    let t := State.repairBanks r.1 bs
    (t.1, r.2 :: t.2)

/-- A cause for a unit that is bad through its parts: TRAIN, MEMTEST or BIST, free (log 125). -/
def partCause (free : Nat) : Nat := [5, 6, 8].getD (free % 3) 8

/-- Cores that R295 marks bad for their channels, arrays or SRAM. -/
def State.lostCores (s : State) : List BadUnit :=
  ((List.range 288).filter (fun c => s.coreBad (siteOf c) (coreNo c) && !s.markedBad 2 (siteOf c) (coreNo c) 0)).map
    (fun c => { kind := 2, cause := partCause (s.freeAt c), site := siteOf c, core := coreNo c, index := 0 })

/-- Sites that R295 marks bad for their milliner, or for want of a good core. -/
def State.lostSites (s : State) : List BadUnit :=
  ((List.range 72).filter (fun e => s.siteBad e && !s.markedBad 1 e 0xFF 0)).map
    (fun e => { kind := 1, cause := partCause (s.freeAt e), site := e, core := 0xFF, index := 0 })

/-- The cores, then the sites, that what has been found marks bad, with their entries. -/
def State.markLost (s : State) : State × List BadUnit :=
  let s1 := (s.draw 288).markUnits s.lostCores
  let s2 := (s1.draw 72).markUnits s1.lostSites
  (s2, s.lostCores ++ s1.lostSites)

/-- The memory of good channels and every SRAM hold zero (R294). -/
def State.fullClear (s : State) : State :=
  let badCh := (s.boot.bad.filter (fun u => u.kind == 4)).map (fun u => chKey (coreKey u.site u.core) u.index)
  let gone : Nat → Bool := fun k => decide (k < 2 ^ 41) && (decide (2 ^ 40 ≤ k) || !badCh.contains (k / 2 ^ 26))
  { s with mem := Tbl.dropKeys s.mem gone, marks := Tbl.dropKeys s.marks gone, lost := [] }

/-! ## The conformateur record (R304, R305) -/

/-- A TLV. -/
def tlvBytes (typ : Nat) (v : List Byte) : List Byte :=
  leBytes 2 typ ++ leBytes 2 v.length ++ v ++ List.replicate ((4 - v.length % 4) % 4) 0

/-- Bits of a predicate over `n` numbers. -/
def maskOf (n : Nat) (p : Nat → Bool) : Nat := ((List.range n).filter p).foldl (fun a k => a + 2 ^ k) 0

/-- The SITE entry of a site. -/
def State.recSite (s : State) (e : Nat) : List Byte :=
  let bit : Bool → Nat := fun b => if b then 1 else 0
  tlvBytes 1 (leBytes 1 e ++ leBytes 1 (bit (s.siteBad e)) ++ leBytes 1 (s.fld DIE_ID.STEP e 0) ++
    leBytes 1 (bit (!s.markedBad 14 e 0xFF 0) + 2 * bit (!s.sensorRetired e 16)) ++
    leBytes 2 (maskOf 16 (s.sensorRetired e)) ++ leBytes 1 (maskOf 2 (fun k => !s.sensorRetired e (17 + k))) ++ [0])

/-- The CORE entry of a core. -/
def State.recCore (s : State) (c : Nat) : List Byte :=
  let e := siteOf c
  let n := coreNo c
  let mine := s.boot.notes.filter (fun u => u.site == e && u.core == n)
  let words := ((mine.filter (fun u => u.kind == 6 && u.cause == 7)).map (·.d0)).foldl (· + ·) 0
  tlvBytes 2 (leBytes 1 e ++ leBytes 1 n ++ leBytes 1 (if s.coreBad e n then 1 else 0) ++ leBytes 1 (maskOf 5 (s.arrayGood e n)) ++
    leBytes 3 (maskOf 17 (s.chanGood e n)) ++ leBytes 1 (s.fld CORE_PWR_STAT.PHASES e n) ++ leBytes 2 words ++
    leBytes 1 (if mine.any (fun u => u.kind == 2 && u.cause == 0x0C) then 1 else 0) ++ [0])

/-- The REPAIR entries of a channel. -/
def recChan (k : Nat) (x : Chan) : List Byte :=
  let c := k / 17
  let ent : Nat → Nat × Nat → List Byte := fun kind p =>
    leBytes 1 (siteOf c) ++ leBytes 1 (64 * coreNo c + kind) ++ leBytes 1 (k % 17) ++ leBytes 1 p.1 ++ leBytes 2 p.2 ++ [0, 0]
  x.rowSoft.flatMap (ent 0) ++ x.colSoft.flatMap (ent 1) ++ x.rowFuse.flatMap (ent 2) ++ x.colFuse.flatMap (ent 3)

/-- The MESH entries of an endpoint. -/
def State.recMesh (s : State) (e : Nat) : List Byte :=
  (List.range (linkCount e)).flatMap (fun d =>
    let p := linkPeer e d
    leBytes 1 e ++ leBytes 1 d ++ leBytes 1 (s.fld MESH_LINK.TX_WIDTH e d) ++ leBytes 1 (sparesUsed (s.meshEnd p.1 p.2).bad))

/-- The BLPORT entry of a port; its worst bit-error rate is measured (free). -/
def State.recPort (s : State) (p : Nat) : List Byte :=
  tlvBytes 5 (leBytes 1 p ++ leBytes 1 (s.portState p) ++ leBytes 1 (s.fld PORT_STAT.WIDTH 0 p) ++
    leBytes 1 (if s.portState p = portDown then 0 else 1) ++ leBytes 3 (s.fld PORT_STAT.LANE_FAIL 0 p) ++ [0] ++ leBytes 4 (s.freeAt p))

/-- The POWER entries of an endpoint's shared domains. -/
def State.recPower (s : State) (e : Nat) : List Byte :=
  (if e < 72 then [1, 2, 3, 4] else [5, 6, 7]).flatMap (fun code =>
    let lost := (s.dom { site := e, code := code }).lost
    leBytes 1 e ++ leBytes 1 code ++ leBytes 1 (maskOf (domPhases code) (fun p => !lost.contains p)) ++ [0])

/-- The record's TLVs. -/
def State.recBody (s : State) : List Byte :=
  (List.range 72).flatMap s.recSite ++ (List.range 288).flatMap s.recCore ++
  tlvBytes 3 (s.chans.flatMap (fun x => recChan x.1 x.2)) ++ tlvBytes 4 ((List.range 76).flatMap s.recMesh) ++
  (List.range 16).flatMap s.recPort ++
  tlvBytes 6 (leBytes 1 (s.fld PWR_MEAS.BRICKS 0 0) ++ [0, 0, 0] ++ (List.range 76).flatMap s.recPower) ++
  (List.range 4).flatMap (fun n => tlvBytes 7 (leBytes 1 n ++ leBytes 1 (if s.markedBad 12 (72 + n) 0xFF n then 1 else 0) ++
    leBytes 1 (if n % 2 = 1 then 0 else if s.markedBad 12 (72 + n) 0xFF n then 2 else 1) ++ [0])) ++
  tlvBytes 8 (leBytes 1 (if (List.range 72).any (fun e => s.dieLevel e == 1) then 1 else 2) ++ [0, 0, 0])

/-- The record formed from what bring-up has found so far. -/
def State.formRecord (s : State) : State :=
  let b := s.recBody
  let h := leBytes 4 0x4B434F52 ++ leBytes 2 1 ++ [0, 0] ++ leBytes 8 s.serial ++ leBytes 4 (s.fld BOOT_STAGE.BOOT_COUNT 0 0) ++
    leBytes 4 (32 + b.length) ++ leBytes 4 (crc32c b) ++ [0, 0, 0, 0]
  let s1 := s.draw 16
  { s1 with boot := { s1.boot with record := h ++ b } }

/-- The same unit, whatever its cause. -/
def sameUnit (u v : BadUnit) : Bool := u.kind == v.kind && u.site == v.site && u.core == v.core && u.index == v.index && u.sub == v.sub

/-- The record of the bring-up is final: flash takes it where its content differs (R304). -/
def State.keepRecord (s : State) : State :=
  if s.boot.record.drop 32 = s.nv.lastRecord.drop 32 then s
  else
    let new := s.boot.bad.filter (fun u => !s.nv.lastBad.any (sameUnit u))
    let gone := s.nv.lastBad.filter (fun u => !s.boot.bad.any (sameUnit u))
    let s1 : State := { s with nv := { s.nv with lastRecord := s.boot.record, lastBad := s.boot.bad } }
    s1.raise .RECORD_CHANGED (72 + s.hb.active) uHatband [(4, new.length), (4, gone.length)]

/-- The images of TYPE 2 and 3 of the slot in use (R392 step 3, R393). -/
def State.checkRuntime (s : State) (typ : Nat) : State :=
  match Tbl.find (s.slot s.boot.fwSlot).images typ with
  | some l =>
    if s.verifyImage l typ = 0 then s
    else
      let s1 := s.imgRefused l s.boot.fwSlot typ (s.verifyImage l typ)
      ({ s1 with boot := { s1.boot with noRuntime := true } } : State).trialFails 1
  | none => { s with boot := { s.boot with noRuntime := true } }

/-- FULLING_DONE (R294, R295, R304). -/
def execFullingDone (pathLost : Bool) (bad : FullFound) (s : State) : Host.Outcome State Fault Refusal :=
  .next (if s.inStage 3 then
      let r := (s.markUnits bad.units).repairBanks (bad.banks.filter (fun b => b.beats != []))
      let l := r.1.markLost
      let all := bad.units ++ r.2 ++ l.2
      if pathLost then l.1.stageFail 3 .integrity 0 all
      else
        let s2 := ((l.1.fullClear.checkRuntime 2).checkRuntime 3).formRecord
        s2.stagePass 3 (if s.boot.holdDone && !s.boot.skipped then 0 else 4) 0 all
    else s)

/-! ## Blocking (R296-R298) -/

/-- A TDI in CONFIG_LOCKED or RUN goes to ERROR, and its E2E key ends (R408, R409). -/
def State.tdiError (s : State) (f cause : Nat) : State :=
  match Tbl.find s.sec.ide f with
  | some x =>
    if x.tdi = 1 ∨ x.tdi = 2 then
      let s1 : State := { s with sec := { s.sec with ide := Tbl.set s.sec.ide f { x with tdi := 3 } } }
      (s1.setFn f { s1.fn f with e2eKey := none, lastIv := none }).raise .TDI_ERROR 72 uBrim [(1, f), (1, cause)]
    else s
  | none => s

/-- TDIs of several functions. -/
def State.tdiErrors (s : State) (cause : Nat) : List Nat → State
  | [] => s
  | f :: fs => State.tdiErrors (s.tdiError f cause) cause fs

/-- UNIT_SUBST and its informative entries (R297, R311). -/
def State.subst (s : State) : List Subst → State
  | [] => s
  | x :: xs =>
    let u : BadUnit := { kind := x.kind, cause := 0x0D, site := x.site, core := x.core, index := x.old, d0 := x.old, d1 := x.new }
    State.subst ((s.markUnit u).raise .UNIT_SUBST (72 + s.hb.active) uHatband
      [(1, x.site), (1, x.core), (1, x.kind), (1, x.old), (1, x.new)]) xs

/-- The entries a list of substitutions puts in the report. -/
def substEntries (l : List Subst) : List BadUnit :=
  l.map (fun x => { kind := x.kind, cause := 0x0D, site := x.site, core := x.core, index := x.old, d0 := x.old, d1 := x.new })

/-- Spares that are bad are out of service (R291): the spare channel of a core, and its spare array. -/
def State.badSpares (s : State) : List Nat → State
  | [] => s
  | c :: cs =>
    let e := siteOf c
    let n := coreNo c
    let s1 := if s.fld DRAM_CH_STAT.ROLE c 16 = roleSpare ∧ !s.chanGood e n 16 then s.setFld DRAM_CH_STAT.ROLE c 16 roleOut else s
    let sp := s1.fld ARRAY_MAP.SPARE c 0
    State.badSpares (if sp < 5 ∧ !s1.arrayGood e n sp then s1.setFld ARRAY_MAP.SPARE c 0 7 else s1) cs

/-- Current limits of cores shown. -/
def State.showIlims (s : State) : List Nat → State
  | [] => s
  | c :: cs => State.showIlims (s.showIlim c) cs

/-- Ports whose role is DISABLED powered down (R235). -/
def State.dropDisabled (s : State) : State := s.portsDown ((List.range 16).filter (fun p => s.fld PORT_CFG.ROLE 0 p == 0))

/-- An image that passed checks 1 to 6 is applied (R298); a site that stops answering undoes it and is marked bad. -/
def State.block (s : State) (slot : Nat) (l : List Byte) (g : Image) (subs : List Subst) (tried : List BadUnit) (silent : Option Nat) :
    State :=
  match silent with
  | some e =>
    let u : BadUnit := { kind := 1, cause := 0x0E, site := e, core := 0xFF, index := 0 }
    (s.markUnit u).stageFail 4 .integrity 0xFF (tried ++ [u])
  | none =>
    let s1 := (s.applyImage g).subst subs
    let s2 := ((s1.badSpares s1.enabledCores).showIlims s1.enabledCores).setFld BOOT_STAGE.SLOT 0 0 slot
    let s3 : State := { s2 with
      sec := { s2.sec with layout := imgDigest l },
      boot := { s2.boot with imgSlot := slot } }
    ((s3.tdiErrors 1 (List.range 32)).dropDisabled).stagePass 4 0 slot (tried ++ substEntries subs)

/-- The IMAGE entry of a slot tried: check 0 where its image passed (R296). -/
def imageEntry (slot check off : Nat) : BadUnit :=
  { kind := 15, cause := 0x0F, site := 0xFF, core := 0xFF, index := slot, d0 := check, d1 := off }

/-- A slot's image has failed: IMG_REFUSED where R391 rejects it, and its entry. -/
def State.imageFails (s : State) (slot check off : Nat) (l : List Byte) : State :=
  (if check = 1 then s.imgRefused l slot 4 (s.verifyImage l 4) else s).markUnit (imageEntry slot check off)

/-- BLOCKING_DONE (R296-R298, R395). -/
def execBlockingDone (silent : Option Nat) (s : State) : Host.Outcome State Fault Refusal :=
  .next (if s.inStage 4 then
      let a := s.nv.active
      let b := 1 - a
      let la := Tbl.at (s.slot a).images 4 []
      let lb := Tbl.at (s.slot b).images 4 []
      match s.checkImage la with
      | .good g subs => s.block a la g subs [imageEntry a 0 0] silent
      | .bad k off st =>
        let s1 := s.imageFails a k off la
        if !s.slotStandsIn b then s1.stageFail 4 st 0xFF [imageEntry a k off]
        else
          let s2 := s1.raise .IMAGE_FALLBACK (72 + s.hb.active) uHatband [(1, a), (1, st.code), (1, k)]
          match s.checkImage lb with
          | .good g subs => s2.block b lb g subs [imageEntry a k off, imageEntry b 0 0] silent
          | .bad k2 off2 _ =>
            (s2.imageFails b k2 off2 lb).stageFail 4 st 0xFF [imageEntry a k off, imageEntry b k2 off2]
    else s)

/-! ## Sizing (R299) -/

/-- A cause for a fence whose cause number the manual does not state: one of the hardware causes, free. -/
def freeCause (free : Nat) : Nat := 2 + free % 7

/-- Sites whose diode is broken, as entries (R299). -/
def diodeSites (bad : List BadUnit) : List BadUnit :=
  (bad.filter (fun u => u.kind == 13 && u.index == 16 && decide (u.site < 72))).map (fun u => { u with kind := 1, index := 0 })

/-- Monitors and diodes found broken (R299, R354); the cause byte of a monitor Sizing finds broken is none that R354 lists (free). The site of a broken diode is bad and its tile fenced (R300). -/
def State.retire (s : State) : List BadUnit → State
  | [] => s
  | u :: us =>
    State.retire (if u.kind = 13 ∧ u.site < 76 ∧ u.index < 17 then
        let s0 := s.draw 2
        let s1 : State := { s0 with therm := { s0.therm with retired := addOnce s0.therm.retired (sensorKey u.site u.index) } }
        let s2 := if u.site < 72 ∧ u.index < 16 then
            s1.setFld THERM_STAT.BROKEN u.site 0 (s1.fld THERM_STAT.BROKEN u.site 0 ||| 2 ^ u.index) else s1
        let s3 := s2.raise .SENSOR_BROKEN u.site (endUnit u.site) [(1, u.index), (1, s.freeAt 1 % 256)]
        if u.index = 16 ∧ u.site < 72 then
          let v : BadUnit := { u with kind := 1, index := 0 }
          let s4 := s3.markUnit v
          if (s4.ltileOf u.site).isSome then s4.fenceTile u.site (freeCause s.freeVal) else s4
        else s3
      else s) us

/-- SIZING_DONE (R299). -/
def execSizingDone (meterOk diodeOk : Bool) (bad : List BadUnit) (s : State) : Host.Outcome State Fault Refusal :=
  .next (if s.inStage 5 then
      let s1 := (s.markUnits bad).retire bad
      if !(meterOk && diodeOk) then s1.stageFail 5 .integrity 0 bad
      else (s1.formRecord).stagePass 5 0 0 (bad ++ diodeSites bad)
    else s)

/-! ## Finishing (R300, R301, R404) -/

/-- A link that is down and has never been trained, or trains, comes UP over its good wires (R272, R277, R300 step 1); one to a
die held in reset stays DOWN (R276). -/
def State.trainLink (s : State) (e d : Nat) : State :=
  let p := linkPeer e d
  if (s.linkState e d = linkDown ∨ s.linkState e d = linkTraining) ∧ e < p.1 ∧ !s.dieHeld e ∧ !s.dieHeld p.1 then
    let s1 := ((s.endWires e d [] 0).endWires p.1 p.2 [] 0).setLevel e d
    if s1.fld MESH_LINK.RX_WIDTH e d = 0 ∨ s1.fld MESH_LINK.TX_WIDTH e d = 0 then s1.setLinkState e d linkDown
    else s1.setLinkState e d linkUp
  else s

/-- Links trained one after another. -/
def State.trainLinks (s : State) : List (Nat × Nat) → State
  | [] => s
  | (e, d) :: l => State.trainLinks (s.trainLink e d) l

/-- Every link of the mesh, from one of its ends. -/
def allLinks : List (Nat × Nat) := (List.range 72).flatMap (fun e => (List.range 4).map (fun d => (e, d)))

/-- Links that have narrowed or stayed down, as entries. -/
def State.linkEntries (s : State) : List BadUnit :=
  allLinks.filterMap (fun x =>
    let w := s.fld MESH_LINK.RX_WIDTH x.1 x.2
    let wire := ((s.meshEnd x.1 x.2).bad.head?.map (fun q => 32 * q.1 + q.2)).getD 0
    let u : BadUnit := { kind := 7, cause := if w = 0 then 0x0A else 0x09, site := x.1, core := 0xFF, index := x.2, d0 := if w = 0 then (s.meshEnd x.1 x.2).bad.length else w, d1 := wire }
    if w = 3 ∨ s.linkState x.1 x.2 = linkFenced then none else some u)

/-- Brimlink ports that came up narrow or stayed down with failed lanes, as entries (R235, R303). -/
def State.portEntries (s : State) : List BadUnit :=
  (List.range 16).filterMap (fun p =>
    let fail := s.fld PORT_STAT.LANE_FAIL 0 p
    let w := s.fld PORT_STAT.WIDTH 0 p
    let u : BadUnit := { kind := 8, cause := 0x09, site := portSite p, core := 0xFF, index := p, d0 := w, d1 := ((maskBits 17 fail).head?).getD 0 }
    if s.portState p = portUp ∧ w < 3 then some u
    else if s.portState p = portDown ∧ fail ≠ 0 then some { u with cause := 0x0A, d0 := popCount 17 fail }
    else none)

/-- The fullers of a core that take the microcode (R401): those of channels in service, and the spare channel's two. -/
def State.dmcFullers (s : State) (c : Nat) : List Nat :=
  (List.range 34).filter (fun n => s.fld DRAM_CH_STAT.ROLE c (n / 2) == roleInService || n / 2 == 16)

/-- Microcode put in the region of a core's fullers, their DMEM cleared (R403); a fenced fuller takes none. -/
def State.loadMicro (s : State) (c : Nat) (body : List Byte) : List Nat → State
  | [] => s
  | n :: ns =>
    State.loadMicro (if s.fld FUL_STAT.FENCED c n = 1 then s
      else
        let k := fulByte c n 0
        let m := memPutBytes (memClear s.mem k (k + 0x2000)) k body
        { s with mem := memClear m (fulByte c n 0x4000) (fulByte c n 0x6000) }) c body ns

/-- Microcode for the cores of enabled tiles that are not fenced. -/
def State.loadMicros (s : State) (body : List Byte) : List Nat → State
  | [] => s
  | c :: cs => State.loadMicros (if s.coreFenced c then s else s.loadMicro c body (s.dmcFullers c)) body cs

/-- The upper half of a tile's code region 0 (R401): its DA and length. -/
def State.runtimeDa (s : State) (l : Nat) : Option (Nat × Nat) :=
  (s.image.regions.find? (fun r => r.ltile == l && r.kind == 3 && r.index == 0)).map (fun r => (r.base + r.len / 2, r.len - r.len / 2))

/-- The tile runtime written and started on tiles that are not fenced (R300 step 3). -/
def State.loadRuntimes (s : State) (body : List Byte) : List TileEntry → State
  | [] => s
  | t :: ts =>
    State.loadRuntimes (if s.fld RESET_STAT.TILE_CAUSE t.site 0 ≠ 0 then s
      else match s.runtimeDa t.ltile with
        | some (da, n) => ((s.daWrite .hatband da (body.take n)).st).startMil t.site
        | none => s.startMil t.site) body ts

/-- Milliners of tiles held in reset (R393). -/
def State.holdMils (s : State) : List TileEntry → State
  | [] => s
  | t :: ts => State.holdMils (s.holdMil t.site) ts

/-- DIST_STAT and DIST_RESULT of a distribution (R403, R413): outcome 0 committed, 1 aborted. -/
def State.distResult (s : State) (typ targets good bad rounds outcome : Nat) : State :=
  (s.setFlds [(DIST_STAT.TARGETS, 0, 0, targets), (DIST_STAT.GOOD, 0, 0, good), (DIST_STAT.BAD, 0, 0, min 255 bad),
    (DIST_STAT.ROUND, 0, 0, rounds), (DIST_STAT.PHASE, 0, 0, if outcome = 0 then 6 else 5), (DIST_STAT.TYPE, 0, 0, typ)]).raise
    .DIST_RESULT (72 + s.hb.active) uHatband [(1, typ), (2, targets), (2, good), (1, min 255 bad), (1, rounds), (1, outcome)]

/-- Distribution in Finishing (R404): every target that is not fenced takes the image. -/
def State.distribute (s : State) : State :=
  if s.boot.noRuntime then s.holdMils s.image.tiles
  else
    let x := s.slot s.boot.fwSlot
    let rt := Tbl.at x.images 2 []
    let mc := Tbl.at x.images 3 []
    let cs := s.enabledCores
    let fulT := (cs.map (fun c => (s.dmcFullers c).length)).foldl (· + ·) 0
    let fulG := (cs.map (fun c => if s.coreFenced c then 0
      else ((s.dmcFullers c).filter (fun n => s.fld FUL_STAT.FENCED c n == 0)).length)).foldl (· + ·) 0
    let milG := (s.image.tiles.filter (fun t => s.fld RESET_STAT.TILE_CAUSE t.site 0 == 0)).length
    let s1 := (s.loadMicros (imgBody mc) cs).distResult 3 fulT fulG (fulT - fulG) 0 0
    let s2 := (s1.loadRuntimes (imgBody rt) s.image.tiles).distResult 2 s.image.tiles.length milG (s.image.tiles.length - milG) 0 0
    { s2 with sec := { s2.sec with loaded := Tbl.set (Tbl.set s2.sec.loaded 2 (imgDigest rt)) 3 (imgDigest mc) } }

/-- Counters burned up to the SVNs of a slot's images (R397 step 2). -/
def State.burnSvn (s : State) (k : Nat) : State :=
  let svn := (List.range 4).map (fun t => match Tbl.find (s.slot k).images t with
    | some l => max (s.nv.svn.getD t 0) (min 64 (imgSvn l))
    | none => s.nv.svn.getD t 0)
  { s with nv := { s.nv with svn := svn } }

/-- Steps 2 and 3 of R397: the counters burned, the slot GOOD. -/
def State.makeGood (s : State) (k : Nat) : State :=
  let s1 := (s.burnSvn k).setSlot k { s.slot k with state := 4 }
  let s2 : State := { s1 with nv := { s1.nv with tries := 0, revert := none } }
  s2.showNv.raise .UPD_CONFIRMED (72 + s.hb.active) uHatband
    ((1, k) :: (List.range 4).flatMap (fun t => [(1, s.nv.svn.getD t 0), (1, s2.nv.svn.getD t 0)]))

/-- The K72 enters READY, or DEGRADED where a partition carries DEG (R300). -/
def State.enterReady (s : State) : State :=
  if s.hb.stage = 6 ∧ s.boot.linkTurn then
    let es := s.linkEntries ++ s.portEntries
    let s0 : State := { s with boot := { s.boot with linkTurn := false } }
    let s1 := s0.stagePass 6 0 0 es
    (s1.draw.setFld BOOT_TIME.TOTAL_US 0 0 s1.freeVal).refreshDeg
  else s

/-- A Brimlink port still trains or qualifies: Finishing waits for it (R235). -/
def State.portsBusy (s : State) : Bool :=
  (List.range 16).any (fun p => s.portState p == portTraining || s.portState p == portQualifying)

/-- FINISHING_DONE (R300, R301): steps 1 to 3 have ended; READY at once where PERST# is asserted, else the link trains. -/
def execFinishingDone (s : State) : Host.Outcome State Fault Refusal :=
  .next (if s.inStage 6 ∧ !s.portsBusy then
      let s1 := s.trainLinks allLinks
      let cut := (List.range 72).filter (fun e => !s1.reachable.contains e)
      let s2 := (s1.unreachEach cut).markUnits (s1.linkEntries ++ s1.portEntries)
      let s3 := s2.distribute.refreshDeg
      let a := s3.nv.active
      let s4 := if (s3.slot a).state = 3 then s3.makeGood a else s3
      let s5 := s4.formRecord.keepRecord
      let s6 : State := { s5 with boot := { s5.boot with linkTurn := true } }
      if s6.pcie.perst then s6.enterReady else { s6 with pcie := { s6.pcie with training := true } }
    else s)

/-- LINK_TRAIN_TIMEOUT (R301). -/
def execLinkTrainTimeout (s : State) : Host.Outcome State Fault Refusal := .next s.enterReady

/-! ## Restarting (R309) -/

/-- A RESTART is acted on. -/
def State.mayRestart (s : State) : Bool :=
  s.hb.halted || s.boot.failed || s.boot.stopped || !s.parts.any (fun x => x.2.state == 1 || x.2.state == 2)

/-- A write of HB.BOOT_CTL. -/
def State.bootCtl (s : State) (val : Nat) : State :=
  let s1 := s.setFld BOOT_CTL.STOP_AFTER 0 0 (bitsOf val 3 1)
  if val % 2 = 0 ∨ !s.supply.on ∨ s.boot.restarting then s1
  else if s.mayRestart then
    let s2 := (((s1.tilesLost.portsDown (List.range 16))).setFlds ((List.range 72).map (fun e => (DOM_STAT.PHASES, e, 0, 0))))
    { s2 with boot := { s2.boot with restarting := true } }
  else s1.addFld BOOT_STAGE.SC_COUNT 0 0 1

/-- RESTART (R309): the Hatband, management and PF0 write HB.BOOT_CTL (R23). -/
def execRestart (by_ : Agent) (val : Word) (s : State) : Host.Outcome State Fault Refusal :=
  .next (s.brimGate by_ 0 0x8000010 (fun t => t.bootCtl val.toNat))

/-- The POWER reset of the four brim dies (R7, R309): everything but flash, fuses, pins and STOP_AFTER, with the commands that
wait, what was sent, and the reports. -/
def State.powerReset (s : State) : State :=
  let fused : Tbl Chan := (s.chans.filter (fun x => x.2.rowFuse != [] || x.2.colFuse != [])).map
    (fun x => (x.1, { rowFuse := x.2.rowFuse, colFuse := x.2.colFuse }))
  let sup : Supply := { input := s.supply.input, modEn := s.supply.modEn, on := true, latch := s.supply.latch }
  let p : Pcie := { perst := s.pcie.perst }
  let e : EventState := { flash := s.events.flushFlash.flash }
  let b : Boot := { reports := s.boot.reports }
  let s1 : State := { State.reset with
    pending := s.pending, freeCtr := s.freeCtr, hostOut := s.hostOut, nv := s.nv, supply := sup, chans := fused, events := e,
    boot := b, pcie := p }
  s1.setFld BOOT_CTL.STOP_AFTER 0 0 (s.fld BOOT_CTL.STOP_AFTER 0 0)

/-- RESTART_WAIT_END (R309, R331). -/
def execRestartWaitEnd (s : State) : Host.Outcome State Fault Refusal :=
  .next (if s.boot.restarting ∧ s.supply.on ∧ !s.supply.powerDown then s.powerReset.trialStart else s)

/-! ## Re-blocking (R324, R310) -/

/-- Cores whose power a re-block takes away: what they hold is gone. -/
def State.wipeCores (s : State) : List Nat → State
  | [] => s
  | c :: cs =>
    let gone : Nat → Bool := fun k => (decide (k < 2 ^ 40) && k / 2 ^ 26 / 17 == c) || (inRange (2 ^ 40) (2 ^ 41) k && (k - 2 ^ 40) / 2 ^ 23 == c) ||
      (decide (2 ^ 41 ≤ k) && (k - 2 ^ 41) / 2 ^ 15 / 34 == c)
    let s1 : State := { s with
      mem := Tbl.dropKeys s.mem gone,
      marks := Tbl.dropKeys s.marks gone,
      swaps := Tbl.del s.swaps c,
      lost := s.lost.filter (fun x => x / 16 != c) }
    State.wipeCores (s1.coreReset c) cs

/-- A site loses the power of its domains other than VMESH (R324 step 2). -/
def State.sitePowerOff (s : State) (site : Nat) : State :=
  let cs := (List.range 4).map (coreKey site)
  let s1 := (s.tileReset site).wipeCores cs
  { s1.coresOff cs with repairs := Tbl.del s1.repairs site, resets := Tbl.del s1.resets site }

/-- The old sites of a re-block fenced, their firewall entries V = 0, and powered down (R324 step 2). -/
def State.retireSites (s : State) : List Nat → State
  | [] => s
  | e :: es =>
    let s1 := s.fenceTile e causeHost
    let s2 := match s.ltileOf e with
      | some l => s1.setFlds ((List.range 76).map (fun r => (FW_MAP.V (l % 16), r, l / 16, 0)))
      | none => s1
    State.retireSites (s2.sitePowerOff e) es

/-- Functions tied to a partition. -/
def State.fnsOf (s : State) (p : Nat) : List Nat := (List.range 32).filter (fun f => s.fnPt f == some p)

/-- PART_REBLOCK (R324 steps 1 and 2). -/
def execPartReblock (fn sq : Nat) (image : HostRead) (s : State) : Host.Outcome State Fault Refusal :=
  .next (s.hostCmd fn sq 0x0E (fun x =>
    match s.bufGet fn x image with
    | (s1, .error st) => s1.subDone fn x.id st
    | (s1, .ok l) =>
      match s1.checkPartial x.target l with
      | .bad st => (if s1.verifyImage l 4 ≠ 0 then s1.imgRefused l 0xFF 4 (s1.verifyImage l 4) else s1).subDone fn x.id st
      | .good p g subs =>
        let olds := (s1.image.tiles.filter (fun t => p.tiles.contains t.ltile)).map (·.site)
        let news := p.image.tiles.map (fun t => (t.ltile, t.site))
        let r : Reblock := { fn := fn, sub := x.id, olds := olds, news := news, image := g, digest := imgDigest l, whole := p.kind == 2 }
        let s2 := (((s1.subBusy fn x.id).setPartState x.target 4).retireSites olds).tdiErrors 0 (s1.fnsOf x.target)
        ({ s2 with reblocks := Tbl.set s2.reblocks x.target r } : State).subst subs))

/-- Every fence of a site's tile and cores clears (R315: a re-block clears fences of units in its scope). -/
def State.clearFences (s : State) (e : Nat) : State :=
  let s1 := (List.range 4).foldl (fun t n => if t.fld (RESET_STAT.CORE_CAUSE n) e 0 = 0 then t else t.unfenceCore e n) s
  if s1.fld RESET_STAT.TILE_CAUSE e 0 = 0 then s1 else s1.unfenceTile e

/-- The domains of a site that a re-block powers: its VCORE, VSRAM and VDRAM domains. -/
def siteDomains (e : Nat) : List Domain :=
  (List.range 4).map (fun n => { site := e, code := 0, core := n }) ++ [1, 2, 3].map (fun k => { site := e, code := k })

/-- The phases of a domain checked again as it is powered (R310, R336): no longer dark, with no phase shed or with one, as a second
bad one would fail the bring-up; which is free. -/
def State.phaseCheck (s : State) (d : Domain) : State :=
  let k := s.freeVal % (domPhases d.code + 1)
  if k = domPhases d.code then s.draw.setDom d {}
  else (s.draw.setDom d { lost := [k] }).addFld DOM_STAT.SHEDS d.site 0 1

/-- Domains checked one after another. -/
def State.phaseChecks (s : State) : List Domain → State
  | [] => s
  | d :: ds => State.phaseChecks (s.phaseCheck d) ds

/-- What power control held of cores is gone with their power. -/
def State.dropCpws (s : State) (cs : List Nat) : State := { s with cpwr := Tbl.dropKeys s.cpwr cs.contains }

/-- A new site after its bring-up (R310, R336): its domains powered and their phases checked, its memory clear, its fences gone. -/
def State.siteUp (s : State) (g : Image) (e : Nat) : State :=
  let s0 := (s.sitePowerOff e).clearFences e
  let s1 := ((s0.phaseChecks (siteDomains e)).dropCpws ((List.range 4).map (coreKey e)))
  let cores := ((g.tiles.find? (fun t => t.site == e)).map (·.cores)).getD 0
  let phases := maskOf 6 (fun b => !(s1.dom { site := e, code := b / 2 + 1 }).lost.contains (b % 2))
  s1.setFlds ([(DOM_STAT.PHASES, e, 0, putBits (s.fld DOM_STAT.PHASES e 0) 5 0 phases),
      (DOM_STAT.DARK, e, 0, s.fld DOM_STAT.DARK e 0 / 8 * 8)] ++ (List.range 4).flatMap (fun n =>
    [(CORE_PWR_STAT.PHASES, e, n, maskOf 4 (fun p => !(s.dom (vcore (coreKey e n))).lost.contains p)),
     (CORE_PWR_STAT.STATE, e, n, if cores.testBit n then 0 else 2), (CORE_PWR_STAT.VS_GOOD, e, n, 8),
     (CORE_PWR_STAT.VS_FALLBACK, e, n, 0), (CORE_PWR_STAT.RUNG, e, n, 0),
     (CORE_PWR_STAT.DUTY, e, n, 0)]))

/-- New sites brought up one after another. -/
def State.sitesUp (s : State) (g : Image) : List Nat → State
  | [] => s
  | e :: es => State.sitesUp (s.siteUp g e) g es

/-- Milliners started one after another. -/
def State.startMils (s : State) : List Nat → State
  | [] => s
  | e :: es => State.startMils (s.startMil e) es

/-- Host fences of the tiles outside a re-block's scope clear (R324 step 5). -/
def State.hostUnfence (s : State) : List Nat → State
  | [] => s
  | e :: es =>
    let s1 := (List.range 4).foldl (fun t n => if t.fld (RESET_STAT.CORE_CAUSE n) e 0 = causeHost then t.unfenceCore e n else t) s
    State.hostUnfence (if s1.fld RESET_STAT.TILE_CAUSE e 0 = causeHost then s1.unfenceTile e else s1) es

/-- CLEAR_DONE of tiles that pass to another partition (R412); its bring-up has cleared the site, with no mismatch. -/
def State.clearDones (s : State) (p : Nat) : List (Nat × Nat) → State
  | [] => s
  | (l, e) :: xs =>
    State.clearDones (match s.partOfTile l with
      | some q => if q = p then s
          else (s.draw.raise .CLEAR_DONE e uCommon [(1, q), (1, p), (4, s.freeVal % 2 ^ 32), (4, 0)])
      | none => s) p xs

/-- The fields a partition's functions, caps and allow bitmap take from an image (KIND 2). -/
def partFields (g : Image) (p : Nat) : List (Fld × Nat × Nat × Nat) :=
  let own : Image := { parts := g.parts.filter (fun x => x.pt == p), policy := g.policy }
  (List.range 32).flatMap (fun f =>
    let q := (g.parts.find? (fun x => x.fns.testBit f)).map (·.pt)
    [(FN_STAT.PV, f, 0, if q.isSome then 1 else 0), (FN_STAT.PT, f, 0, q.getD 0)]) ++
  own.parts.flatMap (fun x => [(PT_CAP.CEIL, 0, p, x.ceil), (PT_CAP.CAP, 0, p, x.ceil)]) ++
  (g.blAllow.filter (fun a => a.1 == p)).flatMap (fun a =>
    (List.range 4096).map (fun m => (BL_ALLOW.A m, 0, 64 * p + m / 64, if a.2.contains m then 1 else 0)))

/-- E2E keys and IDE streams of functions that change partition are discarded (R412 step 4). -/
def State.dropKeys (s : State) : List Nat → State
  | [] => s
  | f :: fs =>
    let s1 : State := { s with sec := { s.sec with ide := Tbl.del s.sec.ide f } }
    State.dropKeys (s1.setFn f { s1.fn f with e2eKey := none, lastIv := none }) fs

/-- A re-block ends OK: the image, its firewall entries and routes come into force (R324 steps 4 and 5), the new tables reported as
R274's are (R288); no link has failed, so that detail is free. -/
def State.reblockOk (s : State) (p : Nat) (r : Reblock) : State :=
  let g := r.image
  let sites := r.news.map (·.2)
  let before := (List.range 32).map s.fnPt
  let s1 := ((s.clearDones p r.news).sitesUp g sites).loadFlds ((g.tiles.filter (fun t => sites.contains t.site)).flatMap (tileFields g))
  let s2 := s1.loadFlds ((List.range 76).flatMap (fwFields g) ++ g.routes.flatMap routeFields ++ (if r.whole then partFields g p else []))
  let lvl := ((g.parts.find? (fun x => x.pt == p)).map (s2.levelOf g)).getD 0
  let s3 : State := { s2 with
    image := g,
    levels := Tbl.set s2.levels p lvl,
    parts := Tbl.set s2.parts p { s2.part p with fresh := false },
    reblocks := Tbl.del s2.reblocks p,
    sec := { s2.sec with layout := Config.sha512 (leBytes 64 s2.sec.layout.toNat ++ leBytes 64 r.digest.toNat) } }
  let s4 := s3.dropKeys ((List.range 32).filter (fun f => before.getD f none != s3.fnPt f))
  let cs := s4.enabledCores.filter (fun c => sites.contains (siteOf c))
  let s5 := ((s4.badSpares cs).showIlims cs).startMils sites
  let s6 := s5.hostUnfence (((s5.partTiles p).map (·.site)).filter (fun e => !sites.contains e))
  ((s6.draw 2).raise .MESH_REROUTE (72 + s6.hb.active) uHatband [(2, s6.freeVal % 2 ^ 16), (4, s6.freeAt 1 % 51)]).refreshDeg

/-- SITE_BRINGUP_DONE (R310, R324). -/
def execSiteBringupDone (pt status badSite : Nat) (s : State) : Host.Outcome State Fault Refusal :=
  .next (match Tbl.find s.reblocks pt with
    | some r =>
      let st := Status.ofCode status
      let s1 := if st = .ok then s.reblockOk pt r
        else
          let u : BadUnit := { kind := 1, cause := [1, 2, 3, 4, 5, 6, 8, 10, 11, 14].getD (s.freeVal % 10) 1, site := badSite, core := 0xFF, index := 0 }
          ({ s.draw with reblocks := Tbl.del s.reblocks pt } : State).markUnit u
      let s2 := (s1.setPartState pt 0).refreshDeg
      let s3 := s2.raise .REBLOCK_END (72 + s.hb.active) uHatband
        ([(1, st.code)] ++ r.olds.map (fun e => (1, e)) ++ r.news.map (fun x => (1, x.2))) { pt := some pt }
      s3.subDone r.fn r.sub st
    | none => s)

end Sys2Proof.Machine
end

