-- ==== Sys2Proof/Machine/Events.lean ====
section
/-! DEFINITION. Delivery of event records (R380-R383), the standby Hatband and its mirror (R375, R433). -/

namespace Sys2Proof.Machine

/-- CLASS of a record, 1 to 8 (R376). -/
def EvtRec.cls (r : EvtRec) : Nat := r.code / 2 ^ 12

/-- The 32 bytes of a record (R376). -/
def EvtRec.bytes (r : EvtRec) : List Byte :=
  leBytes 2 r.code ++ leBytes 1 r.site ++ leBytes 1 r.ltile ++ leBytes 1 r.unit ++
  leBytes 1 ((if r.pv then 128 else 0) + 16 * (r.pt % 8) + 4 * (r.sev % 4) + (if r.trunc then 2 else 0)) ++
  leBytes 2 r.supp ++ leBytes 8 r.cycle ++ leBytes 4 r.seq ++ (r.detail.map (BitVec.ofNat 8)).take 12 ++
  List.replicate (12 - r.detail.length) 0

/-! ## Function buffers (R381, R382) -/

/-- A function's buffer. -/
def State.evtBuf (s : State) (f : Nat) : FnBuf := Tbl.at s.events.bufs f {}

/-- A function's buffer replaced. -/
def State.setEvtBuf (s : State) (f : Nat) (b : FnBuf) : State := { s with events := { s.events with bufs := Tbl.set s.events.bufs f b } }

/-- RESULT of a notice (R382): the oldest record's CODE, the records held, their highest SEV. -/
def FnBuf.notice (b : FnBuf) : Nat :=
  ((b.recs.head?).map (·.code)).getD 0 + b.recs.length * 2 ^ 16 + (b.recs.map (·.sev)).foldl max 0 * 2 ^ 32

/-- A notice in CQ0 where R382 asks for one; `was` is the buffer before the record. -/
def State.notify (s : State) (f : Nat) (was : FnBuf) (r : EvtRec) : State :=
  let high : Bool := match was.noticed with
    | some n => decide (n < r.sev)
    | none => true
  match Tbl.find (s.fn f).cqs 0 with
  | some _ =>
    if decide (s.fld HIF_EVT_CFG.NOTICE_SEV f 0 ≤ r.sev) && (was.recs.isEmpty || high) then
      let b := s.evtBuf f
      let sev := (b.recs.map (·.sev)).foldl max 0
      let hd := ((Tbl.find (s.fn f).sqs 0).map (·.head)).getD 0
      (s.setEvtBuf f { b with noticed := some (max sev (b.noticed.getD 0)) }).cqPut f 0 (cqEntry 1 .ok 0xFFFF 0 hd b.notice)
    else s
  | none => s

/-- A record copied to a function's buffer: dropped and counted while it is full, or where its class is off. -/
def State.bufRecord (s : State) (f : Nat) (r : EvtRec) : State :=
  let b := s.evtBuf f
  if !(s.fld HIF_EVT_CFG.CLASS_EN f 0).testBit (r.cls - 1) then s
  else if Config.fnBufferSize ≤ b.recs.length then s.setEvtBuf f { b with dropped := b.dropped + 1 }
  else (s.setEvtBuf f { b with recs := b.recs ++ [r] }).notify f b r

/-- A record copied to several functions. -/
def State.bufRecords (s : State) (r : EvtRec) : List Nat → State
  | [] => s
  | f :: fs => State.bufRecords (s.bufRecord f r) r fs

/-- The functions that get a record (R380). -/
def State.readers (s : State) (r : EvtRec) : List Nat :=
  if r.cls = 8 then r.fn.toList
  else if r.pv then (List.range 32).filter (fun f => s.fnPt f == some r.pt)
  else [0]

/-! ## Milliner rings (R380, R381) -/

/-- A record copied to the ring of its site's milliner, with source 10. -/
def State.ringRecord (s : State) (r : EvtRec) : State :=
  let e := r.site
  if e < 72 ∧ (s.ltileOf e).isSome ∧ (s.fld MIL_EVT_CFG.CLASS_EN e 0).testBit (r.cls - 1) ∧ s.fld MIL_EVT_CFG.SEV_MIN e 0 ≤ r.sev then
    if s.events.milFull.contains e then s.addFld MIL_EVT_PTR.LOST e 0 1
    else
      let t := s.fld MIL_EVT_PTR.TAIL e 0
      let t1 := (t + 1) % 64
      let s1 : State := { s with events := { s.events with
        milRing := Tbl.set s.events.milRing (64 * e + t) r,
        milFull := if t1 = s.fld MIL_EVT_PTR.HEAD e 0 then addOnce s.events.milFull e else s.events.milFull } }
      (s1.setFld MIL_EVT_PTR.TAIL e 0 t1).milIrq e 10
  else s

/-! ## Delivery (R380, R383, R311) -/

/-- The copies that do not wait for READY: the flash store and the I3C interrupt for SEV 2 and 3, the milliner ring. -/
def State.deliverEarly (s : State) (r : EvtRec) : State :=
  let s1 : State := if 2 ≤ r.sev then { s with events := { s.events.toFlash [r] with i3c := s.events.i3c + 1 } } else s
  (s1.setFld EVT_STAT.FLASH_COUNT 0 0 s1.events.flash.length).ringRecord r

/-- EVENT_DELIVERY: the oldest record that waits goes to its readers; functions get none before READY. -/
def execEventDelivery (s : State) : Host.Outcome State Fault Refusal :=
  .next (if !s.supply.on then s
    else match s.events.early, s.events.undelivered with
      | r :: rs, l =>
        if s.hb.stage = 7 then
          ({ s with events := { s.events with early := rs } } : State).bufRecords r (s.readers r)
        else match l with
          | [] => s
          | x :: xs => ({ s with events := { s.events with undelivered := xs, early := r :: rs ++ [x] } } : State).deliverEarly x
      | [], [] => s
      | [], x :: xs =>
        if s.hb.stage = 7 then
          (({ s with events := { s.events with undelivered := xs } } : State).deliverEarly x).bufRecords x (s.readers x)
        else ({ s with events := { s.events with undelivered := xs, early := [x] } } : State).deliverEarly x)

/-! ## The standby Hatband (R375, R433) -/

/-- The standby on BD2 is good: not marked bad, not lost, not fenced, not in the Hatband role. -/
def State.standbyGood (s : State) : Bool :=
  s.hb.active == 0 && !s.boot.bad.any (fun u => u.kind == 12 && u.site == 74) && !(s.dom { site := 74, code := 5 }).dark &&
  !s.brim.fenced.contains 2

/-- Registers the mirror holds: caps, limits and group tables. -/
def mirrorRegs : List Nat := [Reg.PWR_CAP, .MOD_CAP, .PT_CAP, .THERM_LIMITS, .GRP_CFG, .GRP_KIDS].map Reg.num

/-- The mirrored registers as they stand. -/
def State.mirrored (s : State) : Tbl Word := s.regs.filter (fun x => mirrorRegs.contains (x.1 % 2 ^ 7))

/-- HATBAND_MIRROR (R375, R433): from the end of Carding, while the standby is good. -/
def execHatbandMirror (s : State) : Host.Outcome State Fault Refusal :=
  .next (if s.supply.on ∧ !s.hb.halted ∧ 2 ≤ s.hb.stage ∧ s.standbyGood then
      let s1 : State := { s with hb := { s.hb with mirror := s.mirrored, logged := s.fld EVT_STAT.WRITTEN 0 0 } }
      s1.setFld EVT_STAT.STANDBY_OK 0 0 1
    else s)

/-- Registers changed since the last mirror: each keeps its new value or falls back (free, R375). -/
def State.fallBack (s : State) (old : Tbl Word) : List Nat → State
  | [] => s
  | k :: ks =>
    let s1 := if s.freeVal % 2 = 0 then s
      else match Tbl.find old k with
        | some w => { s with regs := Tbl.set s.regs k w }
        | none => { s with regs := Tbl.del s.regs k }
    State.fallBack s1.draw old ks

/-- Records taken since the last mirror: some of the newest may be lost (free). -/
def State.logFallBack (s : State) : State :=
  let n := min s.events.log.length (s.fld EVT_STAT.WRITTEN 0 0 - s.hb.logged)
  let k := s.freeVal % (n + 1)
  let s1 := s.draw.setFld EVT_STAT.WRITTEN 0 0 (s.fld EVT_STAT.WRITTEN 0 0 - k)
  { s1 with events := { s1.events with log := s1.events.log.drop k, undelivered := s1.events.undelivered.take (s1.events.undelivered.length - k) } }

/-- HATBAND_WDOG_EXPIRY (R375, R396): a good standby takes the Hatband role; without one the module goes HALTED. -/
def execHatbandWdogExpiry (cause : Nat) (s : State) : Host.Outcome State Fault Refusal :=
  .next (if s.supply.on ∧ !s.hb.halted then
      let t := s.trialFails 2
      if s.fld EVT_STAT.STANDBY_OK 0 0 = 1 ∧ s.standbyGood then
        let keys := (((s.mirrored.map (·.1)) ++ s.hb.mirror.map (·.1)).eraseDups).filter
          (fun k => decide (Tbl.find s.regs k ≠ Tbl.find s.hb.mirror k))
        let s1 := (t.fallBack s.hb.mirror keys).logFallBack
        let s2 : State := { s1.setFld EVT_STAT.STANDBY_OK 0 0 0 with hb := { s1.hb with active := 2, mirror := [], logged := 0 } }
        s2.raise .HB_FAILOVER 74 uHatband [(1, s.hb.active), (1, 2), (1, cause), (1, 1)]
      else
        let s1 := t.raise .HB_FAILOVER (72 + s.hb.active) uHatband [(1, s.hb.active), (1, s.hb.active), (1, cause), (1, 0)] { sev := some 3 }
        { s1 with hb := { s1.hb with halted := true } }
    else s)

end Sys2Proof.Machine
end

