-- ==== Sys2Proof/Machine/HostCmds.lean ====
section
/-! DEFINITION. The host interface (11): doorbells, fetching, queue and ring commands, LOAD and READ_OUT, adapters, sequences,
token rings, function-level resets and the PCIe link. -/

namespace Sys2Proof.Machine

/-! ## Functions (R207, R209) -/

/-- A function exists (R207). -/
def State.fnExists (s : State) (f : Nat) : Bool := f == 0 || (s.pcie.vfEnable && decide (f ≤ s.pcie.numVfs) && decide (f ≤ 31))

/-- A function's BARs take accesses: it exists and is in D0 (R206, R209; log 113). -/
def State.barsOn (s : State) (f : Nat) : Bool := s.fnExists f && !(s.fn f).cfg.d3hot

/-! ## Doorbells (R213) -/

/-- A doorbell ignored (R213); `kind` 0 SQ, 1 CQ, 2 ring. -/
def State.bellBad (s : State) (f kind q val : Nat) : State :=
  (s.addFld HIF_ERR_STAT.DB_BAD f 0 1).raise .DOORBELL_BAD 72 uBrim [(1, f), (1, q), (4, val)]
    { sub := f * 256 + kind * 64 + q, fn := some f }

/-- A completion queue has a free entry. -/
def Cq.free (c : Cq) : Bool := decide (c.tail - c.head < c.size) && c.wait.isEmpty

/-- A write of an SQ tail doorbell (R213). -/
def State.sqBell (s : State) (fn q val : Nat) : State :=
  if !s.barsOn fn then s
  else match Tbl.find (s.fn fn).sqs q with
    | some x =>
      let now := (x.tail + x.size - x.head) % x.size
      let new := (val + x.size - x.head) % x.size
      if val < x.size ∧ now ≤ new then s.setFn fn { s.fn fn with sqs := Tbl.set (s.fn fn).sqs q { x with tail := val } }
      else s.bellBad fn 0 q val
    | none => s.bellBad fn 0 q val

/-- SQ_TAIL_DOORBELL (R213). -/
def execSqTailDoorbell (fn q val : Nat) (s : State) : Host.Outcome State Fault Refusal := .next (s.sqBell fn q val)

/-- The count a head doorbell moves to: the next one of that index, at most what has been written. -/
def headTo (head tail size val : Nat) : Nat := min tail (head + (val + size - head % size) % size)

/-- A stall of a CQ ends once it has a free entry (R216). -/
def State.stallEnd (s : State) (f q : Nat) : State :=
  match Tbl.find (s.fn f).cqs q with
  | some c => s.setFn f { s.fn f with cqs := Tbl.set (s.fn f).cqs q { c with stalled := c.stalled && !c.free } }
  | none => s

/-- A write of a CQ head doorbell (R213, R216). -/
def State.cqBell (s : State) (fn q val : Nat) : State :=
  if !s.barsOn fn then s
  else match Tbl.find (s.fn fn).cqs q with
    | some c =>
      if val < c.size then
        let c1 : Cq := { c with head := headTo c.head c.tail c.size val }
        ((s.setFn fn { s.fn fn with cqs := Tbl.set (s.fn fn).cqs q c1 }).cqFlush fn q c.wait.length).stallEnd fn q
      else s.bellBad fn 1 q val
    | none => s.bellBad fn 1 q val

/-- CQ_HEAD_DOORBELL (R213, R216). -/
def execCqHeadDoorbell (fn q val : Nat) (s : State) : Host.Outcome State Fault Refusal := .next (s.cqBell fn q val)

/-- A write of a ring head doorbell (R213, R218, R219). -/
def State.ringBell (s : State) (fn ring val : Nat) : State :=
  if !s.barsOn fn then s
  else match Tbl.find (s.fn fn).rings ring with
    | some g =>
      if g.pull then s
      else if val < g.size then
        let g1 : Ring := { g with head := headTo g.head g.tail g.size val }
        (s.setFn fn { s.fn fn with rings := Tbl.set (s.fn fn).rings ring g1 }).ringFlush fn ring g.held.length
      else s.bellBad fn 2 ring val
    | none => s.bellBad fn 2 ring val

/-- RING_HEAD_DOORBELL (R213, R218, R219). -/
def execRingHeadDoorbell (fn ring val : Nat) (s : State) : Host.Outcome State Fault Refusal := .next (s.ringBell fn ring val)

/-! ## Fetching (R215, R216, R232) -/

/-- CQ_STALLED once per stall (R216). -/
def State.stall (s : State) (f q : Nat) (c : Cq) : State :=
  if c.stalled then s
  else (s.setFn f { s.fn f with cqs := Tbl.set (s.fn f).cqs q { c with stalled := true } }).raise .CQ_STALLED 72 uBrim
    [(1, f), (1, q)] { sub := f * 64 + q, fn := some f }

/-- A fetched entry becomes a command; BD0 itself completes one it does not know, and every one whose queue owner is down. -/
def State.accept (s : State) (f sq : Nat) (x : Sq) (bytes : List Byte) : State :=
  let hd := (x.head + 1) % x.size
  let y : Sub := { id := s.nextSub, sq := sq, word := BitVec.ofNat 512 (leNat (bytes.take 64)), sqhd := hd }
  let s1 : State := { s with nextSub := s.nextSub + 1 }
  let s2 := s1.setFn f { s1.fn f with sqs := Tbl.set (s1.fn f).sqs sq { x with head := hd }, subs := (s1.fn f).subs ++ [y] }
  if (s2.fnPt f).any s2.ownerDown || (cmdRow y.opc).isNone then s2.subDone f y.id (s2.hostCheck f y) else s2

/-- SQ_FETCH_DONE (R215, R216, R232). -/
def execSqFetchDone (fn sq : Nat) (entry : HostRead) (s : State) : Host.Outcome State Fault Refusal :=
  .next (match Tbl.find (s.fn fn).sqs sq with
    | some x =>
      if x.head = x.tail ∨ x.stopped ∨ (s.fn fn).flr.isSome ∨ (s.fn fn).cfg.d3hot ∨ s.fld FN_STAT.RDY fn 0 = 0 then s
      else match Tbl.find (s.fn fn).cqs x.cq with
        | some c =>
          if !c.free then s.stall fn x.cq c
          else
            let stop : Nat → State := fun cause =>
              (s.setFn fn { s.fn fn with sqs := Tbl.set (s.fn fn).sqs sq { x with stopped := true } }).dmaError fn sq (x.base + 64 * x.head) cause
            match entry with
            | .ok bytes => s.accept fn sq x bytes
            | .failed cause => stop cause
            | .poisoned => stop 3
        | none => s
    | none => s)

/-! ## Queue and ring commands (R214) -/

/-- CREATE_CQ (R214, R221). -/
def execCreateCq (fn sq : Nat) (s : State) : Host.Outcome State Fault Refusal :=
  .next (s.hostCmd fn sq 0x01 (fun x =>
    if (Tbl.find (s.fn fn).cqs x.target).isSome then s.subDone fn x.id .stateConflict
    else
      let c : Cq := { base := x.haddr, size := x.at 24 2, vector := x.at 26 2, coalCnt := x.at 28 1, coalUs := x.at 29 1 }
      (s.setFn fn { s.fn fn with cqs := Tbl.set (s.fn fn).cqs x.target c }).subDone fn x.id .ok))

/-- DELETE_CQ (R214). -/
def execDeleteCq (fn sq : Nat) (s : State) : Host.Outcome State Fault Refusal :=
  .next (s.hostCmd fn sq 0x02 (fun x =>
    if (Tbl.find (s.fn fn).cqs x.target).isNone || (s.fn fn).sqs.any (fun q => q.2.cq == x.target) then s.subDone fn x.id .stateConflict
    else (s.setFn fn { s.fn fn with cqs := Tbl.del (s.fn fn).cqs x.target }).subDone fn x.id .ok))

/-- CREATE_SQ (R214). -/
def execCreateSq (fn sq : Nat) (s : State) : Host.Outcome State Fault Refusal :=
  .next (s.hostCmd fn sq 0x03 (fun x =>
    if (Tbl.find (s.fn fn).sqs x.target).isSome then s.subDone fn x.id .stateConflict
    else
      let q : Sq := { base := x.haddr, size := x.at 24 2, cq := x.at 26 2 }
      (s.setFn fn { s.fn fn with sqs := Tbl.set (s.fn fn).sqs x.target q }).subDone fn x.id .ok))

/-- DELETE_SQ (R214): nothing more is fetched, and the DELETE completes after the SQ's commands. -/
def execDeleteSq (fn sq : Nat) (s : State) : Host.Outcome State Fault Refusal :=
  .next (s.hostCmd fn sq 0x04 (fun x =>
    match Tbl.find (s.fn fn).sqs x.target with
    | none => s.subDone fn x.id .stateConflict
    | some q =>
      let s1 := s.subBusy fn x.id
      (s1.setFn fn { s1.fn fn with sqs := Tbl.set (s1.fn fn).sqs x.target { q with stopped := true } }).settleDeletes fn
        (s1.fn fn).subs.length))

/-- CREATE_RING (R214, R218, R219). -/
def execCreateRing (fn sq : Nat) (s : State) : Host.Outcome State Fault Refusal :=
  .next (s.hostCmd fn sq 0x05 (fun x =>
    if (Tbl.find (s.fn fn).rings x.target).isSome then s.subDone fn x.id .stateConflict
    else
      let g : Ring := {
        base := x.haddr, size := x.at 24 4, vector := x.at 28 2, coalCnt := x.at 30 1, coalUs := x.at 31 1,
        pull := x.at 32 1 == 1 }
      (s.setFn fn { s.fn fn with rings := Tbl.set (s.fn fn).rings x.target g }).subDone fn x.id .ok))

/-- A live sequence delivers to a ring of a function. -/
def State.ringInUse (s : State) (f r : Nat) : Bool := s.parts.any (fun p => p.2.seqs.any (fun q => q.2.fn == f && q.2.ring == r))

/-- DELETE_RING (R214, R223). -/
def execDeleteRing (fn sq : Nat) (s : State) : Host.Outcome State Fault Refusal :=
  .next (s.hostCmd fn sq 0x06 (fun x =>
    if (Tbl.find (s.fn fn).rings x.target).isNone || s.ringInUse fn x.target then s.subDone fn x.id .stateConflict
    else (s.setFn fn { s.fn fn with rings := Tbl.del (s.fn fn).rings x.target }).subDone fn x.id .ok))

/-! ## IDENTIFY, GET_LOG, SET_CAP -/

/-- IDENTIFY (R223): 4 KiB, whose layout the manual does not state (log 17). -/
def execIdentify (fn sq : Nat) (s : State) : Host.Outcome State Fault Refusal :=
  .next (s.hostCmd fn sq 0x07 (fun x =>
    let page := (if x.target = 3 then Config.levelPage ((List.range 8).map (fun p => Tbl.at s.levels p 0))
      else Config.identifyPage x.target fn s.freeCtr).take 4096
    let p := s.draw.bufPut fn x (page ++ List.replicate (4096 - page.length) 0)
    p.st.subDone fn x.id p.status))

/-- The bytes of a stage report (R302): its entries have no field for the logical tile that R3 has reports carry once the image
is applied, and the report follows R302 (DESIGN CHOICE, log 114). -/
def Report.bytes (r : Report) : List Byte :=
  leBytes 1 r.stage ++ leBytes 1 r.status ++ leBytes 1 r.flags ++ leBytes 1 r.slot ++ leBytes 4 r.duration ++ leBytes 4 r.bootCount ++
  leBytes 4 r.entries.length ++ leBytes 8 r.cycle ++ List.replicate 8 0 ++
  r.entries.flatMap (fun u => leBytes 1 u.kind ++ leBytes 1 u.cause ++ leBytes 1 u.site ++ leBytes 1 u.core ++ leBytes 2 u.index ++
    leBytes 2 u.sub ++ leBytes 4 u.d0 ++ leBytes 4 u.d1)

/-- The reports of the four latest bring-ups, newest first. -/
def State.reportBytes (s : State) : List Byte := s.boot.reports.flatMap (fun l => l.flatMap Report.bytes)

/-- A buffer after GET_LOG log 0 has taken records: the notices start anew, and EVENT_LOST says what was dropped (R381, R382). -/
def State.afterLog (s : State) (f n : Nat) : State :=
  let b := s.evtBuf f
  let s1 := s.setEvtBuf f { b with recs := b.recs.drop n, noticed := none }
  if b.dropped = 0 ∨ Config.fnBufferSize ≤ (b.recs.drop n).length then s1
  else
    let s2 := (s1.setEvtBuf f { s1.evtBuf f with dropped := 0 }).raise .EVENT_LOST 72 uBrim [(1, f), (4, b.dropped)]
    match s2.events.undelivered.getLast? with
    | some r =>
      let s3 : State := { s2 with events := { s2.events with undelivered := s2.events.undelivered.dropLast } }
      s3.setEvtBuf f { s3.evtBuf f with recs := (s3.evtBuf f).recs ++ [r] }
    | none => s2

/-- A GET_LOG's data written; RESULT is the bytes written. -/
def State.logDone (s : State) (f : Nat) (x : Sub) (d : List Byte) : State :=
  let p := s.bufPut f x d
  if p.status = .ok then p.st.subDone f x.id .ok d.length else p.st.subDone f x.id p.status

/-- GET_LOG (R223, R302, R380, R381). -/
def execGetLog (fn sq : Nat) (s : State) : Host.Outcome State Fault Refusal :=
  .next (s.hostCmd fn sq 0x08 (fun x =>
    if x.target = 1 then
      let d := s.reportBytes.take x.hlen
      s.logDone fn x d
    else if x.at 24 1 = 1 then
      let d := (s.events.flash.take (x.hlen / 32)).flatMap EvtRec.bytes
      s.logDone fn x d
    else
      let n := min (x.hlen / 32) (s.evtBuf fn).recs.length
      let d := ((s.evtBuf fn).recs.take n).flatMap EvtRec.bytes
      (s.afterLog fn n).logDone fn x d))

/-- A partition cap clamped (R345): 8 W a tile up to the ceiling; 0 is the ceiling. -/
def State.clampPartCap (s : State) (p w : Nat) : Nat :=
  let ceil := s.fld PT_CAP.CEIL 0 p
  if w = 0 then ceil else min ceil (max (8 * (s.partTiles p).length) w)

/-- SET_CAP (R223, R345): the module's by PF0, a partition's by its own functions. -/
def execSetCap (fn sq : Nat) (s : State) : Host.Outcome State Fault Refusal :=
  .next (s.hostCmd fn sq 0x09 (fun x =>
    if x.target = 0xFF then
      if fn = 0 then (s.setFld MOD_CAP.HOST 0 0 (clampModuleCap (x.at 24 4))).moduleCap.subDone fn x.id .ok else s.subDone fn x.id .auth
    else if s.fnPt fn = some x.target then
      (s.setFld PT_CAP.CAP 0 x.target (s.clampPartCap x.target (x.at 24 4))).subDone fn x.id .ok
    else s.subDone fn x.id .auth))

/-! ## Adapters (R225) -/

/-- A live sequence of a partition names an adapter. -/
def State.adapterUsed (s : State) (p a : Nat) : Bool := (s.part p).seqs.any (fun q => q.2.adapter == a)

/-- A load of an adapter runs in a partition. -/
def State.adapterLoading (s : State) (p a : Nat) : Bool :=
  s.fns.any (fun g => s.fnPt g.1 == some p && g.2.subs.any (fun y => y.busy && y.opc == 0x22 && y.target == a))

/-- The adapter-table slots of an adapter in a partition, by logical tile (R307): (DA, bytes). -/
def State.adapterSlots (s : State) (p a : Nat) : List (Nat × Nat) :=
  (List.range 64).filterMap (fun l =>
    if s.partOfTile l = some p then
      match s.image.adapters.find? (fun x => x.ltile == l && decide (a < x.slots)) with
      | some x => some (x.base + a * x.slotBytes, x.slotBytes)
      | none => none
    else none)

/-- The pieces of an adapter image written slot after slot, to the first failure. -/
def State.writeSlots (s : State) (fn : Nat) (data : List Byte) : List (Nat × Nat) → Put
  | [] => ⟨s, .ok⟩
  | (da, n) :: l =>
    let p := s.daWrite (.pcie fn) da (data.take n)
    if p.status ≠ .ok then p else State.writeSlots p.st fn (data.drop n) l

/-- A write of an adapter image would wait for a channel or an SRAM (R12). -/
def State.slotsHeld (s : State) (fn p a : Nat) : Bool :=
  (s.adapterSlots p a).any (fun x => s.listHeld .write (.pcie fn) (splitDa (x.2 / 256 + 2) x.1 x.2))

/-- Adapters resident in a partition, one put in or taken out. -/
def State.setAdapter (s : State) (p a : Nat) (on : Bool) : State :=
  let l := (s.part p).adapters.filter (· != a)
  s.setPart p { s.part p with adapters := if on then l ++ [a] else l }

/-! ## Admission (R224, R409) -/

/-- A SUBMIT admits its sequence, or completes NO_RESOURCE: pages and context are the loaded model's (free). A function under
reset admits none (R228). -/
def State.acceptSub (s : State) (f : Nat) (x : Sub) (p n : Nat) : State :=
  let a := x.at 28 2
  if (s.fn f).flr.isSome then s.subDone f x.id .ok
  else if a ≠ 0xFFFF ∧ !(s.part p).adapters.contains a then s.subDone f x.id .noResource
  else if s.freeVal % 2 = 1 then s.draw.subDone f x.id .noResource
  else
    (s.draw.setPart p { s.part p with seqs := Tbl.set (s.part p).seqs x.target (x.seq f n) }).subDone f x.id .ok

/-- Tokens of a SUBMIT's prompt. -/
def State.promptLen (s : State) (f : Nat) (x : Sub) : Nat := (if s.e2e f then x.hlen - 28 else x.hlen) / 4

/-- E2E_REFUSED (R409): 0 the tag, 1 the IV. -/
def State.e2eRefuse (s : State) (f : Nat) (x : Sub) (reason : Nat) : State :=
  (s.raise .E2E_REFUSED 72 uBrim [(1, f), (4, x.target), (1, reason)] { sub := f }).subDone f x.id .auth

/-- A protected prompt (R409): IV, ciphertext and tag; the IV must rise, the tag must hold. -/
def State.openPrompt (s : State) (f : Nat) (x : Sub) (key : BitVec 256) (b : List Byte) : Except Nat State :=
  let iv := b.take 12
  let n := leNat (iv.drop 4)
  let ct := (b.drop 12).take (b.length - 28)
  let aad := leBytes 1 f ++ leBytes 4 x.target ++ leBytes 2 (x.at 24 2)
  if (s.fn f).lastIv.any (fun last => decide (n ≤ last)) then .error 1
  else match Config.gcmOpen key iv aad ct (b.drop (b.length - 16)) with
    | some _ => .ok (s.setFn f { s.fn f with lastIv := some n })
    | none => .error 0

/-- A command held while an adapter loads (R225). -/
def State.subHold (s : State) (f id : Nat) : State :=
  s.setFn f { s.fn f with subs := (s.fn f).subs.map (fun x => if x.id = id then { x with busy := true, held := true } else x) }

/-- A held command goes on. -/
def State.subUnhold (s : State) (f id : Nat) : State :=
  s.setFn f { s.fn f with subs := (s.fn f).subs.map (fun x => if x.id = id then { x with held := false } else x) }

/-- SUBMIT (R224, R225, R409). -/
def execSubmit (fn sq : Nat) (prompt : HostRead) (s : State) : Host.Outcome State Fault Refusal :=
  .next (s.hostCmd fn sq 0x30 (fun x =>
    match s.fnPt fn with
    | none => s
    | some p =>
      if (Tbl.find (s.part p).seqs x.target).isSome then s.subDone fn x.id .stateConflict
      else match s.bufGet fn x prompt with
        | (s1, .error st) => s1.subDone fn x.id st
        | (s1, .ok b) =>
          let go : State → State := fun t =>
            if (t.part p).adapters.contains (x.at 28 2) && t.adapterLoading p (x.at 28 2) then t.subHold fn x.id
            else t.acceptSub fn x p (t.promptLen fn x)
          match (s1.fn fn).e2eKey with
          | none => go s1
          | some k => match s1.openPrompt fn x k b with
            | .ok t => go t
            | .error r => s1.e2eRefuse fn x r))

/-- CANCEL (R223, R226). -/
def execCancel (fn sq : Nat) (s : State) : Host.Outcome State Fault Refusal :=
  .next (s.hostCmd fn sq 0x31 (fun x =>
    match s.fnPt fn with
    | none => s
    | some p =>
      if (Tbl.find (s.part p).seqs x.target).isNone then s.subConflict fn x
      else ((s.seqEnd p x.target kindEnd 3).drainSettle p).subDone fn x.id .ok))

/-- KV_SEND (R226, R254): it completes with its transfer. -/
def execKvSend (fn sq : Nat) (s : State) : Host.Outcome State Fault Refusal :=
  .next (s.hostCmd fn sq 0x38 (fun x =>
    match s.fnPt fn with
    | none => s
    | some p => if (Tbl.find (s.part p).seqs x.target).isNone then s.subConflict fn x else s.subBusy fn x.id))

/-- What a KV_RECV needs at its start (R224): its adapter resident, and pages (free); its function not under reset (R228). -/
def State.recvStart (s : State) (f : Nat) (x : Sub) (p : Nat) : State :=
  let a := x.at 28 2
  if (s.fn f).flr.isSome then s.subDone f x.id .ok
  else if a ≠ 0xFFFF ∧ !(s.part p).adapters.contains a then s.subDone f x.id .noResource
  else if s.freeVal % 2 = 1 then s.draw.subDone f x.id .noResource
  else s.draw.subBusy f x.id

/-- KV_RECV (R224, R225, R254): it allocates, and is admitted when its receive transfer has ended. -/
def execKvRecv (fn sq : Nat) (token : HostRead) (s : State) : Host.Outcome State Fault Refusal :=
  .next (s.hostCmd fn sq 0x39 (fun x =>
    match s.fnPt fn with
    | none => s
    | some p =>
      if (Tbl.find (s.part p).seqs x.target).isSome then s.subDone fn x.id .stateConflict
      else match s.bufGet fn x token with
        | (s1, .error st) => s1.subDone fn x.id st
        | (s1, .ok _) =>
          if (s1.part p).adapters.contains (x.at 28 2) && s1.adapterLoading p (x.at 28 2) then s1.subHold fn x.id
          else s1.recvStart fn x p))

/-- REFILL (R255, R325): the request goes to the source module with a MATCH of the queue owner's choice, on the first port of
its port mask (no field of the request carries the mask: log 115). -/
def execRefill (fn sq : Nat) (s : State) : Host.Outcome State Fault Refusal :=
  .next (s.hostCmd fn sq 0x3A (fun x =>
    let l := x.target
    match s.partOfTile l with
    | none => s.subDone fn x.id .badFormat
    | some p =>
      if s.reblocks.any (fun r => r.2.news.any (fun n => n.1 == l)) then s.subDone fn x.id .stateConflict
      else
        let m := s.freeVal % 2 ^ 32
        let digest := ((s.part p).weight.getD (BitVec.ofNat 512 (s.freeAt 1)))
        let r : Refill := { fn := fn, sub := x.id, ltile := l, src := x.at 24 2, mask := x.at 26 2, matchId := m }
        let s1 := (s.draw 2).subBusy fn x.id
        let s2 : State := { s1 with brim := { s1.brim with refills := s1.brim.refills ++ [r] } }
        s2.blSend { dst := x.at 24 2, dpt := 0, spt := p, typ := 8, body := leBytes 4 m ++ leBytes 1 l ++ leBytes 64 digest.toNat,
                    port := (maskBits 16 (x.at 26 2)).head? }))

/-- An ADAPTER_LOAD runs, and will end with a status. -/
def State.subLoad (s : State) (f id : Nat) (st : Status) : State :=
  s.setFn f { s.fn f with subs := (s.fn f).subs.map (fun x => if x.id = id then { x with busy := true, load := st } else x) }

/-- The first request of a load's data to its slots is performed: the load has begun writing (R225). -/
def State.loadBegun (s : State) (fn : Nat) (b : List Byte) : List (Nat × Nat) → Bool
  | [] => false
  | (da, n) :: _ => s.checkReq .write (.pcie fn) da (min n (256 - da % 256)) == .pass && !b.isEmpty

/-- ADAPTER_LOAD (R225): the data goes to the adapter's slots; the load's end makes it resident. A read of the host that fails
does so before the load has begun writing, or after it has written some bytes (which, is free). -/
def execAdapterLoad (fn sq : Nat) (data : HostRead) (s : State) : Host.Outcome State Fault Refusal :=
  .next (s.hostCmd fn sq 0x22 (fun x =>
    match s.fnPt fn with
    | none => s
    | some p =>
      let a := x.target
      let l := s.adapterSlots p a
      if s.adapterUsed p a then s.subConflict fn x
      else if l = [] then s.subDone fn x.id .noResource
      else if s.slotsHeld fn p a then s
      else match s.bufGet fn x data with
        | (s1, .error st) =>
          let n := s1.freeAt 1 % (x.hlen + 1)
          let b := (List.range n).map (fun i => BitVec.ofNat 8 (s1.freeAt (i + 2)))
          if s1.freeVal % 2 = 0 ∨ s1.loadBegun fn b l = false then (s1.draw (n + 2)).subDone fn x.id st
          else ((s1.draw (n + 2)).writeSlots fn b l).st.subLoad fn x.id st
        | (s1, .ok b) =>
          let w := s1.writeSlots fn b l
          if w.status = .ok ∨ s1.loadBegun fn b l then w.st.subLoad fn x.id w.status else w.st.subDone fn x.id w.status))

/-- The SUBMIT and KV_RECV commands held for an adapter, as (function, submission). -/
def State.heldFor (s : State) (p a : Nat) : List (Nat × Sub) :=
  s.fns.flatMap (fun g => if s.fnPt g.1 = some p then
    (g.2.subs.filter (fun y => y.held && y.at 28 2 == a)).map (fun y => (g.1, y)) else [])

/-- A held command goes on, checked against the present state (R216, R226). -/
def State.resumeOne (s : State) (p f : Nat) (y : Sub) : State :=
  match s.hostCheck f y with
  | .ok =>
    if (Tbl.find (s.part p).seqs y.target).isSome then s.subDone f y.id .stateConflict
    else if y.opc = 0x30 then s.acceptSub f y p (s.promptLen f y)
    else s.recvStart f y p
  | .stateConflict => s.subConflict f y
  | st => s.subDone f y.id st

/-- Held commands go on. -/
def State.resumeHeld (s : State) (p : Nat) : List (Nat × Sub) → State
  | [] => s
  | (f, y) :: l => State.resumeHeld ((s.subUnhold f y.id).resumeOne p f y) p l

/-- The load commands of an adapter that run, with the status each will end with. -/
def State.loadSubs (s : State) (p a : Nat) : List (Nat × Nat × Status) :=
  s.fns.flatMap (fun g => if s.fnPt g.1 = some p then
    (g.2.subs.filter (fun y => y.busy && y.opc == 0x22 && y.target == a)).map (fun y => (g.1, y.id, y.load)) else [])

/-- Load commands complete. -/
def State.loadsDone (s : State) : List (Nat × Nat × Status) → State
  | [] => s
  | (f, id, st) :: l => State.loadsDone (s.subDone f id st) l

/-- ADAPTER_LOAD_DONE (R225): resident, or after a load that failed not; the commands held for it go on. -/
def execAdapterLoadDone (pt adapter : Nat) (s : State) : Host.Outcome State Fault Refusal :=
  .next (if s.adapterLoading pt adapter then
      let l := s.loadSubs pt adapter
      let held := s.heldFor pt adapter
      ((s.setAdapter pt adapter (l.all (fun x => x.2.2 == .ok))).loadsDone l).resumeHeld pt held
    else s)

/-! ## Token rings (R217-R222) -/

/-- The ring of a sequence holds as many entries as the queue owner keeps: no decode step is scheduled for it (R218). -/
def State.ringChoked (s : State) (q : Seq) : Bool :=
  match Tbl.find (s.fn q.fn).rings q.ring with
  | some g => g.full
  | none => false

/-- A token is one of a sequence's stop tokens (R224). -/
def Seq.isStop (q : Seq) (tok : Nat) : Bool := (q.stop0 != 0xFFFFFFFF && q.stop0 == tok) || (q.stop1 != 0xFFFFFFFF && q.stop1 == tok)

/-- An END of the tile runtime's with a reason (R217): a stop token only where there is one, MAXNEW once it is reached. CANCEL's
reason 3 is CANCEL's own. -/
def Seq.mayEnd (q : Seq) (reason : Nat) : Bool :=
  match reason with
  | 0 => q.stop0 != 0xFFFFFFFF || q.stop1 != 0xFFFFFFFF
  | 1 => q.left == 0
  | 2 => true
  | _ => false

/-- The statuses a LOST entry carries (R217). -/
def lostCodes : List Nat := [Status.fenced, .poison, .integrity].map Status.code

/-- TOKEN_RING_WRITE (R217, R218, R224, R323): at most MAXNEW tokens, none after a stop token. -/
def execTokenRingWrite (pt handle kind value : Nat) (s : State) : Host.Outcome State Fault Refusal :=
  .next (match Tbl.find (s.part pt).seqs handle with
    | some q =>
      if kind = kindToken then
        if s.ringChoked q || q.left == 0 || q.stopped then s
        else
          let s1 := s.ringPut q.fn q.ring (s.protect q handle (ringEntry kind q.stream q.pos value))
          let q1 : Seq := { q with pos := q.pos + 1, left := q.left - 1, stopped := q.isStop value }
          s1.setPart pt { s1.part pt with seqs := Tbl.set (s1.part pt).seqs handle q1 }
      else if kind = kindEnd then (if q.mayEnd value then (s.seqEnd pt handle kind value).drainSettle pt else s)
      else if kind = kindLost ∧ lostCodes.contains value then
        (((s.seqEnd pt handle kind value).raise .SEQ_LOST 72 uBrim [(4, 1), (1, value)] { sub := pt, pt := some pt })).drainSettle pt
      else s
    | none => s)

/-- COAL_US_EXPIRY (R222). -/
def execCoalUsExpiry (fn : Nat) (isRing : Bool) (id : Nat) (s : State) : Host.Outcome State Fault Refusal :=
  .next (if isRing then
      match Tbl.find (s.fn fn).rings id with
      | some g =>
        if g.since = 0 ∨ g.coalUs = 0 then s
        else (s.setFn fn { s.fn fn with rings := Tbl.set (s.fn fn).rings id { g with since := 0 } }).msix fn g.vector
      | none => s
    else
      match Tbl.find (s.fn fn).cqs id with
      | some c =>
        if c.since = 0 ∨ c.coalUs = 0 then s
        else (s.setFn fn { s.fn fn with cqs := Tbl.set (s.fn fn).cqs id { c with since := 0 } }).msix fn c.vector
      | none => s)

/-- A read of BAR2: what it returns goes to the host. An aligned 8-byte read pops; every other one is a bad access and returns
zero (R209, R219). -/
def State.bar2Read (s : State) (fn off size : Nat) : State :=
  if !s.barsOn fn then s
  else if size ≠ 8 ∨ off % 8 ≠ 0 then (s.addFld HIF_ERR_STAT.BAD_ACCESS fn 0 1).toHost (.cpl fn (List.replicate size 0))
  else match Tbl.find (s.fn fn).rings (off / 8) with
    | some g =>
      match g.pull, g.held with
      | true, e :: l =>
        let g1 : Ring := { g with held := l, head := g.head + 1, full := g.full && decide (Config.ringHoldMax ≤ l.length - g.size) }
        (s.setFn fn { s.fn fn with rings := Tbl.set (s.fn fn).rings (off / 8) g1 }).toHost (.cpl fn (leBytes 8 (e + 2 ^ 63)))
      | _, _ => s.toHost (.cpl fn (leBytes 8 0))
    | none => s.toHost (.cpl fn (leBytes 8 0))

/-- A write of BAR2 has no effect; one of wrong size or alignment is counted (R209). -/
def State.bar2Write (s : State) (fn off size : Nat) : State :=
  if s.barsOn fn ∧ ((size ≠ 4 ∧ size ≠ 8) ∨ off % size ≠ 0) then s.addFld HIF_ERR_STAT.BAD_ACCESS fn 0 1 else s

/-- PULL_READ (R219). -/
def execPullRead (fn ring size : Nat) (s : State) : Host.Outcome State Fault Refusal := .next (s.bar2Read fn (8 * ring) size)

/-! ## Configuration space (R206, R221) -/

/-- A setting as configuration space shows it. -/
def PcieCfg.get (c : PcieCfg) : CfgItem → Nat
  | .msixEnable => c.msixEn.toNat
  | .relaxedOrdering => c.relaxed.toNat
  | .powerState => if c.d3hot then 3 else 0
  | .aspmL1 => c.aspmL1.toNat
  | .maxPayload => c.payload
  | .maxReadRequest => c.readReq
  | .ecrcGenerate => c.ecrcGen.toNat
  | .ecrcCheck => c.ecrcChk.toNat

/-- A setting written; a value R206 does not support leaves it (log 113). -/
def PcieCfg.put (c : PcieCfg) (i : CfgItem) (v : Nat) : PcieCfg :=
  match i with
  | .msixEnable => { c with msixEn := v % 2 == 1 }
  | .relaxedOrdering => { c with relaxed := v % 2 == 1 }
  | .powerState => if v = 0 ∨ v = 3 then { c with d3hot := v == 3 } else c
  | .aspmL1 => { c with aspmL1 := v % 2 == 1 }
  | .maxPayload => if v ≤ 2 then { c with payload := v } else c
  | .maxReadRequest => if v ≤ 5 then { c with readReq := v } else c
  | .ecrcGenerate => { c with ecrcGen := v % 2 == 1 }
  | .ecrcCheck => { c with ecrcChk := v % 2 == 1 }

/-- A write of a function's configuration space. -/
def State.cfgWrite (s : State) (f : Nat) (i : CfgItem) (v : Nat) : State :=
  if s.fnExists f then s.setFn f { s.fn f with cfg := (s.fn f).cfg.put i v } else s

/-- A read of a function's configuration space. -/
def State.cfgRead (s : State) (f : Nat) (i : CfgItem) (size : Nat) : State :=
  if s.fnExists f then s.toHost (.cpl f (leBytes size ((s.fn f).cfg.get i))) else s

/-- MSI-X vectors of a function (R209). -/
def msixVectors (fn : Nat) : Nat := if fn = 0 then 2048 else 64

/-- A vector unmasked (R221): sent where it is pending; while MSI-X is disabled it stays pending. -/
def State.msixUnmask (s : State) (fn vector : Nat) : State :=
  if s.fnExists fn ∧ vector < msixVectors fn then
    let x := s.fn fn
    let s1 := s.setFn fn { x with unmasked := addOnce x.unmasked vector, msixPend := x.msixPend.filter (· != vector) }
    if !x.msixPend.contains vector then s1
    else if x.cfg.msixEn then s1.toHost (.msix fn vector)
    else s1.setFn fn { s1.fn fn with msixPend := x.msixPend }
  else s

/-- MSIX_UNMASK (R221). -/
def execMsixUnmask (fn vector : Nat) (s : State) : Host.Outcome State Fault Refusal := .next (s.msixUnmask fn vector)

/-! ## Function-level reset (R228, R231) -/

/-- Sequences a function submitted end with no ring entry (R228 step 2), partition by partition. -/
def State.endSeqsOf (s : State) (f : Nat) : List Nat → State
  | [] => s
  | p :: ps =>
    let s1 := s.setPart p { s.part p with seqs := (s.part p).seqs.filter (fun q => q.2.fn != f) }
    State.endSeqsOf (s1.drainSettle p) f ps

/-- Steps 1 to 3 of R228 for one function: no fetch, its sequences ended, commands that have not started dropped. A reset
that meets one still running is one with it, and a full one if either is. -/
def State.flrStart (s : State) (f : Nat) (soft : Bool) : State :=
  if (s.fn f).flr.isSome then s.setFn f { s.fn f with flrSoft := (s.fn f).flrSoft && soft }
  else
    let n := (s.parts.map (fun p => (p.2.seqs.filter (fun q => q.2.fn == f)).length)).foldl (· + ·) 0
    let s1 := (s.endSeqsOf f (s.parts.map (·.1))).tdiError f 3
    s1.setFn f { s1.fn f with flr := some n, flrSoft := soft, subs := (s1.fn f).subs.filter (·.busy), e2eKey := none, lastIv := none }

/-- Steps 1 to 3 for several functions. -/
def State.flrStarts (s : State) : List Nat → State
  | [] => s
  | f :: fs => State.flrStarts (s.flrStart f false) fs

/-- Functions that a reset of `f` covers: PF0's covers every VF. -/
def flrScope (f : Nat) : List Nat := if f = 0 then List.range 32 else [f]

/-- A function-level reset begins; of PF0 it clears VF Enable (R228). -/
def State.flr (s : State) (f : Nat) : State :=
  let l := (flrScope f).filter s.fnExists
  let s1 := s.flrStarts l
  if f = 0 then { s1 with pcie := { s1.pcie with vfEnable := false } } else s1

/-- Registers of a function that a reset returns: all of BAR0 but APERTURE (R231). -/
def flrRegs : List Reg := (domainRegs .bar0 .module).filter (· != .APERTURE)

/-- FUNCTION_LEVEL_RESET (R228). -/
def execFunctionLevelReset (fn : Nat) (s : State) : Host.Outcome State Fault Refusal :=
  .next (if s.fnExists fn then s.flr fn else s)

/-- FLR_COMPLETE (R228 step 4, R232): once no forwarded command is left. -/
def execFlrComplete (fn : Nat) (s : State) : Host.Outcome State Fault Refusal :=
  .next (match (s.fn fn).flr with
    | some n =>
      if (s.fn fn).subs = [] then
        let s1 := s.setFn fn (if (s.fn fn).flrSoft then { cfg := (s.fn fn).cfg } else {})
        let s2 := if (s.fn fn).flrSoft then (s1.setFld FN_STAT.RDY fn 0 0) else { s1 with regs := resetRegs s1.regs flrRegs fn }
        s2.raise .FLR_DONE 72 uBrim [(1, fn), (4, n)] { fn := some fn }
      else s
    | none => s)

/-- The admin queue of a function, from HIF.ASQ, HIF.ACQ and HIF.AQ_SIZE. -/
def State.adminUp (s : State) (f : Nat) : State :=
  let q : Sq := { base := s.fld ASQ_ACQ.BASE f 0 * 64, size := s.fld AQ_SIZE.ASQS f 0 + 1, cq := 0 }
  let c : Cq := { base := s.fld ASQ_ACQ.BASE f 1 * 64, size := s.fld AQ_SIZE.ACQS f 0 + 1, vector := 0, coalCnt := 0, coalUs := 0 }
  let s1 := s.setFn f { s.fn f with sqs := Tbl.set (s.fn f).sqs 0 q, cqs := Tbl.set (s.fn f).cqs 0 c }
  (s1.setFld FN_CTL.EN f 0 1).setFld FN_STAT.RDY f 0 1

/-- A write of HIF.FN_CTL. -/
def State.fnCtl (s : State) (f val : Nat) : State :=
  if s.fld FN_CTL.EN f 0 = val % 2 ∨ (s.fn f).flr.isSome then s
  else if val % 2 = 1 then s.adminUp f
  else (s.setFld FN_CTL.EN f 0 0).flrStart f true

/-- FN_CTL_WRITE. -/
def execFnCtlWrite (fn : Nat) (val : Word) (s : State) : Host.Outcome State Fault Refusal :=
  .next (if s.barsOn fn then s.fnCtl fn val.toNat else s)

/-- Functions that NumVFs and VF Enable take away. -/
def State.vfsGone (s : State) (n : Nat) (en : Bool) : List Nat :=
  (List.range 32).filter (fun f => f != 0 && s.fnExists f && !(en && decide (f ≤ n)))

/-- VF_ENABLE (R207). -/
def execVfEnable (numVfs : Nat) (enable : Bool) (s : State) : Host.Outcome State Fault Refusal :=
  .next (let n := min 31 numVfs
    let s1 := s.flrStarts (s.vfsGone n enable)
    { s1 with pcie := { s1.pcie with numVfs := n, vfEnable := enable } })

/-! ## The link (R206, R229, R301, R419) -/

/-- PCIE_LINK (R232); its cause numbers are not stated (free). -/
def State.linkEvent (s : State) (width speed : Nat) : State :=
  (s.draw).raise .PCIE_LINK 72 uBrim [(1, width), (1, speed), (1, s.freeVal % 256)] { fn := some 0, sited := false }

/-- The link is gone: it acts as a function-level reset of PF0 (R229). -/
def State.linkGone (s : State) (retrain : Bool) : State :=
  let s1 : State := { s with pcie := { s.pcie with up := false, width := 0, speed := 0, training := retrain } }
  (if s.pcie.up then s1.linkEvent 0 0 else s1).flr 0

/-- The LTSSM may leave Detect: steps 1 to 3 of Finishing have ended (R301). -/
def State.linkMay (s : State) : Bool := s.hb.stage == 7 || s.boot.linkTurn

/-- Pull entries of a ring whose read's completion the link lost (R220). -/
def State.pullLose (s : State) (f r : Nat) : List Nat → State
  | [] => s
  | st :: l =>
    State.pullLose ((s.addFld HIF_ERR_STAT.PULL_LOST f 0 1).raise .PULL_ENTRY_LOST 72 uBrim [(1, f), (1, r), (2, st)] { fn := some f }) f r l

/-- Pull entries lost with a link that a reset takes down (R220): of the entries popped from each pull ring how many had their
completion still on its way, and their STREAMs, are free values. -/
def State.pullLoseAny (s : State) : List (Nat × Nat × Ring) → State
  | [] => s
  | (f, r, g) :: l =>
    let n := if g.pull then s.freeVal % (g.head + 1) else 0
    State.pullLoseAny ((s.draw (n + 1)).pullLose f r ((List.range n).map (fun i => s.freeAt (i + 1) % 2 ^ 16))) l

/-- Every ring: (function, ring, its state). -/
def State.allRings (s : State) : List (Nat × Nat × Ring) := s.fns.flatMap (fun x => x.2.rings.map (fun g => (x.1, g.1, g.2)))

/-- PERST_ASSERT (R220, R229). -/
def execPerstAssert (s : State) : Host.Outcome State Fault Refusal :=
  .next (let s1 := if s.pcie.up then s.pullLoseAny s.allRings else s
    ({ s1 with pcie := { s1.pcie with perst := true } } : State).linkGone false)

/-- PERST_DEASSERT (R301, R419): SRIS where the host's clock is absent. -/
def execPerstDeassert (refclk : Bool) (s : State) : Host.Outcome State Fault Refusal :=
  .next (if s.pcie.perst then
      { s with pcie := { s.pcie with perst := false, sris := !refclk, training := s.supply.on && s.linkMay } }
    else s)

/-- HOT_RESET (R220, R229). -/
def execHotReset (s : State) : Host.Outcome State Fault Refusal :=
  .next (if s.pcie.up then (s.pullLoseAny s.allRings).linkGone true else s)

/-- Pull entries whose read's completion the link lost (R220): function, ring, STREAM. -/
def State.pullLost (s : State) : List (Nat × Nat × Nat) → State
  | [] => s
  | (f, r, st) :: l =>
    State.pullLost (s.pullLose f r [st]) l

/-- LINK_DOWN (R220, R229). -/
def execLinkDown (lost : List (Nat × Nat × Nat)) (s : State) : Host.Outcome State Fault Refusal :=
  .next (if s.pcie.up then (s.pullLost lost).linkGone (!s.pcie.perst) else s)

/-- The widths and speeds the link trains at (R206), speeds as PCIe numbers them: 1 for 2.5 GT/s to 5 for 32 GT/s (log 113). -/
def linkLegal (width speed : Nat) : Bool := [1, 2, 4, 8, 16].contains width && decide (1 ≤ speed) && decide (speed ≤ 5)

/-- LINK_UP (R206, R232, R301): the link comes up, or one that is up changes its width or speed. -/
def execLinkUp (width speed : Nat) (s : State) : Host.Outcome State Fault Refusal :=
  .next (let s1 : State := { s with pcie := { s.pcie with training := false, up := true, width := width, speed := speed } }
    if !linkLegal width speed then s
    else if s.pcie.training then (s1.linkEvent width speed).enterReady
    else if s.pcie.up ∧ (width ≠ s.pcie.width ∨ speed ≠ s.pcie.speed) then s1.linkEvent width speed
    else s)

end Sys2Proof.Machine
end

