-- ==== Sys2Proof/Machine/Security.lean ====
section
/-! DEFINITION. Identity, attestation and update (19): SPDM, tenant sessions, measurements, PLDM, slots, owner keys and the
distribution inside the module. Codes and bodies that DSP0274 and DSP0267 define are theirs (log 15). -/

namespace Sys2Proof.Machine

/-! ## Transports (R399, R405) -/

/-- The key of a transport. -/
def transportKey : Transport → Nat
  | .doe f => f
  | .i3c => 100
  | .vdm => 101
  | .fleet m => 200 + m

/-- The Hatband's firmware runs and the transport reaches it. -/
def State.hears (s : State) (t : Transport) : Bool :=
  s.supply.on && (decide (2 ≤ s.hb.stage) || s.boot.failed) && !s.boot.restarting &&
  (match t with
   | .doe f => s.pcie.up && s.fnExists f
   | .vdm => s.pcie.up
   | .i3c => true
   | .fleet m => (s.session m).isSome)

/-- An answer sent. -/
def State.answer (s : State) (t : Option Transport) (code : Nat) (ok : Bool) (status : Nat) (body : List Byte) : State :=
  { s with sec := { s.sec with answers := s.sec.answers ++ [{ dest := t, code := code, ok := ok, status := status, body := body }] } }

/-! ## SPDM (R405) -/

/-- An SPDM connection. -/
def State.spdm (s : State) (t : Transport) : Spdm := Tbl.at s.sec.spdm (transportKey t) {}

/-- An SPDM connection replaced. -/
def State.setSpdm (s : State) (t : Transport) (x : Spdm) : State :=
  { s with sec := { s.sec with spdm := Tbl.set s.sec.spdm (transportKey t) x } }

/-- SPDM error codes: InvalidRequest, UnexpectedRequest, UnsupportedRequest, ResponseNotReady. -/
def spdmInvalid : Nat := 0x01
def spdmUnexpected : Nat := 0x04
def spdmUnsupported : Nat := 0x07
def spdmNotReady : Nat := 0x42

/-- A request answered, with the part of the body the manual states; the rest is the standard's (free). -/
def State.spdmOk (s : State) (t : Transport) (code : Nat) (body : List Byte := []) : State :=
  s.draw.answer (some t) code true 0 (body ++ Config.protocolBody code s.freeCtr)

/-- A request answered with an error. -/
def State.spdmErr (s : State) (t : Transport) (code err : Nat) : State := s.answer (some t) code false err []

/-- A request that needs a connection in one of the listed phases. -/
def State.spdmAt (s : State) (t : Transport) (code lo hi : Nat) (act : State → State) : State :=
  if !s.hears t then s
  else if (s.spdm t).phase < lo ∨ hi < (s.spdm t).phase then s.spdmErr t code spdmUnexpected
  else act s

/-- SPDM_SESSION (R413): event 0 open, 1 close, 2 fail; the reason is the standard's (free). -/
def State.spdmEvent (s : State) (t : Transport) (ev : Nat) : State :=
  s.draw.raise .SPDM_SESSION (72 + s.hb.active) uHatband [(1, transportKey t % 256), (1, ev), (1, s.freeVal % 256)]

/-- GET_VERSION (R405): the connection begins. -/
def execGetVersion (t : Transport) (s : State) : Host.Outcome State Fault Refusal :=
  .next (s.spdmAt t 0x84 0 5 (fun u => (u.setSpdm t { u.spdm t with phase := 1, waits := [] }).spdmOk t 0x84 [0x13]))

/-- GET_CAPABILITIES (R405). -/
def execGetCapabilities (t : Transport) (s : State) : Host.Outcome State Fault Refusal :=
  .next (s.spdmAt t 0xE1 1 1 (fun u => (u.setSpdm t { u.spdm t with phase := 2 }).spdmOk t 0xE1))

/-- NEGOTIATE_ALGORITHMS (R405): only the four algorithms of R405 are selected. -/
def execNegotiateAlgorithms (t : Transport) (offersAll : Bool) (s : State) : Host.Outcome State Fault Refusal :=
  .next (s.spdmAt t 0xE3 2 2 (fun u =>
    if offersAll then (u.setSpdm t { u.spdm t with phase := 3 }).spdmOk t 0xE3 else u.spdmErr t 0xE3 spdmInvalid))

/-- GET_DIGESTS (R405): of the chain of slot 0. -/
def execGetDigests (t : Transport) (s : State) : Host.Outcome State Fault Refusal :=
  .next (s.spdmAt t 0x81 3 5 (fun u => u.spdmOk t 0x81))

/-- GET_CERTIFICATE (R405): slot 0 only. -/
def execGetCertificate (t : Transport) (slot : Nat) (s : State) : Host.Outcome State Fault Refusal :=
  .next (s.spdmAt t 0x82 3 5 (fun u => if slot = 0 then u.spdmOk t 0x82 else u.spdmErr t 0x82 spdmInvalid))

/-- CHALLENGE (R405): slot 0 only; the answer repeats the nonce under Alias1's signature. -/
def execChallenge (t : Transport) (slot : Nat) (nonce : BitVec 256) (s : State) : Host.Outcome State Fault Refusal :=
  .next (s.spdmAt t 0x83 3 5 (fun u =>
    if slot = 0 then u.spdmOk t 0x83 (leBytes 32 nonce.toNat) else u.spdmErr t 0x83 spdmInvalid))

/-- KEY_EXCHANGE (R405). -/
def execKeyExchange (t : Transport) (secret : BitVec 256) (s : State) : Host.Outcome State Fault Refusal :=
  .next (s.spdmAt t 0xE4 3 5 (fun u => (u.setSpdm t { u.spdm t with phase := 4, secret := secret }).spdmOk t 0xE4))

/-- FINISH (R405, R413): the session opens, or fails. -/
def execFinish (t : Transport) (ok : Bool) (s : State) : Host.Outcome State Fault Refusal :=
  .next (s.spdmAt t 0xE5 4 4 (fun u =>
    if ok then ((u.setSpdm t { u.spdm t with phase := 5 }).spdmEvent t 0).spdmOk t 0xE5
    else ((u.setSpdm t { u.spdm t with phase := 3, secret := 0 }).spdmEvent t 2).spdmErr t 0xE5 spdmInvalid))

/-- KEY_UPDATE (R405). -/
def execKeyUpdate (t : Transport) (s : State) : Host.Outcome State Fault Refusal :=
  .next (s.spdmAt t 0xE9 5 5 (fun u => u.spdmOk t 0xE9))

/-- HEARTBEAT (R405). -/
def execHeartbeat (t : Transport) (s : State) : Host.Outcome State Fault Refusal :=
  .next (s.spdmAt t 0xE8 5 5 (fun u => u.spdmOk t 0xE8))

/-- The E2E key of a function ends (R409). -/
def State.e2eEnd (s : State) (f : Nat) : State := s.setFn f { s.fn f with e2eKey := none, lastIv := none }

/-- END_SESSION (R405, R409). -/
def execEndSession (t : Transport) (s : State) : Host.Outcome State Fault Refusal :=
  .next (s.spdmAt t 0xEC 5 5 (fun u =>
    let u1 := u.setSpdm t { u.spdm t with phase := 3, secret := 0 }
    let u2 := match t with
      | .doe f => u1.e2eEnd f
      | _ => u1
    (u2.spdmEvent t 1).spdmOk t 0xEC))

/-! ## Measurements (R406, R407) -/

/-- The contents of code or weight regions of a partition, in ascending (L, index): each region's {L, index, length, SHA-512 of
its content} (R407). -/
def State.regionDigests (s : State) : List RegionCfg → State × List Byte
  | [] => (s, [])
  | r :: rs =>
    let g := s.daRead .hatband r.base r.len
    let d := if g.status = .ok then (Config.sha512 g.data).toNat else g.st.freeVal
    let k := State.regionDigests (if g.status = .ok then g.st else g.st.draw) rs
    (k.1, leBytes 1 r.ltile ++ leBytes 1 r.index ++ leBytes 8 r.len ++ leBytes 64 d ++ k.2)

/-- A region inserted in ascending (L, index). -/
def regionInsert (r : RegionCfg) : List RegionCfg → List RegionCfg
  | [] => [r]
  | x :: xs => if 256 * r.ltile + r.index ≤ 256 * x.ltile + x.index then r :: x :: xs else x :: regionInsert r xs

/-- A partition's regions of a kind, in ascending (L, index). -/
def State.partRegions (s : State) (p kind : Nat) : List RegionCfg :=
  (s.image.regions.filter (fun r => r.kind == kind && s.partOfTile r.ltile == some p)).foldr regionInsert []

/-- The adapter images resident for a partition, in adapter-id order. -/
def State.adapterBytes (s : State) : List (Nat × Nat) → State × List Byte
  | [] => (s, [])
  | (da, n) :: l =>
    let g := s.daRead .hatband da n
    let k := State.adapterBytes g.st l
    (k.1, g.data ++ k.2)

/-- The security state of block 7: fuse counters, REVOKE, DBG_LOCK, owner slot hashes, slot states. -/
def State.securityBytes (s : State) : List Byte :=
  s.nv.svn.flatMap (leBytes 1) ++ leBytes 1 s.nv.revoke ++ leBytes 1 s.nv.dbgLock ++
  [2, 3].flatMap (fun k => leBytes 64 (s.rootKey k).toNat) ++ leBytes 1 (s.slot 0).state ++ leBytes 1 (s.slot 1).state

/-- A measurement block, where it can be formed at once. -/
def State.measure (s : State) (p idx : Nat) : State × BitVec 512 :=
  let images := (s.slot s.boot.fwSlot).images
  match idx with
  | 1 => (s, Config.bootRom)
  | 2 => (s, imgDigest (Tbl.at images 0 []))
  | 3 => (s, imgDigest (Tbl.at images 1 []))
  | 4 => (s, s.sec.layout)
  | 5 => (s, Tbl.at s.sec.loaded 2 0)
  | 6 => (s, Tbl.at s.sec.loaded 3 0)
  | 7 => (s, Config.sha512 s.securityBytes)
  | 8 => (s, Config.sha512 s.boot.record)
  | 10 =>
    let ids := (List.range (2 ^ 16)).filter (fun a => (s.part p).adapters.contains a)
    let r := s.adapterBytes (ids.flatMap (s.adapterSlots p))
    (r.1, Config.sha512 r.2)
  | 11 =>
    let r := s.adapterBytes ((s.partRegions p 3).map (fun x => (x.base, x.len)))
    (r.1, Config.sha512 r.2)
  | _ => (s, (s.part p).weight.getD 0)

/-- The partition whose block a requester asks for, or `none` where it does not see the block (R406). -/
def State.measureOf (s : State) (t : Transport) (idx : Nat) : Option Nat :=
  if 1 ≤ idx ∧ idx ≤ 8 then some 0
  else if 9 ≤ idx ∧ idx ≤ 11 then
    (match t with
     | .doe f => s.fnPt f
     | _ => none)
  else if 0x10 ≤ idx ∧ idx ≤ 0x17 then
    (match t with
     | .doe 0 | .i3c | .vdm => some (idx - 0x10)
     | _ => none)
  else none

/-- GET_MEASUREMENTS (R406, R407): the block signed by Alias1; a weight block is computed first. -/
def execGetMeasurements (t : Transport) (index : Nat) (s : State) : Host.Outcome State Fault Refusal :=
  .next (s.spdmAt t 0xE0 3 5 (fun u =>
    match u.measureOf t index with
    | none => u.spdmErr t 0xE0 spdmInvalid
    | some p =>
      let x := u.spdm t
      let weights := index == 9 || decide (0x10 ≤ index)
      if weights ∧ !x.waits.contains (16 + p) then
        (u.setSpdm t { x with waits := addOnce x.waits p }).spdmErr t 0xE0 spdmNotReady
      else
        let u1 := if weights then u.setSpdm t { x with waits := x.waits.filter (· != 16 + p) } else u
        let m := u1.measure p index
        m.1.spdmOk t 0xE0 (leBytes 1 index ++ leBytes 64 m.2.toNat)))

/-- The connections that asked for a partition's weights may be answered. -/
def weightsReady (p : Nat) (x : Spdm) : Spdm :=
  if x.waits.contains p then { x with waits := x.waits.filter (· != p) ++ [16 + p] } else x

/-- MEASUREMENT_READY (R407): the Hatband keeps the digest. -/
def execMeasurementReady (pt : Nat) (s : State) : Host.Outcome State Fault Refusal :=
  .next (if s.sec.spdm.any (fun x => x.2.waits.contains pt) ∧ pt < 8 then
      let r := s.regionDigests (s.partRegions pt 0)
      let s1 := r.1.setPart pt { r.1.part pt with weight := some (Config.sha512 r.2) }
      { s1 with sec := { s1.sec with spdm := s1.sec.spdm.map (fun x => (x.1, weightsReady pt x.2)) } }
    else s)

/-! ## Tenant sessions (R408, R409) -/

/-- A function's IDE stream and TDI state. -/
def State.ide (s : State) (f : Nat) : Ide := Tbl.at s.sec.ide f {}

/-- A function's IDE stream and TDI state replaced. -/
def State.setIde (s : State) (f : Nat) (x : Ide) : State := { s with sec := { s.sec with ide := Tbl.set s.sec.ide f x } }

/-- The TDI state a TDISP message leaves a VF in, where it is accepted: lock, start, stop. -/
def tdiAfter (msg tdi : Nat) : Option Nat :=
  if msg = 0x83 ∧ tdi = 0 then some 1
  else if msg = 0x86 ∧ tdi = 1 then some 2
  else if msg = 0x87 then some 0
  else none

/-- A TDISP message of a function's session. -/
def State.tdisp (s : State) (t : Transport) (msg : Nat) : State :=
  match t with
  | .doe f =>
    if f = 0 then s.spdmErr t 0xFE spdmUnsupported
    else match tdiAfter msg (s.ide f).tdi with
      | some n => (s.setIde f { s.ide f with tdi := n }).spdmOk t 0xFE
      | none => if msg = 0x83 ∨ msg = 0x86 then s.spdmErr t 0xFE spdmInvalid else s.spdmOk t 0xFE
  | _ => s.spdmErr t 0xFE spdmUnsupported

/-- VENDOR_DEFINED_REQUEST (R405, R408): a TDISP message (protocol 1) changes the TDI; any other request's answer is its
vendor's. -/
def execVendorDefinedRequest (t : Transport) (body : List Byte) (s : State) : Host.Outcome State Fault Refusal :=
  .next (s.spdmAt t 0xFE 5 5 (fun u =>
    if byAt body 0 1 = 1 then u.tdisp t (byAt body 1 1) else u.spdmOk t 0xFE))

/-- E2E_ON (R409): K_e2e derived from the session's export secret. -/
def execE2eOn (fn : Nat) (s : State) : Host.Outcome State Fault Refusal :=
  .next (s.spdmAt (.doe fn) 0xFE 5 5 (fun u =>
    if fn = 0 then u.spdmErr (.doe fn) 0xFE spdmUnsupported
    else (u.setFn fn { u.fn fn with e2eKey := some (Config.hkdf (u.spdm (.doe fn)).secret 0 32), lastIv := none }).spdmOk (.doe fn) 0xFE))

/-- KEY_PROG (R408). -/
def execKeyProg (fn keySet : Nat) (key : BitVec 256) (s : State) : Host.Outcome State Fault Refusal :=
  .next (s.spdmAt (.doe fn) 0xFE 5 5 (fun u =>
    if 2 ≤ keySet then u.spdmErr (.doe fn) 0xFE spdmInvalid
    else (u.setIde fn { u.ide fn with keys := Tbl.set (u.ide fn).keys keySet key }).spdmOk (.doe fn) 0xFE))

/-- K_SET_GO (R408): a programmed key set comes into use. -/
def execKSetGo (fn keySet : Nat) (s : State) : Host.Outcome State Fault Refusal :=
  .next (s.spdmAt (.doe fn) 0xFE 5 5 (fun u =>
    if (Tbl.find (u.ide fn).keys keySet).isNone then u.spdmErr (.doe fn) 0xFE spdmInvalid
    else (u.setIde fn { u.ide fn with inUse := some keySet }).spdmOk (.doe fn) 0xFE))

/-- K_SET_STOP (R408). -/
def execKSetStop (fn keySet : Nat) (s : State) : Host.Outcome State Fault Refusal :=
  .next (s.spdmAt (.doe fn) 0xFE 5 5 (fun u =>
    if (u.ide fn).inUse ≠ some keySet then u.spdmErr (.doe fn) 0xFE spdmInvalid
    else (u.setIde fn { u.ide fn with inUse := none }).spdmOk (.doe fn) 0xFE))

/-! ## Distribution (R401-R404) -/

/-- The key of a target: its site, or 100 and the fuller's key. -/
def DistTarget.key (t : DistTarget) : Nat :=
  match t.ful with
  | none => t.site
  | some (c, n) => 100 + fulKey c n

/-- Packets of a body. -/
def distPackets (body : List Byte) : Nat := (body.length + 255) / 256

/-- A target's unit is fenced. -/
def State.targetFenced (s : State) (t : DistTarget) : Bool :=
  s.fld RESET_STAT.TILE_CAUSE t.site 0 != 0 ||
  (match t.ful with
   | some (c, n) => s.coreFenced c || s.fld FUL_STAT.FENCED c n == 1
   | none => false)

/-- Targets of a TYPE (R401). -/
def State.distTargets (s : State) (typ : Nat) : List DistTarget :=
  if typ = 2 then s.image.tiles.map (fun t => { site := t.site })
  else s.enabledCores.flatMap (fun c => (s.dmcFullers c).map (fun n => { site := siteOf c, ful := some (c, n) }))

/-- Stopped fullers among the targets claimed; a running one comes later. -/
def State.claim (s : State) : List DistTarget → State
  | [] => s
  | t :: ts =>
    State.claim (match t.ful with
      | some (c, n) =>
        if s.fld FUL_STAT.STATE c n = fulStopped ∧ !s.targetFenced t then s.setFld FUL_STAT.STATE c n fulClaimed else s
      | none => s) ts

/-- The distribution's phase and round shown. -/
def State.showDist (s : State) (d : Dist) : State :=
  { (s.setFld DIST_STAT.PHASE 0 0 d.phase).setFld DIST_STAT.ROUND 0 0 d.round with sec := { s.sec with dist := some d } }

/-- A distribution begins for a live activation (R400, R401). -/
def State.startDist (s : State) (typ : Nat) : State :=
  let img := Tbl.at (s.slot s.nv.active).images typ []
  let ts := s.distTargets typ
  let d : Dist := {
    typ := typ, number := s.sec.distNo % 256, body := imgBody img, digest := imgDigest img, live := true, targets := ts }
  let s1 := s.setFlds [(DIST_STAT.TARGETS, 0, 0, ts.length), (DIST_STAT.GOOD, 0, 0, 0), (DIST_STAT.BAD, 0, 0, 0), (DIST_STAT.TYPE, 0, 0, typ)]
  let s2 := (s1.showDist d).claim ts
  { s2 with sec := { s2.sec with distNo := s.sec.distNo + 1 } }

/-- A packet written into one target's copy by its agent (R401); whether it was. -/
def State.distWrite (s : State) (t : DistTarget) (seq : Nat) (data : List Byte) : State × Bool :=
  match t.ful with
  | some (c, n) =>
    if s.fld FUL_STAT.STATE c n = fulClaimed then
      ({ s with mem := memPutBytes s.mem (fulByte c n (0x4000 + 256 * seq)) data }, true)
    else (s, false)
  | none =>
    match (s.ltileOf t.site).bind s.runtimeDa with
    | some (da, len) =>
      if 256 * seq + data.length ≤ len then
        let p := s.daWrite .hatband (da + 256 * seq) data
        (p.st, p.status == .ok)
      else (s, false)
    | none => (s, false)

/-- A packet marked in a target's bitmap. -/
def Dist.mark (d : Dist) (t : DistTarget) (seq : Nat) : Dist :=
  { d with got := Tbl.set d.got t.key (addOnce (Tbl.at d.got t.key []) seq) }

/-- A packet taken by an agent for its targets. -/
def State.distTake (s : State) (d : Dist) (seq : Nat) (data : List Byte) : List DistTarget → State × Dist
  | [] => (s, d)
  | t :: ts =>
    let r := if s.targetFenced t then (s, false) else s.distWrite t seq data
    State.distTake r.1 (if r.2 then d.mark t seq else d) seq data ts

/-- The agent of a site takes a packet of the running distribution. -/
def State.agentTakes (s : State) (site dist seq typ : Nat) (data : List Byte) : State :=
  match s.sec.dist with
  | some d =>
    if d.number = dist ∧ d.typ = typ ∧ d.phase ≤ 2 ∧ seq < distPackets d.body ∧ data.length = min 256 (d.body.length - 256 * seq) then
      let r := s.distTake d seq data (d.targets.filter (fun t => t.site == site))
      { r.1 with sec := { r.1.sec with dist := some r.2 } }
    else s
  | none => s

/-- The endpoint number that means multicast (R264). -/
def endMulticast : Nat := 127

/-- An MCAST packet at a router (R270, R401): copied to the ports of the router's mask; the local agent writes it. -/
def State.mcastAt (s : State) (site dist seq typ : Nat) (data : List Byte) : State :=
  let k : MeshPkt := {
    da := dist % 256 * 2 ^ 32 + seq % 2 ^ 32, len := data.length, op := 4, unit := 5, tag := typ, dst := endMulticast,
    src := 72 + s.hb.active, spt := 0, hb := true, data := data }
  let m := s.fld MCAST_MASK.MASK site 0
  let s1 := s.meshPutAll (((List.range 5).filter (fun p => p != 0 && m.testBit p)).map (fun p => (site, p, k)))
  if m.testBit 0 then s1.agentTakes site dist seq typ data else s1

/-- MCAST (R270, R401): in a repair round the packet is a unicast to this site, and is not copied (R402). -/
def execMcast (site dist seq typ : Nat) (data : List Byte) (s : State) : Host.Outcome State Fault Refusal :=
  .next (match s.sec.dist with
    | some d =>
      if d.number = dist ∧ d.phase = 2 then s.agentTakes site dist seq typ data else s.mcastAt site dist seq typ data
    | none => s.mcastAt site dist seq typ data)

/-- Packets a target misses. -/
def Dist.missing (d : Dist) (t : DistTarget) : Nat := distPackets d.body - (Tbl.at d.got t.key []).length

/-- ROLL_CALL (R402): nothing missing or the third round over: the agents hash; else another round. -/
def execRollCall (s : State) : Host.Outcome State Fault Refusal :=
  .next (match s.sec.dist with
    | some d =>
      if d.phase = 1 ∨ d.phase = 2 then
        let s1 := s.claim d.targets
        if d.targets.all (fun t => s1.targetFenced t || d.missing t == 0) ∨ d.round = 3 then s1.showDist { d with phase := 3 }
        else s1.showDist { d with phase := 2, round := d.round + 1 }
      else s
    | none => s)

/-- The bytes of a target's copy. -/
def State.distCopy (s : State) (t : DistTarget) (n : Nat) : State × Option (List Byte) :=
  match t.ful with
  | some (c, k) => (s, some (memBytes s.mem (fulByte c k 0x4000) n))
  | none =>
    match (s.ltileOf t.site).bind s.runtimeDa with
    | some (da, _) =>
      let g := s.daRead .hatband da n
      (g.st, if g.status = .ok then some g.data else none)
    | none => (s, none)

/-- What an agent reports of each target (R402). -/
def State.hashEach (s : State) (d : Dist) : List DistTarget → State × List (DistTarget × Nat)
  | [] => (s, [])
  | t :: ts =>
    let r : State × Nat :=
      if s.targetFenced t then (s, 4)
      else if d.missing t ≠ 0 then (s, 2)
      else
        let c := s.distCopy t d.body.length
        (c.1, match c.2 with
          | some b => if Config.sha512 b = d.digest then 1 else 3
          | none => 3)
    let k := State.hashEach r.1 d ts
    (k.1, (t, r.2) :: k.2)

/-- Targets reported GOOD. -/
def goodCount (l : List (DistTarget × Nat)) : Nat := (l.filter (fun x => x.2 == 1)).length

/-- DIST_HASH_DONE (R402). -/
def execDistHashDone (site : Nat) (s : State) : Host.Outcome State Fault Refusal :=
  .next (match s.sec.dist with
    | some d =>
      if d.phase = 3 ∧ !d.hashed.contains site then
        let r := s.hashEach d (d.targets.filter (fun t => t.site == site))
        let d1 := { d with result := d.result ++ r.2, hashed := d.hashed ++ [site] }
        (r.1.setFlds [(DIST_STAT.GOOD, 0, 0, goodCount d1.result),
          (DIST_STAT.BAD, 0, 0, min 255 (d1.result.length - goodCount d1.result))]).showDist d1
      else s
    | none => s)

/-- FULLER_CLAIM_TIMEOUT (R401). -/
def execFullerClaimTimeout (core n : Nat) (s : State) : Host.Outcome State Fault Refusal :=
  .next (match s.sec.dist with
    | some d =>
      let mine := d.targets.filter (fun t => t.ful == some (core, n))
      if mine ≠ [] ∧ d.phase ≤ 2 then (s.fulStop core n .aborted 0).claim mine else s
    | none => s)

/-- A fuller fenced as under R186. -/
def State.fenceFuller (s : State) (c n : Nat) : State :=
  if s.fld FUL_STAT.FENCED c n = 1 then s
  else ((s.fulStop c n .aborted 0).setFld FUL_STAT.FENCED c n 1).raise .FULLER_FENCED (siteOf c) (coreNo c) [(1, n), (1, n / 2)]

/-- DMEM of a fuller cleared, and the fuller released from its claim. -/
def State.release (s : State) (c n : Nat) : State :=
  let lo := fulByte c n 0x4000
  let hi := fulByte c n 0x6000
  let s1 : State := { s with mem := memClear s.mem lo hi, marks := Tbl.dropKeys s.marks (fun k => decide (lo ≤ k) && decide (k < hi)) }
  if s1.fld FUL_STAT.STATE c n = fulClaimed then s1.setFld FUL_STAT.STATE c n fulStopped else s1

/-- A target as it stands when the Hatband issues COMMIT: fenced since, or as reported. -/
def State.finalResult (s : State) (d : Dist) (t : DistTarget) : Nat :=
  if s.targetFenced t then 4 else ((d.result.find? (fun x => x.1 == t)).map (·.2)).getD 2

/-- A target of a spare channel, which R403 does not count. -/
def DistTarget.spare (t : DistTarget) : Bool :=
  match t.ful with
  | some (_, n) => n / 2 == 16
  | none => false

/-- COMMIT delivered to a target that is GOOD (R403). -/
def State.commitTo (s : State) (t : DistTarget) : State :=
  match t.ful with
  | some (c, n) =>
    let code := memBytes s.mem (fulByte c n 0x4000) 0x2000
    let m := memPutBytes (memClear s.mem (fulByte c n 0) (fulByte c n 0x2000)) (fulByte c n 0) code
    ({ s with mem := m } : State).release c n
  | none => s.startMil t.site

/-- What a BAD target suffers when the distribution commits under DIST_POLICY 1, or as a spare's fuller. -/
def State.condemn (s : State) (t : DistTarget) : State :=
  match t.ful with
  | some (c, n) => (s.release c n).fenceFuller c n
  | none => s.holdMil t.site

/-- COMMIT of every target. -/
def State.commitAll (s : State) : List (DistTarget × Nat) → State
  | [] => s
  | (t, r) :: l => State.commitAll (if r = 1 then s.commitTo t else s.condemn t) l

/-- ABORT of every target: copies discarded, fullers released with their old microcode; a failed spare's fuller is fenced. -/
def State.abortAll (s : State) : List (DistTarget × Nat) → State
  | [] => s
  | (t, r) :: l =>
    State.abortAll (match t.ful with
      | some (c, n) => if r ≠ 1 ∧ t.spare then (s.release c n).fenceFuller c n else s.release c n
      | none => s) l

/-- The images of two slots differ in a TYPE. -/
def State.imageDiffers (s : State) (typ : Nat) : Bool := Tbl.find (s.slot 0).images typ != Tbl.find (s.slot 1).images typ

/-- DIST_COMMIT (R403): the second phase, once every agent has reported. -/
def execDistCommit (s : State) : Host.Outcome State Fault Refusal :=
  .next (match s.sec.dist with
    | some d =>
      if d.phase = 3 ∧ d.targets.all (fun t => s.targetFenced t || d.hashed.contains t.site) then
        let l := d.targets.map (fun t => (t, s.finalResult d t))
        let good := goodCount l
        let bad := l.length - good
        let s0 : State := { s with sec := { s.sec with dist := none } }
        if l.all (fun x => x.2 == 1 || x.1.spare) ∨ s.fld UPD_CTL.DIST_POLICY 0 0 = 1 then
          let s1 := s0.commitAll l
          let s2 : State := { s1 with sec := { s1.sec with loaded := Tbl.set s1.sec.loaded d.typ d.digest } }
          let s3 := (((s2.refreshDeg).tdiErrors 2 (List.range 32)).distResult d.typ l.length good bad d.round 0)
          if d.typ = 3 ∧ s3.imageDiffers 2 then s3.startDist 2 else s3
        else
          let s1 := s0.abortAll l
          let a := s1.nv.active
          let s2 := if d.live then
              let t := s1.setSlot a { s1.slot a with state := 1 }
              ({ t with nv := { t.nv with active := 1 - a, tries := 0, revert := none } } : State).showNv
            else s1
          s2.distResult d.typ l.length good bad d.round 1
      else s
    | none => s)

/-! ## PLDM for firmware update (R399, R400) -/

/-- Completion codes of DSP0267. -/
def pldmNotInUpdate : Nat := 0x80
def pldmAlready : Nat := 0x81
def pldmInvalidState : Nat := 0x84
def pldmIncomplete : Nat := 0x85
def pldmNotExpected : Nat := 0x88
def pldmInvalidData : Nat := 0x02

/-- A PLDM message is heard: by MCTP, not over DOE. -/
def State.pldmHears (s : State) (t : Transport) : Bool :=
  s.hears t && (match t with
    | .doe _ => false
    | _ => true)

/-- A command answered. -/
def State.pldm (s : State) (t : Transport) (code st : Nat) (body : List Byte := []) : State :=
  s.answer (some t) code (st == 0) st body

/-- A command of the update agent's own transport. -/
def State.pldmIn (s : State) (t : Transport) (code : Nat) (act : Upd → State) : State :=
  if !s.pldmHears t then s
  else match s.sec.upd with
    | some u => if u.by_ = t then act u else s.pldm t code pldmNotInUpdate
    | none => s.pldm t code pldmNotInUpdate

/-- The update agent's state replaced. -/
def State.setUpd (s : State) (u : Option Upd) : State := { s with sec := { s.sec with upd := u } }

/-- QUERY_DEVICE_IDENTIFIERS (R399): its content is the standard's. -/
def execQueryDeviceIdentifiers (t : Transport) (s : State) : Host.Outcome State Fault Refusal :=
  .next (if s.pldmHears t then s.draw.pldm t 0x01 0 (Config.protocolBody 0x01 s.freeCtr) else s)

/-- The component versions: of each TYPE 0 to 4 in the ACTIVE slot and in the other, its SVN and BODY_DIGEST. -/
def State.componentBytes (s : State) : List Byte :=
  (List.range 5).flatMap (fun typ => [s.nv.active, 1 - s.nv.active].flatMap (fun k =>
    let l := Tbl.at (s.slot k).images typ []
    leBytes 2 (typ + 1) ++ leBytes 4 (imgSvn l) ++ leBytes 64 (imgDigest l).toNat))

/-- GET_FIRMWARE_PARAMETERS (R399). -/
def execGetFirmwareParameters (t : Transport) (s : State) : Host.Outcome State Fault Refusal :=
  .next (if s.pldmHears t then s.draw.pldm t 0x02 0 (s.componentBytes ++ Config.protocolBody 0x02 s.freeCtr) else s)

/-- REQUEST_UPDATE (R399). -/
def execRequestUpdate (t : Transport) (s : State) : Host.Outcome State Fault Refusal :=
  .next (if !s.pldmHears t then s
    else if s.sec.upd.isSome then s.pldm t 0x10 pldmAlready
    else if (s.slot s.nv.active).state = 2 ∨ (s.slot s.nv.active).state = 3 then s.pldm t 0x10 pldmInvalidState
    else (s.setUpd (some { by_ := t })).pldm t 0x10 0)

/-- PASS_COMPONENT_TABLE (R399): identifiers 1 to 5. -/
def execPassComponentTable (t : Transport) (components : List Nat) (s : State) : Host.Outcome State Fault Refusal :=
  .next (s.pldmIn t 0x13 (fun u =>
    if u.state ≠ 1 then s.pldm t 0x13 pldmInvalidState
    else if !(components.all (fun c => decide (1 ≤ c) && decide (c ≤ 5)) && distinct components) then s.pldm t 0x13 pldmInvalidData
    else (s.setUpd (some { u with state := 2, comps := components })).pldm t 0x13 0))

/-- UPDATE_COMPONENT (R399): the slot that is not ACTIVE is written from now on. -/
def execUpdateComponent (t : Transport) (component size : Nat) (s : State) : Host.Outcome State Fault Refusal :=
  .next (s.pldmIn t 0x14 (fun u =>
    if u.state ≠ 2 then s.pldm t 0x14 pldmInvalidState
    else if !u.comps.contains component ∨ size = 0 ∨ 512 + maxBody (component - 1) < size then s.pldm t 0x14 pldmInvalidData
    else
      let b := 1 - s.nv.active
      let s1 := (s.setSlot b { s.slot b with state := 0 }).setUpd (some { u with state := 3, cur := some (component, size), part := [] })
      s1.showNv.pldm t 0x14 0))

/-- Every component has verified: the slot becomes STAGED, with the ACTIVE slot's images where none was delivered (R399). -/
def State.stage (s : State) (t : Transport) (u : Upd) : State :=
  let b := 1 - s.nv.active
  let images := u.got.foldl (fun m x => Tbl.set m x.1 x.2) (s.slot s.nv.active).images
  let fmt := match Tbl.find u.got 1 with
    | some l => imgFormat l
    | none => (s.slot s.nv.active).fmt
  match images.find? (fun x => s.verifyImage x.2 x.1 != 0) with
  | some (typ, l) => s.imgRefused l b typ (s.verifyImage l typ)
  | none =>
    (s.setSlot b { state := 1, images := images, fmt := fmt }).showNv.raise .UPD_STAGED (72 + s.hb.active) uHatband
      [(1, b), (1, transportKey t % 256)]

/-- REQUEST_FIRMWARE_DATA (R399): 4,096 bytes, the last answer shorter; a complete component is verified. -/
def execRequestFirmwareData (t : Transport) (bytes : List Byte) (s : State) : Host.Outcome State Fault Refusal :=
  .next (s.pldmIn t 0x15 (fun u =>
    match u.cur with
    | none => s.pldm t 0x15 pldmNotExpected
    | some (c, size) =>
      if bytes.length ≠ min 4096 (size - u.part.length) then s.pldm t 0x15 pldmInvalidData
      else
        let l := u.part ++ bytes
        if l.length < size then (s.setUpd (some { u with part := l })).pldm t 0x15 0
        else
          let k := s.verifyImage l (c - 1)
          if k ≠ 0 then
            ((s.setUpd (some { u with state := 2, cur := none, part := [] })).imgRefused l (1 - s.nv.active) (c - 1) k).pldm t 0x17 Status.auth.code
          else
            let u1 := { u with state := 2, cur := none, part := [], got := Tbl.set u.got (c - 1) l }
            let s1 := (s.setUpd (some u1)).pldm t 0x17 0
            if u.comps.all (fun x => (Tbl.find u1.got (x - 1)).isSome) then s1.stage t u1 else s1))

/-- A staged slot can be activated at once (R400). -/
def State.liveOk (s : State) : Bool :=
  s.hb.stage == 7 && s.sec.dist.isNone && !(s.imageDiffers 0 || s.imageDiffers 1 || s.imageDiffers 4) &&
  !s.parts.any (fun x => x.2.state == 1 || x.2.state == 2)

/-- ACTIVATE_FIRMWARE (R399, R400): the STAGED slot is ACTIVE in TRIAL; the answer's byte is 1 where it needs a reset. -/
def execActivateFirmware (t : Transport) (selfContained : Bool) (s : State) : Host.Outcome State Fault Refusal :=
  .next (s.pldmIn t 0x1A (fun u =>
    let b := 1 - s.nv.active
    if u.cur.isSome then s.pldm t 0x1A pldmInvalidState
    else if (s.slot b).state ≠ 1 then s.pldm t 0x1A pldmIncomplete
    else
      let live : Bool := selfContained && s.liveOk
      let s1 := (s.setSlot b { s.slot b with state := 2 }).setUpd none
      let s2 : State := { s1 with nv := { s1.nv with active := b, tries := 0, revert := none } }
      let s3 := s2.showNv.raise .UPD_ACTIVATED (72 + s.hb.active) uHatband [(1, b), (1, if live then 1 else 0)]
      let s4 := if live then (if s.imageDiffers 3 then s3.startDist 3 else if s.imageDiffers 2 then s3.startDist 2 else s3) else s3
      s4.pldm t 0x1A 0 [if live then 0 else 1]))

/-- GET_STATUS (R399): 0 idle, else the agent's state. -/
def execGetStatus (t : Transport) (s : State) : Host.Outcome State Fault Refusal :=
  .next (if s.pldmHears t then s.pldm t 0x1B 0 (leBytes 1 ((s.sec.upd.map (·.state)).getD 0)) else s)

/-- CANCEL_UPDATE_COMPONENT (R399). -/
def execCancelUpdateComponent (t : Transport) (s : State) : Host.Outcome State Fault Refusal :=
  .next (s.pldmIn t 0x1C (fun u =>
    if u.cur.isNone then s.pldm t 0x1C pldmNotExpected
    else (s.setUpd (some { u with state := 2, cur := none, part := [] })).pldm t 0x1C 0))

/-- CANCEL_UPDATE (R399). -/
def execCancelUpdate (t : Transport) (s : State) : Host.Outcome State Fault Refusal :=
  .next (s.pldmIn t 0x1D (fun _ => (s.setUpd none).pldm t 0x1D 0))

/-! ## CONFIRM, REVERT and owner keys (R388, R389, R396, R397) -/

/-- CONFIRM is accepted (R397). -/
def State.mayConfirm (s : State) : Bool := (s.slot s.nv.active).state == 2 && s.hb.stage == 7

/-- CONFIRM's effect (R397): CONFIRMING, the counters, GOOD; else STATE_CONFLICT with none. -/
def State.confirm (s : State) : State :=
  if s.mayConfirm then (s.setSlot s.nv.active { s.slot s.nv.active with state := 3 }).makeGood s.nv.active else s

/-- REVERT's effect (R396): at the next bring-up. -/
def State.revert (s : State) : State :=
  if (s.slot s.nv.active).state = 2 then { s with nv := { s.nv with revert := some 4 } } else s

/-- CONFIRM (R397). -/
def execConfirm (by_ : Agent) (s : State) : Host.Outcome State Fault Refusal :=
  .next (s.brimGate by_ 0 0x8004010 (fun u => u.confirm))

/-- REVERT (R396). -/
def execRevert (by_ : Agent) (s : State) : Host.Outcome State Fault Refusal :=
  .next (s.brimGate by_ 0 0x8004010 (fun u => u.revert))

/-- OWNER_ENROLL (R388): only over I3C, only a blank slot 2 or 3. -/
def execOwnerEnroll (t : Transport) (slot : Nat) (hash : BitVec 512) (s : State) : Host.Outcome State Fault Refusal :=
  .next (if !s.hears t then s
    else if t = .i3c ∧ (slot = 2 ∨ slot = 3) ∧ !s.nv.prog.testBit slot then
      let s1 : State := { s with nv := { s.nv with owners := Tbl.set s.nv.owners slot hash, prog := s.nv.prog ||| 2 ^ slot } }
      (s1.showNv.raise .OWNER_ENROLLED (72 + s.hb.active) uHatband [(1, slot)]).answer (some t) 0x100 true 0 []
    else s.answer (some t) 0x100 false Status.auth.code [])

/-- The slot `signer` may revoke slot `k` (R389). -/
def mayRevoke (signer k revoked : Nat) : Bool :=
  decide (k < 4) && signer != k && (signer / 2 == k / 2 || decide (signer < 2)) &&
  ((List.range 2).any (fun j => j != k && !revoked.testBit j))

/-- REVOCATION_ORDER (R389): the slot it names is the body's first byte. -/
def execRevocationOrder (image : List Byte) (s : State) : Host.Outcome State Fault Refusal :=
  .next (if !(s.supply.on && (decide (2 ≤ s.hb.stage) || s.boot.failed)) then s
    else if s.verifyImage image 5 ≠ 0 then
      (s.imgRefused image 0xFF 5 (s.verifyImage image 5)).answer none 0x101 false Status.auth.code []
    else
      let k := byAt (imgBody image) 0 1
      if mayRevoke (imgSlot image) k s.nv.revoke then
        let s1 : State := { s with nv := { s.nv with revoke := s.nv.revoke ||| 2 ^ k } }
        (s1.showNv.raise .KEY_REVOKED (72 + s.hb.active) uHatband [(1, k), (1, imgSlot image)]).answer none 0x101 true 0 []
      else s.answer none 0x101 false Status.auth.code [])

end Sys2Proof.Machine
end

