-- ==== Sys2Proof/Machine/CsrBus.lean ====
section
/-! DEFINITION. Control and status windows (R5, R6, R23) and BAR0 (R209): what a read of an offset shows and clears, and what a
write of each register does. -/

namespace Sys2Proof.Machine

/-! ## Reads -/

/-- A register as a read shows it (R5): write-only and reserved bits read 0; values the module computes stand in their
fields. MIL.WDOG.REMAIN is a free value of its range while the watchdog runs (log 8). -/
def State.regShow (s : State) (r : Reg) (u i : Nat) : Word :=
  let w := s.reg r u i &&& accessMask (r.fields i) [.ro, .rw, .w1c, .w1s, .rc]
  match r with
  | .BOOT_STAGE => setBits w 19 16 s.devState
  | .FN_STAT =>
    let w1 := setBits w 23 20 s.devState
    match s.fnPt u with
    | some p => setBits (setBits w1 18 16 (s.part p).state) 19 19 (if s.degNow p then 1 else 0)
    | none => w1
  | .FUL_STAT => setBits w 2 0 (s.fulShown u i)
  | .MIL_WDOG => if getBits w 8 8 = 1 then setBits w 39 16 (s.freeVal % 10001) else w
  | .GUARD_CTRL => if s.dieLevel (siteOf u) = 1 then setBits w 2 2 0 else w
  | _ => w

/-- The RC fields of a register cleared by an 8-byte read (R5, R6). -/
def State.rcClear (s : State) (r : Reg) (u i : Nat) : State :=
  let m := accessMask (r.fields i) [.rc]
  if m = 0 then s else s.setReg r u i (s.reg r u i &&& ~~~m)

/-- An entry of MIL.FUL_IRQ as its register shows it. -/
def fulIrqWord (e : Nat × Nat × Nat) : Nat := 2 ^ 63 + e.1 % 4 * 2 ^ 38 + e.2.1 % 64 * 2 ^ 32 + e.2.2 % 2 ^ 32

/-- A read of MIL.FUL_IRQ (R202): it pops one entry; the core's source falls with the core's last entry. -/
def State.fulIrqRead (s : State) (site : Nat) : State × Nat :=
  let m := s.mil site
  match m.fulIrq with
  | e :: r =>
    let on := r.any (fun x => x.1 == e.1)
    (s.setMil site { m with fulIrq := r, aplic := if on then m.aplic else m.aplic.filter (· != 5 + e.1) }, fulIrqWord e)
  | [] => (s, 0)

/-- An APLIC source's target register, at +0x10_3000 + 4 i of the milliner window (log 23). -/
def aplicSource (off : Nat) : Option Nat :=
  if 0x103004 ≤ off ∧ off < 0x104000 then some ((off - 0x103000) / 4) else none

/-- A byte of what a window holds beside registers: a fuller's memories (R182), the milliner event ring (R381), APLIC targets,
the record, the stage reports, the half-cycle counts and the module log. -/
def State.csrByte (s : State) (w : Window) (u off : Nat) : Byte :=
  match w with
  | .core =>
    if 0x100000 ≤ off ∧ off < 0x100000 + 0x6000 * 34 then
      memByte s.mem (fulByte u ((off - 0x100000) / 0x6000) ((off - 0x100000) % 0x6000))
    else 0
  | .mil =>
    if 0x201000 ≤ off ∧ off < 0x201800 then
      match Tbl.find s.events.milRing (64 * u + (off - 0x201000) / 32) with
      | some r => r.bytes.getD (off % 32) 0
      | none => 0
    else match aplicSource off with
      | some i => (leBytes 4 (Tbl.at (s.mil u).targets i 0)).getD (off % 4) 0
      | none => 0
  | .hb =>
    if 0x100000 ≤ off ∧ off < 0x200000 then s.boot.record.getD (off - 0x100000) 0
    else if 0x200000 ≤ off ∧ off < 0x300000 then
      ((s.boot.reports.getD ((off - 0x200000) / 0x40000) []).flatMap Report.bytes).getD (off % 0x40000) 0
    else if 0x300000 ≤ off ∧ off < 0x300360 then
      let o := off - 0x300000
      (leBytes 4 (Tbl.at s.therm.counts (o / 4) 0)).getD (o % 4) 0
    else if 0x400000 ≤ off ∧ off < 0x480000 then
      let i := (off - 0x400000) / 32
      match s.events.log[(s.fld EVT_STAT.WRITTEN 0 0 + 2 * 16384 - 1 - i) % 16384]? with
      | some r => r.bytes.getD (off % 32) 0
      | none => 0
    else 0
  | _ => 0

/-- A read of `size` bytes at an offset of a window: the state after it and the value; SAT_COUNT read allows GUARD_SAT again
(R90). An offset no chapter defines reads 0
(R23). -/
def State.csrRead (s : State) (w : Window) (u off size : Nat) : State × Nat :=
  match regAt w u off with
  | some (.MSG_FIFO, c, _, _) => let r := s.msgPop c; (r.1, r.2.toNat)
  | some (.MIL_FUL_IRQ, st, _, _) => s.fulIrqRead st
  | some (r, ru, i, b) =>
    let v := (s.regShow r ru i).toNat / 2 ^ (8 * b) % 2 ^ (8 * size)
    let s1 := if r = .MIL_WDOG then s.draw else s
    let s2 := if size = 8 then s1.rcClear r ru i else s1
    (if r = .GUARD_STAT ∧ i % 8 = 0 ∧ size = 8 then
      s2.setCore ru { s2.core ru with satRaised := (s2.core ru).satRaised.filter (· != i / 8) } else s2, v)
  | none => (s, leNat ((List.range size).map (fun j => s.csrByte w u (off + j))))

/-! ## Writes of registers -/

/-- A register with the written bytes in place of its own. -/
def merged (old v mask : Word) : Word := (old &&& ~~~mask) ||| (v &&& mask)

/-- CORE.GUARD_CFG written: thresholds and the format's clamps, EN only where FMT is valid, SEED_GO (R83, R87). -/
def State.guardCfgWrite (s : State) (c n : Nat) (v mask : Word) : State :=
  let s1 := s.writeRw .GUARD_CFG c n v mask
  let h := s1.fld GUARD_CFG.HEAD_THR c n
  let k := s1.fld GUARD_CFG.CLIP_THR c n
  let f := s1.fld GUARD_CFG.FMT c n
  let ok := decide (4 ≤ f) && decide (f ≤ 0xD) && (decide (f < 0xC) || s.b1Level c)
  let s2 := (s1.setFld GUARD_CFG.HEAD_THR c n (if h = 15 then 15 else if h < 3 then 3 else min 12 h)).setFld
    GUARD_CFG.CLIP_THR c n (if k < 2 then 2 else min 12 k)
  let s3 := if ok then s2 else s2.setFld GUARD_CFG.EN c n 0
  if getBits (v &&& mask) 63 63 = 1 then s3.seedGo c n else s3

/-- CORE.QCFG written: BASE and SIZE while EN is 0, then EN (R93). -/
def State.qcfgWrite (s : State) (c q : Nat) (v mask : Word) : State :=
  let s1 := if s.fld QCFG.EN c q = 1 then s
    else
      let t := s.writeRw .QCFG c q v (mask &&& setBits 0 21 1 (2 ^ 21 - 1))
      t.setFld QCFG.SIZE c q (min 10 (t.fld QCFG.SIZE c q))
  let en := getBits v 0 0 == 1
  if getBits mask 0 0 = 0 ∨ (s.fld QCFG.EN c q == 1) = en then s1 else s1.qEnable c q en

/-- CORE.QCTL written: RESUME or SKIP; which of both together acts is free. -/
def State.qctlWrite (s : State) (c q : Nat) (w : Word) : State :=
  let sig := getBits w 2 2 == 1
  match getBits w 1 0 with
  | 1 => s.qctl c q false sig
  | 2 => s.qctl c q true sig
  | 3 => (s.draw).qctl c q (s.freeVal % 2 == 1) sig
  | _ => s

/-- CORE.FUL_CTL written: the mailbox, STOP (R185), the check of LOAD_DONE (R183). -/
def State.fulCtlWrite (s : State) (c n : Nat) (v mask : Word) : State :=
  let w := v &&& mask
  let s1 := s.writeRw .FUL_CTL c n v mask
  let s2 := if getBits w 31 31 = 1 then s1.setFld FUL_CTL.MBOX_V c n 1 else s1
  let s3 := if getBits w 0 0 = 1 then s2.fulStop c n .aborted 0 else s2
  if getBits w 16 16 = 1 then s3.loadDone c n else s3

/-- TILE.DRAM_CFG written. -/
def State.dramCfgWrite (s : State) (site : Nat) (v mask : Word) : State :=
  let s1 := s.writeRw .DRAM_CFG site 0 v mask
  (s1.setFld DRAM_CFG.SCRUB_MS site 0 (min 439 (max 1 (s1.fld DRAM_CFG.SCRUB_MS site 0)))).setFld
    DRAM_CFG.RT_INT site 0 (min 16 (max 1 (s1.fld DRAM_CFG.RT_INT site 0)))

/-- MIL.EVT_PTR written: the runtime takes records from a full ring by moving HEAD (R381). -/
def State.evtPtrWrite (s : State) (site : Nat) (v mask : Word) : State :=
  let s1 := s.writeRw .MIL_EVT_PTR site 0 v mask
  if s1.fld MIL_EVT_PTR.HEAD site 0 = s.fld MIL_EVT_PTR.HEAD site 0 then s1
  else { s1 with events := { s1.events with milFull := s1.events.milFull.filter (· != site) } }

/-- BL.PORT_CFG written: MINW, and FENCE where it changes (R234). -/
def State.portCfgWrite (s : State) (p : Nat) (v mask : Word) : State :=
  let s1 := s.writeRw .PORT_CFG 0 p v (mask &&& setBits 0 7 6 3)
  let s2 := s1.setFld PORT_CFG.MINW 0 p (min 2 (s1.fld PORT_CFG.MINW 0 p))
  if getBits mask 8 8 = 0 ∨ getBits v 8 8 = s.fld PORT_CFG.FENCE 0 p then s2 else s2.portFence p (getBits v 8 8 == 1)

/-- BL.GRP_CFG written while EN is 0 (R257). -/
def State.grpCfgWrite (s : State) (g : Nat) (v mask : Word) : State :=
  if s.fld GRP_CFG.EN 0 g = 1 then s
  else
    let s1 := s.writeRw .GRP_CFG 0 g v mask
    let s2 := ((s1.setFld GRP_CFG.NKIDS 0 g (min 8 (s1.fld GRP_CFG.NKIDS 0 g))).setFld
      GRP_CFG.DEADLINE 0 g (max 1 (s1.fld GRP_CFG.DEADLINE 0 g))).setFld GRP_CFG.LOST_MS 0 g (max 1 (s1.fld GRP_CFG.LOST_MS 0 g))
    if s2.fld GRP_CFG.EN 0 g = 1 then { s2 with brim := { s2.brim with groups := Tbl.del s2.brim.groups g } } else s2

/-- TILE.CORE_PWR written: each core whose REQ is written; a repeated value of a core in that state asks for nothing (R340). -/
def State.corePwrWrite (s : State) (site : Nat) (v mask : Word) : List Nat → State
  | [] => s
  | n :: ns =>
    let req := getBits v (4 * n + 1) (4 * n)
    let c := coreKey site n
    let there := s.fld (CORE_PWR.REQ n) site 0 == req && s.pwrState c == (if req = 0 then 0 else req - 1)
    State.corePwrWrite (if getBits mask (4 * n + 1) (4 * n) = 0 || there then s else s.corePwr c req) site v mask ns

/-- HB.COOL_CFG written. -/
def State.coolCfgWrite (s : State) (v mask : Word) : State :=
  let s1 := s.writeRw .COOL_CFG 0 0 v mask
  ((s1.setFld COOL_CFG.SETPOINT 0 0 (min 6000 (max 2000 (s1.fld COOL_CFG.SETPOINT 0 0)))).setFld
    COOL_CFG.KFACTOR 0 0 (max 1 (s1.fld COOL_CFG.KFACTOR 0 0))).setFld
    COOL_CFG.FC_TARGET 0 0 (min 108 (max 80 (s1.fld COOL_CFG.FC_TARGET 0 0)))

/-- HB.UPD_CTL written: CONFIRM, REVERT (R396, R397). -/
def State.updCtlWrite (s : State) (w : Word) : State :=
  let s1 := if getBits w 0 0 = 1 then s.confirm else s
  if getBits w 2 2 = 1 then s1.revert else s1

/-- A write to a register (R5): `mask` names the written bytes. A register with no rule of its own takes its RW fields; RO and
reserved fields ignore it. -/
def State.regWrite (s : State) (r : Reg) (u i : Nat) (v mask : Word) : State :=
  let w := v &&& mask
  let new := merged (s.reg r u i) v mask
  match r with
  | .QUANT_CTRL => s.quantWrite u v mask
  | .ARRAY_CFG =>
    let s1 := s.writeRw r u i v mask
    s1.setFld ARRAY_CFG.CHK_TOL u i (min 22 (max 10 (s1.fld ARRAY_CFG.CHK_TOL u i)))
  | .GUARD_CFG => s.guardCfgWrite u i v mask
  | .GUARD_CTRL => s.writeRw r u i v (if s.dieLevel (siteOf u) = 1 then mask &&& ~~~setBits 0 2 2 1 else mask)
  | .QCFG => s.qcfgWrite u i v mask
  | .QPTR => if getBits mask 31 16 = 0 then s else s.tailWrite u i (getBits w 31 16)
  | .QCTL => s.qctlWrite u i w
  | .FUL_CFG =>
    let s1 := s.writeRw r u i v mask
    s1.setFld FUL_CFG.WD u i (min 6 (s1.fld FUL_CFG.WD u i))
  | .FUL_CTL => s.fulCtlWrite u i v mask
  | .DRAM_CFG => s.dramCfgWrite u v mask
  | .DRAM_INJECT => s.injectWrite u new
  | .DRAM_REPAIR_CMD =>
    if getBits mask 63 60 ≠ 0 then s.repairWrite u new
    else if s.fld DRAM_REPAIR_STAT.BUSY u 0 = 1 then s.setFld DRAM_REPAIR_STAT.STATUS u 0 Status.stateConflict.code
    else s.writeRw r u i v mask
  | .MIL_WDOG => if getBits w 7 0 = 0xA5 then s.setMil u { s.mil u with warned := false } else s
  | .MIL_EVT_PTR => s.evtPtrWrite u v mask
  | .FN_CTL => if getBits mask 0 0 = 0 then s else s.fnCtl u w.toNat
  | .ASQ_ACQ | .AQ_SIZE => if s.fld FN_CTL.EN u 0 = 1 then s else s.writeRw r u i v mask
  | .PORT_CFG => s.portCfgWrite i v mask
  | .GRP_CFG => s.grpCfgWrite i v mask
  | .BL_ROUTE => (s.writeRw r u i v mask).collCheck
  | .GRP_KIDS =>
    if s.fld GRP_CFG.EN 0 (i / 2) = 1 then s
    else s.writeRw r u i v (if i % 2 = 1 then mask &&& setBits 0 47 0 (2 ^ 48 - 1) else mask)
  | .MESH_LINK =>
    if getBits mask 16 16 = 0 ∨ getBits v 16 16 = s.fld MESH_LINK.FENCE u i then s else s.meshFence u i (getBits v 16 16 == 1)
  | .BOOT_CTL => if getBits mask 3 0 = 0 then s else s.bootCtl w.toNat
  | .RESET_CTL => if getBits mask 63 56 = 0 then s else s.resetCtl u (getBits w 63 60) (getBits w 59 56)
  | .CORE_PWR => s.corePwrWrite u v mask [0, 1, 2, 3]
  | .PWR_CAP => if getBits mask 15 0 = 0 then s else s.writeTileCap u (getBits w 15 0)
  | .MOD_CAP => if getBits mask 15 0 = 0 then s else (s.setFld MOD_CAP.HOST 0 0 (clampModuleCap (getBits w 15 0))).moduleCap
  | .COOL_CFG => s.coolCfgWrite v mask
  | .UPD_CTL => s.updCtlWrite w
  | _ => s.writeRw r u i v mask

/-- The written word and bytes of a `size`-byte write at byte `b` of a register. -/
def laneWord (b size val : Nat) : Word × Word :=
  (BitVec.ofNat 64 (val % 2 ^ (8 * size) * 2 ^ (8 * b)), BitVec.ofNat 64 ((2 ^ (8 * size) - 1) * 2 ^ (8 * b)))

/-! ## Writes of windows -/

/-- An APLIC target word written (R202): a source that waited for one is sent. -/
def State.targetWrite (s : State) (site i v : Nat) : State :=
  if i = 0 ∨ 10 < i then s
  else
    let m := s.mil site
    let s1 := s.setMil site { m with targets := Tbl.set m.targets i v, aplic := m.aplic.filter (· != i) }
    if m.aplic.contains i then s1.milIrq site i else s1

/-- A fabric page's doorbell (R250). -/
def State.bellWrite (s : State) (die off val : Nat) : State :=
  let pt := (off - 0x4000000) / 0x10000
  match off % 0x10000 with
  | 0 => s.sendBell die pt val
  | 8 => s.recvBell die pt val
  | 16 => s.collBell die pt val
  | _ => s

/-- A write of `size` bytes at an offset of a window; an offset no chapter defines ignores it (R23). -/
def State.csrWrite (s : State) (a : Agent) (w : Window) (u off size val : Nat) : Put :=
  match regAt w u off with
  | some (.UPD_CTL, _, _, b) =>
    let lw := laneWord b size val
    let x := lw.1 &&& lw.2
    let ok := (getBits x 0 0 = 0 || s.mayConfirm) && (getBits x 2 2 = 0 || (s.slot s.nv.active).state == 2)
    ⟨s.updCtlWrite x, if ok then .ok else .stateConflict⟩
  | some (r, ru, i, b) => let lw := laneWord b size val; ⟨s.regWrite r ru i lw.1 lw.2, .ok⟩
  | none =>
    match w with
    | .core =>
      if 0x100000 ≤ off ∧ off < 0x100000 + 0x6000 * 34 then
        s.fulMemWrite a u ((off - 0x100000) / 0x6000) ((off - 0x100000) % 0x6000) (leBytes size val)
      else ⟨s, .ok⟩
    | .mil =>
      if off % 0x1000 = 0 ∧ off < 0x5000 ∧ size = 4 then ⟨s.msi u (off / 0x1000) (val % 2 ^ 32), .ok⟩
      else match aplicSource off with
        | some i => ⟨if size = 4 then s.targetWrite u i (val % 2 ^ 32)
            else (s.targetWrite u i (val % 2 ^ 32)).targetWrite u (i + 1) (val / 2 ^ 32 % 2 ^ 32), .ok⟩
        | none => ⟨s, .ok⟩
    | .bd =>
      ⟨if 0x4000000 ≤ off ∧ off < 0x4080000 ∧ size = 8 then s.bellWrite u off val else s, .ok⟩
    | _ => ⟨s, .ok⟩

/-! ## BAR0 (R209) -/

/-- A BAR access of wrong size or alignment is counted (R209). -/
def State.badAccess (s : State) (fn : Nat) : State := s.addFld HIF_ERR_STAT.BAD_ACCESS fn 0 1

/-- BAR0 takes 4- and 8-byte aligned accesses. -/
def barOk (off size : Nat) : Bool := (size == 4 || size == 8) && off % size == 0

/-- A 4-byte word of the MSI-X table or pending array written: address, data and the mask bit (R221). -/
def State.msixWrite (s : State) (fn off val : Nat) : State :=
  let v := (off - 0x20000) / 16
  let x := s.fn fn
  if msixVectors fn ≤ v ∨ 0x30000 ≤ off then s
  else match off % 16 with
    | 0 => s.setFn fn { x with msixTab := Tbl.set x.msixTab (2 * v) (putBits (Tbl.at x.msixTab (2 * v) 0) 31 0 val) }
    | 4 => s.setFn fn { x with msixTab := Tbl.set x.msixTab (2 * v) (putBits (Tbl.at x.msixTab (2 * v) 0) 63 32 val) }
    | 8 => s.setFn fn { x with msixTab := Tbl.set x.msixTab (2 * v + 1) (val % 2 ^ 32) }
    | _ => if val % 2 = 0 then s.msixUnmask fn v else s.setFn fn { x with unmasked := x.unmasked.filter (· != v) }

/-- A 4-byte word of the MSI-X table or pending array read. -/
def State.msixRead (s : State) (fn off : Nat) : Nat :=
  let x := s.fn fn
  if off < 0x30000 then
    let v := (off - 0x20000) / 16
    if msixVectors fn ≤ v then 0
    else match off % 16 with
      | 0 => Tbl.at x.msixTab (2 * v) 0 % 2 ^ 32
      | 4 => Tbl.at x.msixTab (2 * v) 0 / 2 ^ 32
      | 8 => Tbl.at x.msixTab (2 * v + 1) 0
      | _ => if x.unmasked.contains v then 0 else 1
  else
    let b := 8 * (off - 0x30000)
    leNat ((List.range 4).map (fun k => BitVec.ofNat 8
      (((List.range 8).map (fun j => if x.msixPend.contains (b + 8 * k + j) then 2 ^ j else 0)).foldl (· + ·) 0)))

/-- A write to BAR0 (R209, R213). -/
def State.bar0Write (s : State) (fn off size val : Nat) : State :=
  if !s.barsOn fn ∨ 0x40000 ≤ off then s
  else if !barOk off size then s.badAccess fn
  else if off < 0x10000 then
    match regAt .bar0 fn off with
    | some (r, ru, i, b) => let lw := laneWord b size val; s.regWrite r ru i lw.1 lw.2
    | none => s
  else if off < 0x10200 then
    let q := (off - 0x10000) / 8
    if size = 8 then (s.sqBell fn q (val % 2 ^ 32)).cqBell fn q (val / 2 ^ 32 % 2 ^ 32)
    else if off % 8 = 0 then s.sqBell fn q (val % 2 ^ 32)
    else s.cqBell fn q (val % 2 ^ 32)
  else if 0x11000 ≤ off ∧ off < 0x11200 then
    if off % 8 = 0 then s.ringBell fn ((off - 0x11000) / 8) (val % 2 ^ 32) else s
  else if 0x20000 ≤ off then
    let s1 := s.msixWrite fn off (val % 2 ^ 32)
    if size = 8 then s1.msixWrite fn (off + 4) (val / 2 ^ 32 % 2 ^ 32) else s1
  else s

/-- A read of BAR0: the state after it and the value; an access it does not take returns 0 (R209). A 4-byte read of a register
with an RC field is of the wrong size (R14). -/
def State.bar0Read (s : State) (fn off size : Nat) : State × Nat :=
  if 0x40000 ≤ off then (s, 0)
  else if !barOk off size then (s.badAccess fn, 0)
  else if off < 0x10000 then
    match regAt .bar0 fn off with
    | some (r, _, i, _) => if r.hasRc i && size == 4 then (s.badAccess fn, 0) else s.csrRead .bar0 fn off size
    | none => (s, 0)
  else if 0x20000 ≤ off then
    (s, s.msixRead fn off + (if size = 8 then 2 ^ 32 * s.msixRead fn (off + 4) else 0))
  else (s, 0)

end Sys2Proof.Machine
end

