-- ==== Sys2Proof/Machine/Bus.lean ====
section
/-! DEFINITION. Requests at their destinations and their responses (R26, R267), requests held and served (R22, R160, R165,
R285), register accesses (R5, R6), the management path (R13), forwarding (R271), the host's aperture (R210), and the steps
that end a hold. -/

namespace Sys2Proof.Machine

/-! ## A request that passed its checks -/

/-- A read performed at its target. -/
def State.targetRead (s : State) (a : Agent) (t : Target) (len : Nat) : Got :=
  match t with
  | .dram _ _ | .sram _ _ => s.memRead a t len
  | _ =>
    match t.csr s.hb.active with
    | some (w, u, off) => let r := s.csrRead w u off len; ⟨r.1, .ok, leBytes len r.2⟩
    | none => ⟨s, .ok, leBytes len 0⟩

/-- A write performed at its target. -/
def State.targetWriteAt (s : State) (a : Agent) (t : Target) (data : List Byte) : Put :=
  match t with
  | .dram _ _ | .sram _ _ => s.memWrite a t data
  | _ =>
    match t.csr s.hb.active with
    | some (w, u, off) => s.csrWrite a w u off data.length (leNat data)
    | none => ⟨s, .ok⟩

/-- A read request checked and performed (R26). -/
def State.busRead (s : State) (a : Agent) (da len : Nat) : Got :=
  match s.checkReq .read a da len with
  | .pass => s.targetRead a (s.decodeDa da) len
  | c => ⟨s.refuse a da c, c.status, []⟩

/-- A write request checked and performed (R26). -/
def State.busWrite (s : State) (a : Agent) (da : Nat) (data : List Byte) : Put :=
  match s.checkReq .write a da data.length with
  | .pass => s.targetWriteAt a (s.decodeDa da) data
  | c => ⟨s.refuse a da c, c.status⟩

/-! ## Responses and holds -/

/-- A RESPONSE sent to a requester (R267): data only where it is OK. -/
def State.respond (s : State) (a : Agent) (tag : Nat) (st : Status) (len : Nat) (data : List Byte) : State :=
  { s with mesh := { s.mesh with responses := s.mesh.responses ++ [⟨a, tag, st, len, if st = .ok then data else []⟩] } }

/-- The fine path takes a request whose bytes lie in one or two beats (R149). -/
def finePath (r : Nat × Nat) : Bool := decide ((r.1 + r.2 - 1) / 32 ≤ r.1 / 32 + 1)

/-- The core, logical channel and path (true: fine) of a request to DRAM (R149); a request lies in one stripe (R14). -/
def State.pathOf (s : State) (h : Held) : Option (Nat × Nat × Bool) :=
  match h with
  | .sliceRead c o _ _ _ _ | .sliceWrite c o _ _ => some (c, sliceLch o, finePath h.range)
  | _ =>
    match s.decodeDa h.range.1 with
    | .dram c o => some (c, sliceLch o, finePath h.range)
    | _ => none

/-- Requests a channel's queue takes on each path (R148). -/
def pathRoom (fine : Bool) : Nat := if fine then 16 else 48

/-- A request to DRAM finds its channel's queue full on its path (R148). -/
def State.queueFull (s : State) (h : Held) : Bool :=
  match s.pathOf h with
  | some k => decide (pathRoom k.2.2 ≤ (s.held.filter (fun x => s.pathOf x == some k)).length)
  | none => false

/-- A request joins those that wait; one that finds its channel's queue full stalls before it (R12, R148). -/
def State.hold (s : State) (h : Held) : State :=
  if s.queueFull h then { s with stalled := s.stalled ++ [h] } else { s with held := s.held ++ [h] }

/-- A request at its destination: refused and answered, held, or performed and answered (R26). -/
def State.serve (s : State) : Held → State
  | .read a tag da len =>
    match s.checkReq .read a da len with
    | .pass =>
      if s.reqHeld (s.decodeDa da) len then s.hold (.read a tag da len)
      else let g := s.targetRead a (s.decodeDa da) len; g.st.respond a tag g.status len g.data
    | c => (s.refuse a da c).respond a tag c.status len []
  | .write a tag da data =>
    match s.checkReq .write a da data.length with
    | .pass =>
      if s.reqHeld (s.decodeDa da) data.length then s.hold (.write a tag da data)
      else let p := s.targetWriteAt a (s.decodeDa da) data; p.st.respond a tag p.status data.length []
    | c => (s.refuse a da c).respond a tag c.status data.length []
  | .atomic a tag da op size x =>
    match s.checkReq .atomic a da size with
    | .pass =>
      if s.reqHeld (s.decodeDa da) size then s.hold (.atomic a tag da op size x)
      else let g := s.atomicAt a (s.decodeDa da) op size x.toNat; g.st.respond a tag g.status size g.data
    | c => (s.refuse a da c).respond a tag c.status size []
  | .sliceRead c o len rq e1 e2 =>
    if s.sliceHeld c o len then s.hold (.sliceRead c o len rq e1 e2) else (s.sliceRead c o len rq e1 e2).st
  | .sliceWrite c o data rq =>
    if s.sliceHeld c o data.length then s.hold (.sliceWrite c o data rq) else (s.sliceWrite c o data rq).st

/-- Requests served one after another. -/
def State.serveEach (s : State) : List Held → State
  | [] => s
  | h :: hs => State.serveEach (s.serve h) hs

/-- The waiting requests served again in order, the stalled ones after those in the queues; those that must go on waiting
keep their order (R149, R160). -/
def State.serveHeld (s : State) : State := State.serveEach { s with held := [], stalled := [] } (s.held ++ s.stalled)

/-- READ (R26). -/
def execRead (by_ : Agent) (tag da len : Nat) (s : State) : Host.Outcome State Fault Refusal :=
  .next (s.serve (.read by_ tag da len))

/-- WRITE (R26). -/
def execWrite (by_ : Agent) (tag da : Nat) (data : List Byte) (s : State) : Host.Outcome State Fault Refusal :=
  .next (s.serve (.write by_ tag da data))

/-- ATOMIC (R26). -/
def execAtomic (by_ : Agent) (tag da : Nat) (op : AmoOp) (size : Nat) (operand : Word) (s : State) :
    Host.Outcome State Fault Refusal :=
  .next (s.serve (.atomic by_ tag da op size operand))

/-- DRAM_READ (R149, R152-R154): performed, or queued while its channel retrains or awaits its remap (R160, R165). -/
def execDramRead (core off len requester : Nat) (e1 e2 : BitVec 272) (s : State) : Host.Outcome State Fault Refusal :=
  .next (s.serve (.sliceRead core off len requester e1 e2))

/-- DRAM_WRITE (R149, R155). -/
def execDramWrite (core off : Nat) (data : List Byte) (requester : Nat) (s : State) : Host.Outcome State Fault Refusal :=
  .next (s.serve (.sliceWrite core off data requester))

/-- A response at its requester: the request is complete, or the router absorbs it after a reset (R267, R319). -/
def State.responded (s : State) (r : Resp) : State :=
  let k := (r.by_, r.tag)
  let s1 : State := { s with mesh := { s.mesh with responses := s.mesh.responses.erase r } }
  if s1.mesh.absorbing.contains k then
    ({ s1 with mesh := { s1.mesh with absorbing := s1.mesh.absorbing.erase k } } : State).addFld RESET_STAT.ABSORBED
      (s1.agentSite r.by_) 0 1
  else s1.answered r

/-- RESPONSE (R267, R319): the oldest response of a tag on its way. -/
def execResponse (by_ : Agent) (tag : Nat) (s : State) : Host.Outcome State Fault Refusal :=
  .next (match s.mesh.responses.find? (fun r => r.by_ == by_ && r.tag == tag) with
    | some r => s.responded r
    | none => s)

/-! ## Register accesses (R5, R6, R209) -/

/-- REGISTER_WRITE (R5): through the mesh (answered with tag 0), a BAR (R209) or configuration space. -/
def execRegisterWrite (by_ : Agent) (tgt : RegAddr) (size : Nat) (val : Word) (s : State) : Host.Outcome State Fault Refusal :=
  .next (match tgt with
    | .da da =>
      if s.daHeld .write by_ da size then s
      else let p := s.busWrite by_ da (leBytes size val.toNat); p.st.answered ⟨by_, 0, p.status, size, []⟩
    | .bar0 fn off => s.bar0Write fn off size val.toNat
    | .bar2 fn off => s.bar2Write fn off size
    | .cfg fn i => s.cfgWrite fn i val.toNat)

/-- REGISTER_READ_CLEAR (R6): what the read returns goes to its requester. -/
def execRegisterReadClear (by_ : Agent) (tgt : RegAddr) (size : Nat) (s : State) : Host.Outcome State Fault Refusal :=
  .next (match tgt with
    | .da da =>
      if s.daHeld .read by_ da size then s
      else let g := s.busRead by_ da size; g.st.answered ⟨by_, 0, g.status, size, if g.status = .ok then g.data else []⟩
    | .bar0 fn off =>
      if !s.barsOn fn then s
      else let r := s.bar0Read fn off size; r.1.toHost (.cpl fn (leBytes size r.2))
    | .bar2 fn off => s.bar2Read fn off size
    | .cfg fn i => s.cfgRead fn i size)

/-- WREG (R107): VALUE goes to a core register; the offset was checked with the command's bits. -/
def execWreg (core q : Nat) (s : State) : Host.Outcome State Fault Refusal :=
  .next (s.control core q 0 3 (fun _ => true)
    (fun f t => (t.csrWrite (.core core) .core core (wregOff f.word) 8 (cmdBits f.word 127 64)).st))

/-- A read of a register that has a command of its own, as REGISTER_READ_CLEAR does it. -/
def State.regReadAt (s : State) (a : Agent) (da : Nat) : State :=
  let g := s.busRead a da 8
  g.st.answered ⟨a, 0, g.status, 8, if g.status = .ok then g.data else []⟩

/-- The DA of an offset in a tile's window, by its site. -/
def State.siteDa (s : State) (site off : Nat) : Option Nat := (s.ltileOf site).map (fun l => 2 * 2 ^ 38 + l * 2 ^ 24 + off)

/-- MSG_FIFO_POP (R107). -/
def execMsgFifoPop (by_ : Agent) (core : Nat) (s : State) : Host.Outcome State Fault Refusal :=
  .next (match s.siteDa (siteOf core) (0x200000 * coreNo core + 0x90) with
    | some da => s.regReadAt by_ da
    | none => s)

/-- FUL_IRQ_POP (R202). -/
def execFulIrqPop (by_ : Agent) (site : Nat) (s : State) : Host.Outcome State Fault Refusal :=
  .next (match s.siteDa site (0x800000 + 0x200018) with
    | some da => s.regReadAt by_ da
    | none => s)

/-- WDOG_PET (R204). -/
def execWdogPet (by_ : Agent) (site val : Nat) (s : State) : Host.Outcome State Fault Refusal :=
  .next (match s.siteDa site (0x800000 + 0x200008) with
    | some da => (s.busWrite by_ da (leBytes 8 (val % 256))).st
    | none => s)

/-- SETEIPNUM (R201): a 4-byte write to an interrupt file's page, checked under R26. -/
def execSeteipnum (by_ : Agent) (site file identity : Nat) (s : State) : Host.Outcome State Fault Refusal :=
  .next (match s.siteDa site (0x800000 + 0x1000 * file), decide (file < 5) with
    | some da, true => (s.busWrite by_ da (leBytes 4 identity)).st
    | _, _ => s)

/-! ## The management path (R13, R267) -/

/-- What an offset of a site's window names, mapped or not. -/
def siteTarget (site off : Nat) : Target :=
  if off < 0x800000 then .coreCsr (coreKey site (off / 0x200000)) (off % 0x200000)
  else if off < 0xC00000 then .milCsr site (off - 0x800000)
  else .tileCsr site (off - 0xC00000)

/-- The first check that a site-addressed access fails: shape; a die held in reset or out of reach (R275, R276), a fence; power. -/
def State.mgmtCheck (s : State) (k : ReqKind) (site off size : Nat) : Status :=
  let t := siteTarget site off
  if 72 ≤ site ∨ 2 ^ 24 ≤ off ∨ !shapeOk s.hb.active k t off size then .badFormat
  else if s.dieHeld site ∨ s.fld ROUTE.UNREACH (72 + s.hb.active) site = 1 then .fenced
  else match s.fenceCheck k t with
    | some st => st
    | none => if (s.powerCheck t).isSome then .stateConflict else .ok

/-- MGMT (R267): a register access at a site, a gather-reduce run on one fuller (R187), or a fuller fence cleared (R186). -/
def execMgmt (site : Nat) (req : MgmtReq) (s : State) : Host.Outcome State Fault Refusal :=
  .next (match req with
    | .read off size =>
      let st := s.mgmtCheck .read site off size
      if st ≠ .ok then s.answered ⟨.hatband, 0, st, size, []⟩
      else let g := s.targetRead .hatband (siteTarget site off) size; g.st.answered ⟨.hatband, 0, g.status, size, g.data⟩
    | .write off size val =>
      let st := s.mgmtCheck .write site off size
      if st ≠ .ok then s.answered ⟨.hatband, 0, st, size, []⟩
      else
        let p := s.targetWriteAt .hatband (siteTarget site off) (leBytes size val.toNat)
        p.st.answered ⟨.hatband, 0, p.status, size, []⟩
    | .gatherReduce core n d =>
      let c := coreKey site (core % 4)
      let st : Status :=
        if 72 ≤ site ∨ 34 ≤ n ∨ !grOk d 1 then .badFormat
        else if s.fld FUL_STAT.FENCED c n = 1 then .fenced
        else if s.fulInSwap c n ∨ s.fld FUL_STAT.STATE c n ≠ fulStopped then .stateConflict
        else .ok
      if st = .ok then s.fulGrStart c n ⟨d, 0, true⟩ else s.answered ⟨.hatband, 0, st, 64, []⟩
    | .clearFuller core n =>
      if 72 ≤ site ∨ 34 ≤ n then s.answered ⟨.hatband, 0, .badFormat, 0, []⟩
      else (s.setFld FUL_STAT.FENCED (coreKey site (core % 4)) n 0).answered ⟨.hatband, 0, .ok, 0, []⟩)

/-! ## Forwarding (R267, R270, R271, R275) -/

/-- The atomic operation of a packet: its encoding is not stated (free). -/
def amoOfFree (k : Nat) : AmoOp :=
  ([AmoOp.add, .swap, .and, .or, .xor, .max, .min, .maxu, .minu, .semAdd][k % 10]?).getD .add

/-- A packet is a request. -/
def pktIsRequest (k : MeshPkt) : Bool := k.op == 0 || k.op == 1 || k.op == 2 || k.op == 5 || decide (6 ≤ k.op)

/-- A packet at its destination router (R267): ill-formed ones are discarded, counted and answered BAD_FORMAT. The content of a
MGMT packet is the MGMT command's. -/
def State.deliver (s : State) (router : Nat) (k : MeshPkt) : State :=
  let a := s.pktAgent k.unit k.src k.spt
  if 6 ≤ k.op ∨ k.mbz ≠ 0 then
    let s1 : State := { s with mesh := { s.mesh with badPkts := s.mesh.badPkts + 1 } }
    if pktIsRequest k then s1.respond a k.tag .badFormat k.len [] else s1
  else match k.op with
    | 0 => s.serve (.read a k.tag k.da k.len)
    | 1 => s.serve (.write a k.tag k.da k.data)
    | 2 => (s.draw).serve (.atomic a k.tag k.da (amoOfFree s.freeVal) k.len (BitVec.ofNat 64 (leNat k.data)))
    | 3 =>
      let b := s.pktAgent k.unit k.dst k.spt
      match s.mesh.responses.find? (fun r => r.by_ == b && r.tag == k.tag) with
      | some r => s.responded r
      | none => s.responded ⟨b, k.tag, Status.ofCode k.status, k.len, k.data⟩
    | 4 =>
      if k.dst = endMulticast then s.mcastAt router (bitsOf k.da 39 32) (bitsOf k.da 31 0) k.tag k.data
      else s.agentTakes router (bitsOf k.da 39 32) (bitsOf k.da 31 0) k.tag k.data
    | _ => s

/-- The kind of request a packet's OP names. -/
def pktKind (k : MeshPkt) : Option ReqKind :=
  match k.op with
  | 0 => some .read
  | 1 => some .write
  | 2 => some .atomic
  | _ => none

/-- The source tile's checks of a request a tile agent puts on the mesh (R25, R26): its address and shape at the source (R30),
then the map of its own router. -/
def State.egressCheck (s : State) (router : Nat) (k : MeshPkt) : Check :=
  let a := s.pktAgent k.unit k.src k.spt
  match pktKind k, egressOf a with
  | some kind, some e =>
    let len := if kind = .write then k.data.length else k.len
    if e ≠ router ∨ k.src ≠ router then .pass
    else if !shapeOk s.hb.active kind (s.decodeDa k.da) k.da len then .order1
    else if !s.allows router a (s.decodeDa k.da) then .order2 router true
    else .pass
  | _, _ => .pass

/-- A router and a packet (R271): multicast (R264) is copied by the mask, a packet for this router is delivered, any other leaves
by the table's port; where no valid route leads on, a request is answered FENCED and another packet is lost (R275). -/
def State.forward (s : State) (router : Nat) (k : MeshPkt) : State :=
  if (k.op = 4 ∧ k.dst = endMulticast) ∨ k.dst = router then s.deliver router k
  else
    let p := s.routePort router k
    if s.fld ROUTE.V router k.dst = 0 ∨ s.fld ROUTE.UNREACH router k.dst = 1 ∨ p = 0 ∨ !linkOk router (p - 1) then
      if pktIsRequest k then s.respond (s.pktAgent k.unit k.src k.spt) k.tag .fenced k.len [] else s
    else s.meshPut router p k

/-- Packets forwarded one after another. -/
def State.forwardEach (s : State) (router : Nat) : List MeshPkt → State
  | [] => s
  | k :: ks => State.forwardEach (s.forward router k) router ks

/-- Packets held back enter the mesh. -/
def State.injectEach (s : State) : List (Nat × MeshPkt) → State
  | [] => s
  | (r, k) :: l => State.injectEach (s.forward r k) l

/-- A reroute ends when the mesh is empty under the new tables: injection resumes, and MESH_REROUTE is raised (R274 step 5). -/
def State.meshSettle (s : State) : State :=
  if s.mesh.switched && s.meshEmpty then
    let l := s.mesh.inject
    let s1 : State := { s with mesh := { s.mesh with paused := [], switched := false, inject := [] } }
    (s1.rerouteEvents s.mesh.paused).injectEach l
  else s

/-- MESH_FORWARD (R271): a request that fails the checks of its source tile goes no further (R25); a packet that would enter the
mesh here while injection is paused is held back (R274). -/
def execMeshForward (router : Nat) (pkt : MeshPkt) (s : State) : Host.Outcome State Fault Refusal :=
  .next (match s.egressCheck router pkt with
    | .pass =>
      if s.mesh.paused ≠ [] ∧ pkt.src = router ∧ pkt.dst ≠ router then
        { s with mesh := { s.mesh with inject := s.mesh.inject ++ [(router, pkt)] } }
      else s.forward router pkt
    | c =>
      let a := s.pktAgent pkt.unit pkt.src pkt.spt
      (s.refuse a pkt.da c).respond a pkt.tag c.status pkt.len [])

/-- MESH_FLIT_RX (R265, R266): the packets a flit completes go to the router; its ACK may be what a reroute waits for. -/
def execMeshFlitRx (endpoint link : Nat) (flit : MeshFlit) (s : State) : Host.Outcome State Fault Refusal :=
  .next (if linkOk endpoint link then
      let r := s.meshFlit endpoint link flit
      (r.1.forwardEach endpoint r.2).meshSettle
    else s)

/-- MESH_TABLE_SWITCH (R271, R274): once every router holds only packets that wait for a lost link, an acyclic route set comes
into force, and they leave by it. -/
def execMeshTableSwitch (tables : List (Nat × Nat × Word)) (s : State) : Host.Outcome State Fault Refusal :=
  .next (if s.mesh.paused ≠ [] ∧ !s.mesh.switched ∧ s.meshHoldsOnlyWaiting ∧ routesAcyclic (s.tablesWith tables) then
      (s.switchTables tables).meshSettle
    else s)

/-! ## The aperture (R210) -/

/-- A failed aperture access recorded (R210). -/
def State.apertureFail (s : State) (fn da : Nat) (st : Status) : State :=
  (s.setFld HIF_ERR_STAT.LAST_STATUS fn 0 st.code).setReg .HIF_ERR_DA fn 0 (BitVec.ofNat 64 (da % 2 ^ 48))

/-- APERTURE_ACCESS (R209, R210). -/
def execApertureAccess (fn : Nat) (write : Bool) (off len : Nat) (data : List Byte) (s : State) :
    Host.Outcome State Fault Refusal :=
  .next (if !s.barsOn fn ∨ 2 ^ 28 ≤ off then s
    else
      let da := s.fld APERTURE.BASE fn 0 * 2 ^ 28 + off
      if s.daHeld (if write then .write else .read) (.pcie fn) da (if write then data.length else len) then s
      else if write then
        let p := s.busWrite (.pcie fn) da data
        if p.status = .ok then p.st else p.st.apertureFail fn da p.status
      else
        let g := s.busRead (.pcie fn) da len
        if g.status = .ok then g.st.toHost (.cpl fn g.data)
        else (g.st.apertureFail fn da g.status).toHost (.cpl fn (List.replicate len 0xFF)))

/-! ## What ends a window or a hold -/

/-- The die that raises the records of a source: the module's own records are BD0's. -/
def winDie (key : Nat) : Nat :=
  let site := key / 2 ^ 32 % 2 ^ 16 / 256
  if site = siteModule then 72 else site

/-- Discards of an endpoint's link ends start anew. -/
def State.clearDiscards (s : State) (e : Nat) : List Nat → State
  | [] => s
  | d :: ds => State.clearDiscards
      (if (s.meshEnd e d).discards = 0 then s else s.setMeshEnd e d { s.meshEnd e d with discards := 0 }) e ds

/-- RATE_WINDOW_END (R429): the die's windows begin again, and with them its links' milliseconds (R266). -/
def execRateWindowEnd (die : Nat) (s : State) : Host.Outcome State Fault Refusal :=
  .next (({ s with events := { s.events with win := Tbl.dropKeys s.events.win (fun k => winDie k == die) } } : State).clearDiscards
    die (List.range 9))

/-- SRAM_CLEAR_DONE (R22): the clear ends, and waiting requests are served. -/
def execSramClearDone (core : Nat) (s : State) : Host.Outcome State Fault Refusal :=
  .next (if s.fld SRAM_STAT.CLEARING core 0 = 1 then (s.setFld SRAM_STAT.CLEARING core 0 0).serveHeld else s)

/-- RETRAIN_END (R160, R161): a repair that waited for it starts (R163), a waiting retrain may start, and queued requests are
served in order. -/
def execRetrainEnd (core pch : Nat) (pass : Bool) (s : State) : Host.Outcome State Fault Refusal :=
  .next (if s.fld DRAM_CH_STAT.RETRAINING core pch = 1 then (((s.retrainEnd core pch pass).repairStart (siteOf core)).nextRetrain core).serveHeld else s)

/-- CHANNEL_DEAD_DETECT (R166): requests that waited for the channel complete, and a waiting retrain may start. -/
def execChannelDeadDetect (core pch : Nat) (s : State) : Host.Outcome State Fault Refusal :=
  .next (
    let was := s.fld DRAM_CH_STAT.RETRAINING core pch == 1
    let s1 := s.channelDead core pch
    (if was then (s1.repairStart (siteOf core)).nextRetrain core else s1).serveHeld)

/-- SWAP_REMAP (R165): the remap is written, and held requests go on. -/
def execSwapRemap (core : Nat) (s : State) : Host.Outcome State Fault Refusal :=
  .next ((((s.swapRemap core).deadNoSpare core).nextRetrain core).serveHeld)

/-- SPARE_POISON_FILL_END (R166). -/
def execSparePoisonFillEnd (core : Nat) (s : State) : Host.Outcome State Fault Refusal :=
  .next (((s.fillEnd core).nextRetrain core).serveHeld)

/-- ACLK_WAKE (R285): a request that reached a gated core is served. -/
def execAclkWake (_core : Nat) (s : State) : Host.Outcome State Fault Refusal := .next s.serveHeld

end Sys2Proof.Machine
end

