-- ==== Sys2Proof/Machine/Dma.lean ====
section
/-! DEFINITION. Transfers that may use any device address (R14, R24): moves (R108), the completion of running commands (R104),
LOAD and READ_OUT (R223), and what a reset leaves of outstanding writes (R319). -/

namespace Sys2Proof.Machine

/-! ## Requests of a transfer (R14) -/

/-- How far one request may reach from a device address: to the next 256-byte boundary, in the CSR regions (DA[39] = 1) to the
next 8-byte one. -/
def reqRoom (da : Nat) : Nat := if da.testBit 39 then 8 - da % 8 else 256 - da % 256

/-- The requests a range splits into: (address, length). -/
def splitReq : Nat → Nat → Nat → List (Nat × Nat)
  | 0, _, _ => []
  | k + 1, da, n => if n = 0 then [] else (da, min n (reqRoom da)) :: splitReq k (da + min n (reqRoom da)) (n - min n (reqRoom da))

/-- A transfer of a range waits for a channel or an SRAM (R12, R22, R160). -/
def State.rangeHeld (s : State) (k : ReqKind) (a : Agent) (da n : Nat) : Bool := s.listHeld k a (splitReq (n / 8 + 2) da n)

/-- A write of a running command waits (a core whose own SRAM is being cleared completes none: `State.completable`). -/
def State.storeHeld (s : State) (c : Nat) : Store → Bool
  | .sram _ _ => false
  | .req da data => s.rangeHeld .write (.core c) da data.length

/-- Requests written one after another; the first that is not OK ends them. -/
def State.putEach (s : State) (a : Agent) (data : List Byte) : List (Nat × Nat) → Put
  | [] => ⟨s, .ok⟩
  | (da, n) :: r =>
    let p := s.busWrite a da (data.take n)
    if p.status ≠ .ok then p else State.putEach p.st a (data.drop n) r

/-- Bytes written at a device address of any region. -/
def State.putAt (s : State) (a : Agent) (da : Nat) (data : List Byte) : Put :=
  s.putEach a data (splitReq (data.length / 8 + 2) da data.length)

/-- A write a command performs (R104). -/
def State.storeAt (s : State) (c who : Nat) : Store → Put
  | .sram off data => s.localWrite c off data who
  | .req da data => s.putAt (.core c) da data

/-- Writes performed in order; the first that is not OK ends them. -/
def State.storeAllAt (s : State) (c who : Nat) : List Store → Put
  | [] => ⟨s, .ok⟩
  | w :: ws =>
    let p := s.storeAt c who w
    if p.status ≠ .ok then p else State.storeAllAt p.st c who ws

/-! ## Reading and writing of a move (R108) -/

/-- Requests read one after another until one is not OK: the bytes of those before it. -/
def State.moveRead (s : State) (a : Agent) : List (Nat × Nat) → Got
  | [] => ⟨s, .ok, []⟩
  | (da, n) :: r =>
    let g := s.busRead a da n
    if g.status ≠ .ok then ⟨g.st, g.status, []⟩
    else
      let k := State.moveRead g.st a r
      ⟨k.st, k.status, g.data ++ k.data⟩

/-- A row of a two-dimensional move: source, destination, bytes. -/
structure MoveRow where
  src : Nat
  dst : Nat
  len : Nat

/-- The bytes of a list of rows that their sources give, row by row; the first failure ends them. -/
def State.moveRows (s : State) (a : Agent) : List MoveRow → Got
  | [] => ⟨s, .ok, []⟩
  | r :: rs =>
    let g := s.moveRead a (splitReq (r.len / 8 + 2) r.src r.len)
    if g.status ≠ .ok then g
    else
      let k := State.moveRows g.st a rs
      ⟨k.st, k.status, g.data ++ k.data⟩

/-- The writes the rows' destinations take for the bytes there are. -/
def moveWrites : List MoveRow → List Byte → List Store
  | [], _ => []
  | _ :: _, [] => []
  | r :: rs, b :: bs => .req r.dst ((b :: bs).take r.len) :: moveWrites rs ((b :: bs).drop r.len)

/-- A source range meets a destination range. -/
def rowsOverlap (rows : List MoveRow) : Bool :=
  rows.any (fun a => rows.any (fun b => decide (a.src < b.dst + b.len) && decide (b.dst < a.src + a.len)))

/-- The address of each byte of a side of the rows. -/
def rowAddrs (f : MoveRow → Nat) (rows : List MoveRow) : List Nat :=
  rows.flatMap (fun r => (List.range r.len).map (fun j => f r + j))

/-- A byte of an overlapping move: its source value before, or one the command copied into its source position (R108). -/
def overlapByte (srcs dsts : List Nat) (data : List Byte) (free : Nat) : Nat → Nat → Byte
  | 0, i => data.getD i 0
  | k + 1, i =>
    if free % 2 = 0 then data.getD i 0
    else match dsts.findIdx? (· == srcs.getD i 0) with
      | some j => overlapByte srcs dsts data (free / 2) k j
      | none => data.getD i 0

/-- The bytes a move writes. -/
def State.moveBytes (s : State) (rows : List MoveRow) (data : List Byte) : List Byte :=
  if rowsOverlap rows then
    let srcs := rowAddrs MoveRow.src rows
    let dsts := rowAddrs MoveRow.dst rows
    (List.range data.length).map (fun i => overlapByte srcs dsts data (s.freeAt (i + 1)) data.length i)
  else data

/-- A move at issue: its sources are read, and its writes stand until it completes; after a failed read, writes of some of the
bytes before it (which, no rule says). -/
def State.moveStart (s : State) (c : Nat) (f : Fetched) (rows : List MoveRow) : State :=
  let g := s.moveRows (.core c) rows
  let kept := if g.status = .ok then g.data else g.data.take (64 * (g.st.freeVal % (g.data.length / 64 + 1)))
  let out := g.st.moveBytes rows kept
  (g.st.draw (1 + kept.length)).start c 3
    { index := f.index, word := f.word, status := g.status, writes := moveWrites rows out }

/-- The row of a COPY (R108). -/
def copyRow (f : Fetched) : MoveRow := ⟨cmdBits f.word 71 32, cmdBits f.word 111 72, 64 * (cmdBits f.word 127 112 + 1)⟩

/-- COPY at issue (R108). -/
def State.copyAct (s : State) (c : Nat) (f : Fetched) : State := s.moveStart c f [copyRow f]

/-- FILL at issue (R108). -/
def State.fillAct (s : State) (c : Nat) (f : Fetched) : State :=
  let p := leBytes 4 (cmdBits f.word 63 32)
  let n := 64 * (cmdBits f.word 127 112 + 1)
  s.start c 3 { index := f.index, word := f.word,
                writes := [.req (cmdBits f.word 111 72) ((List.range (n / 4)).flatMap (fun _ => p))] }

/-- The rows of an XCOPY's descriptor (R108). -/
def xcopyRows (d : Nat) : List MoveRow :=
  (List.range (bitsOf d 239 224 + 1)).map (fun r =>
    ⟨bitsOf d 39 0 + r * bitsOf d 199 176, bitsOf d 103 64 + r * bitsOf d 223 200, bitsOf d 159 128⟩)

/-- XCOPY at issue (R108). -/
def State.xcopyAct (s : State) (c : Nat) (f : Fetched) : State :=
  let g := s.sramRead c (64 * cmdBits f.word 48 32) 32 rqDma
  let d := leNat g.data
  let rb := bitsOf d 159 128
  if g.status ≠ .ok then g.st.finishNow c 3 f g.status
  else if bitsOf d 255 240 ≠ 0 ∨ bitsOf d 175 160 ≠ 0 ∨ bitsOf d 127 104 ≠ 0 ∨ bitsOf d 63 40 ≠ 0 ∨ rb = 0 ∨ 2 ^ 24 < rb then
    g.st.finishNow c 3 f .badFormat
  else g.st.moveStart c f (xcopyRows d)

/-- The sources of a move wait for a channel or an SRAM: the move goes on when they are ready (R12). -/
def State.rowsHeld (s : State) (c : Nat) (rows : List MoveRow) : Bool :=
  rows.any (fun r => s.rangeHeld .read (.core c) r.src r.len)

/-- COPY (R108). -/
def execCopy (core : Nat) (s : State) : Host.Outcome State Fault Refusal :=
  .next (s.issue core 3 4 0 (fun f => s.moveRoom core && !s.rowsHeld core [copyRow f]) (fun f t => t.copyAct core f))
/-- FILL (R108). -/
def execFill (core : Nat) (s : State) : Host.Outcome State Fault Refusal :=
  .next (s.issue core 3 4 1 (fun _ => s.moveRoom core) (fun f t => t.fillAct core f))
/-- XCOPY (R108). -/
def execXcopy (core : Nat) (s : State) : Host.Outcome State Fault Refusal :=
  .next (s.issue core 3 4 2
    (fun f => s.moveRoom core &&
      !s.rowsHeld core (xcopyRows (leNat (memBytes s.mem (sramByte core (64 * cmdBits f.word 48 32)) 32))))
    (fun f t => t.xcopyAct core f))

/-! ## Completion (R104) -/

/-- The DMA channel of a move whose read met POISON halts (R375). -/
def State.dmaHalt (s : State) (c : Nat) (x : InFlight) : State :=
  if cmdClass x.word = 4 ∧ cmdOp x.word ≠ 3 ∧ x.status = .poison then
    s.setCore c { s.core c with dmaHalted := (s.core c).dmaHalted + 1 }
  else s

/-- A running command completes: what it still has to commit, its writes, its signal or its error (R96, R99, R104). -/
def State.complete (s : State) (c q : Nat) (x : InFlight) : State :=
  let a := match x.att with
    | some r => s.walkEnd c x.word r
    | none => (s, x.status)
  let p := a.1.storeAllAt c (cmdRequester x.word) x.writes
  let st := p.status.orElse a.2
  let s1 := match x.scratch with
    | some (j, b) => p.st.setBanks c b bankEmpty [j]
    | none => p.st
  (((s1.dmaHalt c x).dropInflight c q x.index).finish c q x.index x.word st).queueSettle c q

/-- What is left of a walk waits for a channel (R12). -/
def State.walkHeld (s : State) (c : Nat) (x : InFlight) : Bool :=
  match x.att with
  | some r => s.attWaits c attWalk (AttP.of r.desc x.word) (r.table.drop r.entry)
  | none => false

/-- COMMAND_COMPLETE (R104); its writes wait for the channels and SRAMs they go to (R12, R22). -/
def execCommandComplete (core q index : Nat) (s : State) : Host.Outcome State Fault Refusal :=
  .next (match s.completable core q index with
    | some x => if x.writes.any (s.storeHeld core) || s.walkHeld core x then s else s.complete core q x
    | none => s)

/-! ## LOAD and READ_OUT (R223) -/

/-- A kernel or near-bank program that names an FT4-E8 code, for a tile whose partition is below the B1 level (R32, log 119). -/
def State.loadBelow (s : State) (da : Nat) (bytes : List Byte) : Bool :=
  let site := match s.decodeDa da with
    | .dram c _ | .sram c _ | .coreCsr c _ => some (siteOf c)
    | .milCsr site _ | .tileCsr site _ => some site
    | .brimCsr .. | .unmapped => none
  match site.bind s.ptOfSite with
  | some p => decide (Tbl.at s.levels p 0 < 2) && Config.namesE8 bytes
  | none => false

/-- LOAD (R223, R26): request by request, to the first refusal; VERIFY reads the data back. A kernel above its partition's level
is refused with nothing written (R32). -/
def execLoad (fn sq : Nat) (data : HostRead) (s : State) : Host.Outcome State Fault Refusal :=
  .next (s.hostCmd fn sq 0x20 (fun x =>
    match s.bufGet fn x data with
    | (s1, .error st) => s1.subDone fn x.id st
    | (s1, .ok bytes) =>
      if s.rangeHeld .write (.pcie fn) (x.at 24 8) bytes.length then s else
      if s.loadBelow (x.at 24 8) bytes then s1.subDone fn x.id .featureLevel else
      let p := s1.putAt (.pcie fn) (x.at 24 8) bytes
      if p.status ≠ .ok ∨ x.at 32 1 = 0 then p.st.subDone fn x.id p.status
      else
        let g := p.st.moveRead (.pcie fn) (splitReq (bytes.length / 8 + 2) (x.at 24 8) bytes.length)
        if g.status = .ok then g.st.subDone fn x.id .ok (crc32c g.data) else g.st.subDone fn x.id g.status))

/-- READ_OUT (R223, R26, R374): request by request, to the first refusal; its writes alone may be relaxed (R206). -/
def execReadOut (fn sq : Nat) (s : State) : Host.Outcome State Fault Refusal :=
  .next (s.hostCmd fn sq 0x21 (fun x =>
    if s.rangeHeld .read (.pcie fn) (x.at 24 8) x.hlen then s else
    let g := s.moveRead (.pcie fn) (splitReq (x.hlen / 8 + 2) (x.at 24 8) x.hlen)
    let p := g.st.bufPut fn x g.data (s.fn fn).cfg.relaxed
    p.st.subDone fn x.id (g.status.orElse p.status)))

/-! ## The end of a reset (R319) -/

/-- Outstanding writes each take effect or not (R319 step 3): which, is free. -/
def State.looseWrites (s : State) : List (Nat × Nat × Store) → State
  | [] => s
  | (c, who, w) :: l =>
    State.looseWrites (if s.freeVal % 2 = 0 then s.draw else (s.draw.storeAt c who w).st) l

/-- RESET_DRAIN_END (R319 steps 3 to 5). -/
def execResetDrainEnd (site : Nat) (s : State) : Host.Outcome State Fault Refusal :=
  .next (match Tbl.find s.resets site with
    | some r =>
      if r.op = 2 ∨ r.op = 6 then
        let tile := r.op == 6
        let s1 := ((s.looseWrites r.writes).serveHeld).absorb site r
        let s2 := if tile then s1.tileReset site else s1.coreResets ((maskBits 4 r.cmask).map (coreKey site))
        let s3 : State := { (s2.setFld RESET_STAT.BUSY site 0 0).rstStatus site .ok with resets := Tbl.del s2.resets site }
        let s4 := s3.softClear site (if tile then List.range 4 else maskBits 4 r.cmask)
        let s5 := if tile ∧ !hardCause (s4.fld RESET_STAT.TILE_CAUSE site 0) then (s4.unfenceTile site).startMil site else s4
        match r.part with
        | some p => s5.refreshDeg.partSiteDone p site
        | none => s5.refreshDeg.raise .RESET_DONE site uCommon [(1, if tile then 1 else 0), (1, s5.fld RESET_STAT.ABSORBED site 0)]
      else s
    | none => s)

end Sys2Proof.Machine
end

