-- ==== Sys2Proof/Machine/Milliner.lean ====
section
/-! DEFINITION. Milliners (10): traps, the caches and their maintenance, loads, stores, atomics and fetches, the watchdog, and
the instructions that only change the hart. -/

namespace Sys2Proof.Machine

/-! ## Registers and traps (R194, R196; CSR numbers and trap entry are RISC-V's, log 18) -/

def csrSatp : Nat := 0x180
def csrMstatus : Nat := 0x300
def csrMedeleg : Nat := 0x302
def csrMtvec : Nat := 0x305
def csrMepc : Nat := 0x341
def csrMcause : Nat := 0x342
def csrMtval : Nat := 0x343
def csrSstatus : Nat := 0x100
def csrStvec : Nat := 0x105
def csrSepc : Nat := 0x141
def csrScause : Nat := 0x142
def csrStval : Nat := 0x143

/-- An integer register of a hart. -/
def Mil.reg (m : Mil) (i : Nat) : Nat := if i = 0 then 0 else (Tbl.at m.x i 0).toNat

/-- An integer register written; x0 keeps 0. -/
def Mil.setX (m : Mil) (i v : Nat) : Mil := if i = 0 then m else { m with x := Tbl.set m.x i (BitVec.ofNat 64 v) }

/-- A control and status register. -/
def Mil.csr (m : Mil) (k : Nat) : Word := Tbl.at m.csrs k 0

/-- A control and status register replaced. -/
def Mil.setCsr (m : Mil) (k : Nat) (w : Word) : Mil := { m with csrs := Tbl.set m.csrs k w }

/-- A hart on its way to the next instruction. -/
def Mil.after (m : Mil) : Mil := { m with pc := m.pc + 4 }

/-- Exception codes of RISC-V: access faults by kind (R196), misaligned and illegal ones. -/
def causeFetch : Nat := 1
def causeIllegal : Nat := 2
def causeBreak : Nat := 3
def causeLoadAlign : Nat := 4
def causeLoad : Nat := 5
def causeStoreAlign : Nat := 6
def causeStore : Nat := 7

/-- A trap taken: to supervisor mode where medeleg delegates it from below machine mode, else to machine mode; the pc, cause and
value saved, the interrupt enable and the mode kept in mstatus, the pc at the vector base. -/
def Mil.trap (m : Mil) (cause : Nat) (tval : Word) : Mil :=
  let st := m.csr csrMstatus
  if m.priv ≤ 1 ∧ getBits (m.csr csrMedeleg) cause cause = 1 then
    let st1 := setBits (setBits (setBits st 5 5 (getBits st 1 1)) 1 1 0) 8 8 m.priv
    { (((m.setCsr csrSepc m.pc).setCsr csrScause (BitVec.ofNat 64 cause)).setCsr csrStval tval).setCsr csrMstatus st1 with
      priv := 1
      pc := setBits (m.csr csrStvec) 1 0 0 }
  else
    let st1 := setBits (setBits (setBits st 7 7 (getBits st 3 3)) 3 3 0) 12 11 m.priv
    { (((m.setCsr csrMepc m.pc).setCsr csrMcause (BitVec.ofNat 64 cause)).setCsr csrMtval tval).setCsr csrMstatus st1 with
      priv := 3
      pc := setBits (m.csr csrMtvec) 1 0 0 }

/-- The return from a trap: MRET to the mode of MPP, SRET to that of SPP. -/
def Mil.ret (m : Mil) (machine : Bool) : Mil :=
  let st := m.csr csrMstatus
  if machine then
    { m.setCsr csrMstatus (setBits (setBits (setBits st 3 3 (getBits st 7 7)) 7 7 1) 12 11 0) with
      priv := getBits st 12 11
      pc := m.csr csrMepc }
  else
    { m.setCsr csrMstatus (setBits (setBits (setBits st 1 1 (getBits st 5 5)) 5 5 1) 8 8 0) with
      priv := getBits st 8 8
      pc := m.csr csrSepc }

/-- A hart's trap. -/
def State.milTrap (s : State) (site cause : Nat) (tval : Nat) : State :=
  s.setMil site ((s.mil site).trap cause (BitVec.ofNat 64 tval))

/-- A hart that retires an instruction. -/
def State.milNext (s : State) (site : Nat) : State := s.setMil site (s.mil site).after

/-- A hart that retires an instruction with a result. -/
def State.milWrite (s : State) (site rd v : Nat) : State := s.setMil site ((s.mil site).setX rd v).after

/-- Kinds of MIL.ERR_INFO. -/
def kindLoad : Nat := 0
def kindStore : Nat := 1
def kindAmo : Nat := 2
def kindFetch : Nat := 3

/-- A failed request recorded in MIL.ERR_INFO (R196). -/
def State.errInfo (s : State) (site : Nat) (st : Status) (kind da : Nat) : State :=
  ((s.setFld MIL_ERR_INFO.STATUS site 0 st.code).setFld MIL_ERR_INFO.KIND site 0 kind).setFld MIL_ERR_INFO.DA site 0 da

/-- A failed request that traps at once (R196). -/
def State.milFail (s : State) (site : Nat) (st : Status) (kind da cause : Nat) : State :=
  (s.errInfo site st kind da).milTrap site cause da

/-- A failed posted store (R196): the first to memory and the first to I/O are kept for the next FENCE that orders them. -/
def State.storeFail (s : State) (site : Nat) (st : Status) (da : Nat) (io : Bool := false) : State :=
  let s1 := s.errInfo site st kindStore da
  let m := s1.mil site
  s1.setMil site (if io then { m with ioFault := if m.ioFault.isSome then m.ioFault else some (st, da) }
    else { m with storeFault := if m.storeFault.isSome then m.storeFault else some (st, da) })

/-! ## Regions (R195) -/

/-- How an access reaches its target: through the cache, as an uncached access of memory, or as I/O. -/
inductive MilPath where
  | cached | plain | io
  deriving DecidableEq, Repr

/-- The path of a physical address below 2^40 under its page's type. -/
def milPath (pa : Nat) (p : Pbmt) : MilPath :=
  match bitsOf pa 39 38, p with
  | 0, .pma => .cached
  | 0, .nc => .plain
  | 0, .io => .io
  | 1, _ => .plain
  | _, _ => .io

/-- PA[55:40] is zero (R195). -/
def paOk (pa : Nat) : Bool := decide (pa < 2 ^ 40)

/-! ## Cached lines (R197-R199) -/

/-- A line held in L1D or L2. -/
def State.line (s : State) (site l : Nat) : Option CacheLine := Tbl.find (s.mil site).dcache l

/-- A line put in the cache. -/
def State.setLine (s : State) (site l : Nat) (c : CacheLine) : State :=
  s.setMil site { s.mil site with dcache := Tbl.set (s.mil site).dcache l c }

/-- A line dropped. -/
def State.dropLine (s : State) (site l : Nat) : State :=
  s.setMil site { s.mil site with dcache := Tbl.del (s.mil site).dcache l }

/-- MIL_CACHE_UE (R199, R205): a line is marked poisoned; which cache is free. -/
def State.cacheUe (s : State) (site l : Nat) (dirty : Bool) : State :=
  (s.draw).raise .MIL_CACHE_UE site uMilliner [(1, s.freeVal % 2), (8, 64 * l), (1, if dirty then 1 else 0)]

/-- MIL_CACHE_CE (R205): which cache, set and way is free. -/
def State.cacheCe (s : State) (site : Nat) : State :=
  (s.draw 3).raise .MIL_CACHE_CE site uMilliner [(1, s.freeAt 0 % 2), (2, s.freeAt 1 % 2 ^ 16), (1, s.freeAt 2 % 256)]

/-- A line brought into the cache, or the status its fill met: a POISON response leaves a poisoned line (R199). -/
def State.fillLine (s : State) (site l : Nat) : State × Except Status CacheLine :=
  match s.line site l with
  | some c => (s, .ok c)
  | none =>
    let g := s.busRead (.milliner site) (64 * l) 64
    if g.status = .ok then
      let c : CacheLine := { bytes := g.data }
      (g.st.setLine site l c, .ok c)
    else if g.status = .poison then
      let c : CacheLine := { bytes := List.replicate 64 0, poisoned := true }
      ((g.st.setLine site l c).cacheUe site l false, .ok c)
    else (g.st, .error g.status)

/-- The lines of a range of at most 64 bytes: (line, offset, bytes). -/
def lineParts (pa n : Nat) : List (Nat × Nat × Nat) :=
  if pa % 64 + n ≤ 64 then [(pa / 64, pa % 64, n)]
  else [(pa / 64, pa % 64, 64 - pa % 64), (pa / 64 + 1, 0, pa % 64 + n - 64)]

/-- Bytes read through the cache: a load from a poisoned line fails with POISON (R199). -/
def State.cacheRead (s : State) (site : Nat) : List (Nat × Nat × Nat) → Got
  | [] => ⟨s, .ok, []⟩
  | (l, o, n) :: ps =>
    match s.fillLine site l with
    | (s1, .error st) => ⟨s1, st, []⟩
    | (s1, .ok c) =>
      if c.poisoned then ⟨s1, .poison, []⟩
      else
        let g := State.cacheRead s1 site ps
        ⟨g.st, g.status, (c.bytes.drop o).take n ++ g.data⟩

/-- Bytes written through the cache; a poisoned line keeps its mark, and its store fails POISON (R196, R199). -/
def State.cacheWrite (s : State) (site : Nat) (data : List Byte) : List (Nat × Nat × Nat) → Put
  | [] => ⟨s, .ok⟩
  | (l, o, n) :: ps =>
    match s.fillLine site l with
    | (s1, .error st) => ⟨s1, st⟩
    | (s1, .ok c) =>
      let s2 := s1.setLine site l { c with bytes := mergeBytes c.bytes o (data.take n), dirty := true }
      let p := State.cacheWrite s2 site (data.drop n) ps
      ⟨p.st, (if c.poisoned then .poison else .ok : Status).orElse p.status⟩

/-- Poison markers into a beat of a slice (R152, R199), and into the channel its copy goes to (R165). -/
def State.slicePoison (s : State) (c o : Nat) : State :=
  let lch := sliceLch o
  let byte := chanByte (sliceBank o) (sliceRow o) (sliceCol o)
  if s.lchDead c lch then s
  else
    let s1 := s.beatPoison c (s.remap c lch) byte
    match s.mirror c lch with
    | some d => s1.beatPoison c d byte
    | none => s1

/-- A line written back (R198, R199): a poisoned one as poison markers; a refused write-back is a store's fault. -/
def State.writeBack (s : State) (site l : Nat) (c : CacheLine) : State :=
  if !c.dirty then s
  else
    let p : Put :=
      if c.poisoned then
        match s.checkReq .write (.milliner site) (64 * l) 64, s.decodeDa (64 * l) with
        | .pass, .dram k o => ⟨(s.slicePoison k o).slicePoison k (o + 32), .ok⟩
        | .pass, _ => ⟨s, .ok⟩
        | x, _ => ⟨s.refuse (.milliner site) (64 * l) x, x.status⟩
      else s.busWrite (.milliner site) (64 * l) c.bytes
    if p.status = .ok then p.st else p.st.storeFail site p.status (64 * l)

/-! ## Loads and stores (R195, R196) -/

/-- A hart runs: started, and not held in reset. -/
def State.milRuns (s : State) (site : Nat) : Bool := (s.mil site).running

/-- A value of `size` bytes as a register takes it. -/
def loadValue (data : List Byte) (size : Nat) (signed : Bool) : Nat :=
  if signed then unsignedOf 64 (signedOf (8 * size) (leNat data)) else leNat data

/-- An error met in a cached line (R199, R205): one of a single bit is corrected and reported; an uncorrectable one in a dirty line
marks it poisoned, a clean line is filled again (DESIGN CHOICE, log 112: the spec speaks of dirty lines only). -/
def State.meetErr (s : State) (site l : Nat) : LineErr → State
  | .none => s
  | .corrected => s.cacheCe site
  | .uncorrectable =>
    match s.line site l with
    | some c => if c.dirty then (s.setLine site l { c with poisoned := true }).cacheUe site l true else s.dropLine site l
    | none => s

/-- An access waits: a line it must fill, or what it reaches uncached, is not ready (R12, R22, R160). -/
def State.milWaits (s : State) (site : Nat) (k : ReqKind) (pa n : Nat) : MilPath → Bool
  | .cached => (lineParts pa n).any (fun x => (s.line site x.1).isNone && s.daHeld .read (.milliner site) (64 * x.1) 64)
  | _ => s.daHeld k (.milliner site) pa n

/-- A load. -/
def State.milLoad (s : State) (site rd pa size : Nat) (signed : Bool) (p : Pbmt) (err : LineErr) : State :=
  if !s.milRuns site || s.milWaits site .read pa size (milPath pa p) then s
  else if !paOk pa then s.milTrap site causeLoad pa
  else
    let a : Agent := .milliner site
    match milPath pa p with
    | .cached =>
      let g := (s.meetErr site (pa / 64) err).cacheRead site (lineParts pa size)
      if g.status = .ok then g.st.milWrite site rd (loadValue g.data size signed) else g.st.milFail site g.status kindLoad pa causeLoad
    | .plain =>
      let g := s.daRead a pa size
      if g.status = .ok then g.st.milWrite site rd (loadValue g.data size signed) else g.st.milFail site g.status kindLoad pa causeLoad
    | .io =>
      if pa % size ≠ 0 then s.milTrap site causeLoadAlign pa
      else if 2 ^ 39 ≤ pa ∧ !shapeOk s.hb.active .read (s.decodeDa pa) pa size ∧ s.decodeDa pa ≠ .unmapped then
        s.milTrap site causeLoad pa
      else
        let g := s.busRead a pa size
        if g.status = .ok then g.st.milWrite site rd (loadValue g.data size signed) else g.st.milFail site g.status kindLoad pa causeLoad

/-- MIL_LOAD (R195, R196, R199). -/
def execMilLoad (site rd pa size : Nat) (signed : Bool) (pbmt : Pbmt) (err : LineErr) (s : State) :
    Host.Outcome State Fault Refusal :=
  .next (s.milLoad site rd pa size signed pbmt err)

/-- A store: it retires, and a failure waits for a FENCE (R196). -/
def State.milStore (s : State) (site pa size : Nat) (val : Word) (p : MilPage) : State :=
  let path := milPath pa p.pbmt
  if !s.milRuns site || s.milWaits site .write pa size path then s
  else if !paOk pa then s.milTrap site causeStore pa
  else
    let a : Agent := .milliner site
    let data := leBytes size val.toNat
    let posted : Put → State := fun q =>
      if q.status = .ok then q.st.milNext site else (q.st.storeFail site q.status pa (path == .io)).milNext site
    match path with
    | .cached => posted ((s.meetErr site (pa / 64) p.err).cacheWrite site data (lineParts pa size))
    | .plain => posted (s.daWrite a pa data)
    | .io =>
      if pa % size ≠ 0 then s.milTrap site causeStoreAlign pa
      else if 2 ^ 39 ≤ pa ∧ !shapeOk s.hb.active .write (s.decodeDa pa) pa size ∧ s.decodeDa pa ≠ .unmapped then
        s.milTrap site causeStore pa
      else posted (s.busWrite a pa data)

/-- MIL_STORE (R195, R196). -/
def execMilStore (site pa size : Nat) (val : Word) (page : MilPage) (s : State) : Host.Outcome State Fault Refusal :=
  .next (s.milStore site pa size val page)

/-! ## Atomics (R195) -/

/-- The old value of an AMO as its register takes it. -/
def amoOld (size v : Nat) : Nat := unsignedOf 64 (signedOf (8 * size) v)

/-- An AMO. -/
def State.milAmoOp (s : State) (site rd : Nat) (op : AmoOp) (pa size x : Nat) (p : Pbmt) : State :=
  match milPath pa p with
  | .io => s.milTrap site causeStore pa
  | .cached =>
    let g := s.cacheRead site (lineParts pa size)
    if g.status ≠ .ok then g.st.milFail site g.status kindAmo pa causeLoad
    else
      let q := g.st.cacheWrite site (leBytes size (amoValue op size (leNat g.data) x).1) (lineParts pa size)
      q.st.milWrite site rd (amoOld size (leNat g.data))
  | .plain =>
    let g := s.daAtomic (.milliner site) pa op size x
    if g.status ≠ .ok then g.st.milFail site g.status kindAmo pa causeLoad
    else g.st.milWrite site rd (amoOld size (leNat g.data))

/-- LR: a load that reserves its line; not in SRAM or I/O (R195). -/
def State.milLr (s : State) (site rd pa size : Nat) (p : Pbmt) : State :=
  if bitsOf pa 39 38 ≠ 0 ∨ milPath pa p = .io then s.milTrap site causeLoad pa
  else
    let g := if milPath pa p = .cached then s.cacheRead site (lineParts pa size) else s.daRead (.milliner site) pa size
    if g.status ≠ .ok then g.st.milFail site g.status kindAmo pa causeLoad
    else
      let s1 := g.st.milWrite site rd (amoOld size (leNat g.data))
      s1.setMil site { s1.mil site with resv := some (pa / 64) }

/-- SC: the store is made only where the line is still reserved, and rd tells (0 done); not in SRAM or I/O (R195). -/
def State.milSc (s : State) (site rd pa size x : Nat) (p : Pbmt) : State :=
  if bitsOf pa 39 38 ≠ 0 ∨ milPath pa p = .io then s.milTrap site causeStore pa
  else
    let held := (s.mil site).resv == some (pa / 64)
    let s0 := s.setMil site { s.mil site with resv := none }
    if !held then s0.milWrite site rd 1
    else
      let q := if milPath pa p = .cached then s0.cacheWrite site (leBytes size x) (lineParts pa size)
        else s0.daWrite (.milliner site) pa (leBytes size x)
      if q.status ≠ .ok then q.st.milFail site q.status kindAmo pa causeStore else q.st.milWrite site rd 0

/-- An atomic instruction. -/
def State.milAmo (s : State) (site rd : Nat) (op : MilAmo) (pa size x : Nat) (page : MilPage) : State :=
  let p := page.pbmt
  if !s.milRuns site || s.milWaits site (if op = .lr then .read else if op = .sc then .write else .atomic) pa size (milPath pa p)
  then s
  else
    let lr := op == .lr
    if !paOk pa then s.milTrap site (if lr then causeLoad else causeStore) pa
    else if size = 0 ∨ pa % size ≠ 0 then s.milTrap site (if lr then causeLoadAlign else causeStoreAlign) pa
    else
      let s0 := if milPath pa p = .cached then s.meetErr site (pa / 64) page.err else s
      match op with
      | .amo o => s0.milAmoOp site rd o pa size x p
      | .lr => s0.milLr site rd pa size p
      | .sc => s0.milSc site rd pa size x p

/-- MIL_AMO (R195). -/
def execMilAmo (site rd : Nat) (op : MilAmo) (pa size : Nat) (operand : Word) (page : MilPage) (s : State) :
    Host.Outcome State Fault Refusal :=
  .next (s.milAmo site rd op pa size operand.toNat page)

/-! ## Fetches (R195, R196, R375) -/

/-- An instruction fetch: from L1I, refilled on a parity error, or through L2; of a page that is not cacheable, uncached, and of
one typed I/O not at all. -/
def State.milFetch (s : State) (site pa : Nat) (f : MilFetch) : State :=
  let path := milPath pa f.page.pbmt
  let l := pa / 64
  let hit := (Tbl.find (s.mil site).icache l).isSome && !f.parity
  if !s.milRuns site then s
  else if !paOk pa ∨ bitsOf pa 39 38 ≠ 0 ∨ path = .io then s.milTrap site causeFetch pa
  else if path = .plain then
    if s.daHeld .read (.milliner site) (64 * l) 64 then s
    else
      let g := s.busRead (.milliner site) (64 * l) 64
      if g.status = .ok then g.st else g.st.milFail site g.status kindFetch pa causeFetch
  else if hit || s.milWaits site .read pa 1 .cached then s
  else
    match (s.meetErr site l f.page.err).fillLine site l with
      | (s1, .error st) => s1.milFail site st kindFetch pa causeFetch
      | (s1, .ok c) =>
        if c.poisoned then s1.milFail site .poison kindFetch pa causeFetch
        else s1.setMil site { s1.mil site with icache := Tbl.set (s1.mil site).icache l { bytes := c.bytes } }

/-- MIL_FETCH (R375). -/
def execMilFetch (site pa : Nat) (mode : MilFetch) (s : State) : Host.Outcome State Fault Refusal :=
  .next (s.milFetch site pa mode)

/-! ## Cache maintenance (R198) -/

/-- A cache operation on the line of an address; it waits for what its line would be written to. -/
def State.cbo (s : State) (site : Nat) (a : MilAddr) (act : State → Nat → State) : State :=
  if !s.milRuns site then s
  else if !paOk a.pa then s.milTrap site causeStore a.pa
  else (act s (a.pa / 64)).milNext site

/-- A line that is to be written back waits for its channel (R12). -/
def State.backWaits (s : State) (site l : Nat) : Bool :=
  match s.line site l with
  | some c => c.dirty && s.daHeld .write (.milliner site) (64 * l) 64
  | none => false

/-- A dirty line written back and clean. -/
def State.cleanLine (s : State) (site l : Nat) : State :=
  match s.line site l with
  | some c => (s.writeBack site l c).setLine site l { c with dirty := false }
  | none => s

/-- CBO_CLEAN (R198). -/
def execCboClean (site : Nat) (pa : MilAddr) (s : State) : Host.Outcome State Fault Refusal :=
  .next (if s.backWaits site (pa.pa / 64) then s
    else s.cbo site pa (fun t l => (t.meetErr site l pa.page.err).cleanLine site l))

/-- CBO_FLUSH (R198). -/
def execCboFlush (site : Nat) (pa : MilAddr) (s : State) : Host.Outcome State Fault Refusal :=
  .next (if s.backWaits site (pa.pa / 64) then s
    else s.cbo site pa (fun t l => ((t.meetErr site l pa.page.err).cleanLine site l).dropLine site l))

/-- CBO_INVAL (R198, R199): the line is gone, and its mark. -/
def execCboInval (site : Nat) (pa : MilAddr) (s : State) : Host.Outcome State Fault Refusal :=
  .next (s.cbo site pa (fun t l => t.dropLine site l))

/-- A zeroed line written: into the cache for cacheable DRAM, to the SRAM or to DRAM of an NC page itself, not to I/O. -/
def State.zeroLine (s : State) (site : Nat) (a : MilAddr) : State :=
  match milPath a.pa a.page.pbmt with
  | .cached => s.cbo site a (fun t l => t.setLine site l { bytes := List.replicate 64 0, dirty := true })
  | .plain =>
    if s.daHeld .write (.milliner site) (64 * (a.pa / 64)) 64 then s
    else s.cbo site a (fun t l =>
      let q := t.busWrite (.milliner site) (64 * l) (List.replicate 64 0)
      if q.status = .ok then q.st else q.st.storeFail site q.status (64 * l))
  | .io => if s.milRuns site then s.milTrap site causeStore a.pa else s

/-- CBO_ZERO (R198). -/
def execCboZero (site : Nat) (pa : MilAddr) (s : State) : Host.Outcome State Fault Refusal := .next (s.zeroLine site pa)

/-- The failed store a FENCE orders (R196): to memory by W, to I/O by O; of two, either comes first (free). -/
def Mil.ordered (m : Mil) (p : FencePred) (free : Nat) : Option Nat :=
  let a := if p.w then m.storeFault else none
  let b := if p.o then m.ioFault else none
  ((if free % 2 = 0 then a.orElse (fun _ => b) else b.orElse (fun _ => a))).map (·.2)

/-- MIL_FENCE (R196, R198): where it orders earlier stores, a failed one is reported at it; mepc is the FENCE. -/
def execMilFence (site : Nat) (pred : FencePred) (s : State) : Host.Outcome State Fault Refusal :=
  .next (
    let m := s.mil site
    if !s.milRuns site then s
    else match m.ordered pred s.freeVal with
      | some da =>
        ((s.draw).setMil site { m with storeFault := if pred.w then none else m.storeFault,
                                       ioFault := if pred.o then none else m.ioFault }).milTrap site causeStore da
      | none => s.milNext site)

/-- FENCE_I (R200): L1I holds nothing older. -/
def execFenceI (site : Nat) (s : State) : Host.Outcome State Fault Refusal :=
  .next (if !s.milRuns site then s
    else (s.setMil site { s.mil site with icache := [] }).milNext site)

/-! ## The watchdog (R204) -/

/-- MILLINER_WDOG_WARNING (R204). -/
def execMillinerWdogWarning (site : Nat) (s : State) : Host.Outcome State Fault Refusal :=
  .next (if s.fld MIL_WDOG.EN site 0 = 1 ∧ s.milRuns site ∧ !(s.mil site).warned then
      (s.setMil site { s.mil site with warned := true }).milIrq site 9
    else s)

/-- MILLINER_WDOG_EXPIRY (R204, R314, R323): the hart, its caches, its interrupts and the APLIC are reset and held; the
partition's sequences are lost where the tile is its queue owner. -/
def execMillinerWdogExpiry (site : Nat) (s : State) : Host.Outcome State Fault Refusal :=
  .next (if s.fld MIL_WDOG.EN site 0 = 1 ∧ s.milRuns site then
      let m := s.mil site
      let s1 := (s.raise .MILLINER_HANG site uMilliner [(8, m.pc.toNat)]).setMil site { fulIrq := m.fulIrq }
      let s2 := s1.holdMil site
      (s2.loseParts .fenced (s2.ownedBy site)).refreshDeg
    else s)

/-! ## Other instructions (R194) -/

/-- A write of satp: an unsupported MODE, Sv57 among them, leaves it unchanged. -/
def Mil.writeSatp (m : Mil) (v : Word) : Mil :=
  if getBits v 63 60 = 0 ∨ getBits v 63 60 = 8 ∨ getBits v 63 60 = 9 then m.setCsr csrSatp v else m

/-- The bits of mstatus that sstatus shows. -/
def sstatusMask : Word := 0x80000003000DE762

/-- The interrupt file a CSR of the AIA text acts on: 0 machine level, 1 supervisor level (R201; log 23). -/
def fileOf (k : Nat) : Option Nat := if k / 16 = 0x35 then some 0 else if k / 16 = 0x15 then some 1 else none

/-- Where a file's own register is kept among the CSRs: 0x70 EIDELIVERY, 0x72 EITHRESHOLD, 0xC0 on the enable bits. -/
def fileKey (file sel : Nat) : Nat := 0x1000 * (file + 1) + sel

/-- Identity `id` of a file is pending, enabled and below the file's threshold. -/
def Mil.fileTells (m : Mil) (file id : Nat) : Bool :=
  let t := (m.csr (fileKey file 0x72)).toNat
  m.eip.contains (256 * file + id) && getBits (m.csr (fileKey file (0xC0 + 2 * (id / 64)))) (id % 64) (id % 64) == 1 &&
    (t == 0 || decide (id < t))

/-- The value of mtopei or stopei: the lowest identity told, in both halves; 0: none. -/
def Mil.topei (m : Mil) (file : Nat) : Nat := 0x10001 * ((List.range 256).find? (m.fileTells file)).getD 0

/-- The 64 pending bits from identity `lo` of a file. -/
def Mil.eipWord (m : Mil) (file lo : Nat) : Nat :=
  ((List.range 64).map (fun i => if m.eip.contains (256 * file + lo + i) then 2 ^ i else 0)).sum

/-- A CSR of an interrupt file read: the top identity, the select, or the selected register. -/
def Mil.fileRead (m : Mil) (k file : Nat) : Nat :=
  let sel := (m.csr (k / 16 * 16)).toNat
  if k % 16 = 0xC then m.topei file
  else if k % 16 = 0 then sel
  else if 0x80 ≤ sel ∧ sel < 0xC0 then m.eipWord file (32 * (sel - 0x80))
  else (m.csr (fileKey file sel)).toNat

/-- A CSR of an interrupt file written: of the top identity, its claim, which clears it. -/
def Mil.fileWrite (m : Mil) (k file : Nat) (v : Word) : Mil :=
  let sel := (m.csr (k / 16 * 16)).toNat
  if k % 16 = 0xC then { m with eip := m.eip.filter (· != 256 * file + m.topei file % 0x10000) }
  else if k % 16 = 0 then m.setCsr k v
  else if 0x80 ≤ sel ∧ sel < 0xC0 then
    let lo := 256 * file + 32 * (sel - 0x80)
    { m with eip := m.eip.filter (fun e => decide (e < lo ∨ lo + 64 ≤ e)) ++
        ((List.range 64).filter (fun i => v.getLsbD i && (lo + i) % 256 != 0)).map (lo + ·) }
  else m.setCsr (fileKey file sel) v

/-- The CSRs of RVA23S64, machine mode, H, Sstc and the AIA (RISC-V numbers, log 18); another number is illegal. -/
def csrExists (k : Nat) : Bool :=
  [0x001, 0x002, 0x003, 0x008, 0x009, 0x00A, 0x00F, 0x100, 0x104, 0x105, 0x106, 0x10A, 0x14D, 0x180, 0x204, 0x205, 0x200,
    0x24D, 0x280, 0x340, 0x341, 0x342, 0x343, 0x344, 0x34A, 0x34B, 0x600, 0x680, 0xC20, 0xC21, 0xC22, 0xDA0, 0xDB0, 0xE12,
    0xEB0, 0xFB0].contains k ||
  [(0x140, 0x144), (0x240, 0x244), (0x300, 0x306), (0x320, 0x33F), (0x3A0, 0x3EF), (0x602, 0x607), (0x643, 0x64A),
    (0xB00, 0xB1F), (0xC00, 0xC1F), (0xF11, 0xF15)].any (fun r => decide (r.1 ≤ k ∧ k ≤ r.2)) ||
  ((fileOf k).isSome && [0x0, 0x1, 0xC].contains (k % 16)) || k == 0x30A

/-- A CSR written: sstatus is a part of mstatus. -/
def Mil.writeCsr (m : Mil) (k : Nat) (v : Word) : Mil :=
  if k = csrSatp then m.writeSatp v
  else if (fileOf k).isSome then m.fileWrite k ((fileOf k).getD 0) v
  else if k = csrSstatus then m.setCsr csrMstatus ((m.csr csrMstatus &&& ~~~sstatusMask) ||| (v &&& sstatusMask))
  else m.setCsr k v

/-- The value a CSR read gives: mhartid is the site, time and cycle are free counts (log 8). -/
def State.csrValue (s : State) (site k : Nat) : Nat :=
  if k = 0xF14 then site
  else if k = 0xC00 ∨ k = 0xC01 then s.freeVal % 2 ^ 64
  else if (fileOf k).isSome then (s.mil site).fileRead k ((fileOf k).getD 0)
  else if k = csrSstatus then ((s.mil site).csr csrMstatus &&& sstatusMask).toNat
  else ((s.mil site).csr k).toNat

/-- A CSR instruction: a CSR that does not exist, a mode too low or a write to a read-only register is illegal. -/
def State.milCsr (s : State) (site w : Nat) : State :=
  let m := s.mil site
  let k := bitsOf w 31 20
  let f3 := rvF3 w
  let src := if 4 ≤ f3 then rvRs1 w else m.reg (rvRs1 w)
  let writes := decide (f3 % 4 = 1) || decide (rvRs1 w ≠ 0)
  if !csrExists k ∨ m.priv < (if bitsOf k 9 8 = 2 then 1 else bitsOf k 9 8) ∨ (writes ∧ bitsOf k 11 10 = 3) then s.milTrap site causeIllegal w
  else
    let old := s.csrValue site k
    let new := BitVec.ofNat 64 (if f3 % 4 = 1 then src else if f3 % 4 = 2 then old ||| src else old &&& (2 ^ 64 - 1 - src))
    let m1 := if writes then m.writeCsr k new else m
    (s.draw).setMil site (m1.setX (rvRd w) old).after

/-- The kinds of the instructions that are no base integer ones: an integer result (M, B and Zc* arithmetic), a
floating-point result, a vector one, a privileged one, one of memory (a command of its own), or none of the implemented. -/
inductive RvaKind where
  | int | fp | fpToInt | vec | vecToInt | vecToFp | vset | sret | mret | hint | memory | illegal
  deriving DecidableEq, Repr

/-- The kind of a 32-bit word (RISC-V encodings, log 18). -/
def rvaKind (w : Nat) : RvaKind :=
  match rvOp w with
  | 0x13 | 0x1B | 0x33 | 0x3B => .int
  | 0x43 | 0x47 | 0x4B | 0x4F => .fp
  | 0x07 | 0x27 | 0x2F | 0x0F => .memory
  | 0x53 => if bitsOf w 31 27 = 0x14 ∨ bitsOf w 31 27 = 0x18 ∨ bitsOf w 31 27 = 0x1C then .fpToInt else .fp
  | 0x57 =>
    if rvF3 w = 7 then .vset
    else if bitsOf w 31 26 = 0x10 ∧ rvF3 w = 2 then .vecToInt
    else if bitsOf w 31 26 = 0x10 ∧ rvF3 w = 1 then .vecToFp
    else .vec
  | 0x73 =>
    if rvF3 w = 4 then .memory
    else if w = 0x10200073 then .sret
    else if w = 0x30200073 then .mret
    else if w = 0x10500073 ∨ rvF7 w = 0x09 ∨ rvF7 w = 0x0B ∨ rvF7 w = 0x0C ∨ rvF7 w = 0x11 ∨ rvF7 w = 0x13 ∨ rvF7 w = 0x31 ∨
      rvF7 w = 0x33 then .hint
    else .illegal
  | _ => .illegal

/-- A vector group's registers take free values (log 18). -/
def freeVecs (free : Nat → Nat) (rd : Nat) (v : Tbl (BitVec 256)) : Nat → Tbl (BitVec 256)
  | 0 => v
  | k + 1 => freeVecs free rd (if rd + k < 32 then Tbl.set v (rd + k) (BitVec.ofNat 256 (free k)) else v) k

/-- An instruction beyond the base integer set: its result is that of the RISC-V standard, here a fixed function of the
integer operands or a free value (log 18). -/
def State.milExt (s : State) (site : Nat) (w : BitVec 32) : State :=
  let m := s.mil site
  let n := w.toNat
  let rd := rvRd n
  match rvaKind n with
  | .int => s.milWrite site rd (Config.rvResult w (BitVec.ofNat 64 (m.reg (rvRs1 n))) (BitVec.ofNat 64 (m.reg (rvRs2 n)))).toNat
  | .fpToInt | .vecToInt | .vset => (s.draw).milWrite site rd s.freeVal
  | .fp | .vecToFp => (s.draw).setMil site { m with f := Tbl.set m.f rd (BitVec.ofNat 64 s.freeVal), pc := m.pc + 4 }
  | .vec => (s.draw 8).setMil site { m with v := freeVecs s.freeAt rd m.v 8, pc := m.pc + 4 }
  | .sret => if m.priv = 0 then s.milTrap site causeIllegal n else s.setMil site (m.ret false)
  | .mret => if m.priv < 3 then s.milTrap site causeIllegal n else s.setMil site (m.ret true)
  | .hint => s.milNext site
  | .memory => s
  | .illegal => s.milTrap site causeIllegal n

/-- An instruction word: what RV64I gives it, else what the profile's extensions do. Loads, stores, atomics, cache operations
and fences are commands of their own. -/
def State.milWord (s : State) (site : Nat) (w : BitVec 32) : State :=
  let m := s.mil site
  match rvBase 64 32 m.reg m.pc.toNat 4 w.toNat with
  | .write rd v => s.milWrite site rd v
  | .jump rd t => s.setMil site { m.setX rd (m.pc.toNat + 4) with pc := BitVec.ofNat 64 t }
  | .branch t => s.setMil site { m with pc := BitVec.ofNat 64 t }
  | .load .. | .store .. | .nothing => s
  | .trap =>
    if bitsOf w.toNat 20 20 = 1 then s.milTrap site causeBreak m.pc.toNat
    else s.milTrap site (8 + m.priv) 0
  | .csr k => s.milCsr site k
  | .illegal => s.milExt site w

/-- MILLINER_INSTR (R194). -/
def execMillinerInstr (site : Nat) (i : MilInstr) (s : State) : Host.Outcome State Fault Refusal :=
  .next (if !s.milRuns site then s
    else match i with
      | .word w => s.milWord site w
      | .satp v => s.setMil site ((s.mil site).writeSatp v).after
      | .unimplemented w => s.milTrap site causeIllegal w.toNat)

end Sys2Proof.Machine
end

