-- ==== Sys2Proof/Machine/Dispatch.lean ====
section
/-! DEFINITION. The commands' meanings, one arm per command. -/

namespace Sys2Proof.Machine

def exec (i : Instr) (s : State) : Host.Outcome State Fault Refusal :=
  match i with
  | .registerWrite by_ tgt size val => Sys2Proof.Machine.execRegisterWrite by_ tgt size val s
  | .rateWindowEnd die => Sys2Proof.Machine.execRateWindowEnd die s
  | .read by_ tag da len => Sys2Proof.Machine.execRead by_ tag da len s
  | .write by_ tag da data => Sys2Proof.Machine.execWrite by_ tag da data s
  | .atomic by_ tag da op size operand => Sys2Proof.Machine.execAtomic by_ tag da op size operand s
  | .response by_ tag => Sys2Proof.Machine.execResponse by_ tag s
  | .mcast site dist seq typ data => Sys2Proof.Machine.execMcast site dist seq typ data s
  | .mgmt site req => Sys2Proof.Machine.execMgmt site req s
  | .meshForward router pkt => Sys2Proof.Machine.execMeshForward router pkt s
  | .sramCeWriteback core => Sys2Proof.Machine.execSramCeWriteback core s
  | .sramClearDone core => Sys2Proof.Machine.execSramClearDone core s
  | .tailWrite core q value => Sys2Proof.Machine.execTailWrite core q value s
  | .resume core q sigFailed => Sys2Proof.Machine.execResume core q sigFailed s
  | .skip core q sigFailed => Sys2Proof.Machine.execSkip core q sigFailed s
  | .ringFetchDone core q => Sys2Proof.Machine.execRingFetchDone core q s
  | .commandComplete core q index => Sys2Proof.Machine.execCommandComplete core q index s
  | .waitLimitExpiry core q => Sys2Proof.Machine.execWaitLimitExpiry core q s
  | .nop core q => Sys2Proof.Machine.execNop core q s
  | .halt core q => Sys2Proof.Machine.execHalt core q s
  | .msg core q => Sys2Proof.Machine.execMsg core q s
  | .wreg core q => Sys2Proof.Machine.execWreg core q s
  | .semWait core q => Sys2Proof.Machine.execSemWait core q s
  | .semSig core q => Sys2Proof.Machine.execSemSig core q s
  | .semSet core q => Sys2Proof.Machine.execSemSet core q s
  | .rsig core q => Sys2Proof.Machine.execRsig core q s
  | .fence core q => Sys2Proof.Machine.execFence core q s
  | .bfence core q => Sys2Proof.Machine.execBfence core q s
  | .heavy core q => Sys2Proof.Machine.execHeavy core q s
  | .light core q => Sys2Proof.Machine.execLight core q s
  | .reservationStart core => Sys2Proof.Machine.execReservationStart core s
  | .reservationEnd core => Sys2Proof.Machine.execReservationEnd core s
  | .forecastEnd core => Sys2Proof.Machine.execForecastEnd core s
  | .slotAdv core q => Sys2Proof.Machine.execSlotAdv core q s
  | .seedGo core slot => Sys2Proof.Machine.execSeedGo core slot s
  | .guardUpdateDone core slot => Sys2Proof.Machine.execGuardUpdateDone core slot s
  | .crc core q => Sys2Proof.Machine.execCrc core q s
  | .cmp core q => Sys2Proof.Machine.execCmp core q s
  | .copy core => Sys2Proof.Machine.execCopy core s
  | .fill core => Sys2Proof.Machine.execFill core s
  | .xcopy core => Sys2Proof.Machine.execXcopy core s
  | .fgo core => Sys2Proof.Machine.execFgo core s
  | .mma core => Sys2Proof.Machine.execMma core s
  | .drain core => Sys2Proof.Machine.execDrain core s
  | .discard core => Sys2Proof.Machine.execDiscard core s
  | .opx core => Sys2Proof.Machine.execOpx core s
  | .ewop core => Sys2Proof.Machine.execEwop core s
  | .segDown core => Sys2Proof.Machine.execSegDown core s
  | .segUp core => Sys2Proof.Machine.execSegUp core s
  | .mvm core => Sys2Proof.Machine.execMvm core s
  | .chainStreamEnd core array bank => Sys2Proof.Machine.execChainStreamEnd core array bank s
  | .drainCompare core array bank upsets => Sys2Proof.Machine.execDrainCompare core array bank upsets s
  | .drainCommit core array bank => Sys2Proof.Machine.execDrainCommit core array bank s
  | .arrayInplaceCompare core array bank upsets => Sys2Proof.Machine.execArrayInplaceCompare core array bank upsets s
  | .mvBlockCheck core upsets => Sys2Proof.Machine.execMvBlockCheck core upsets s
  | .mvInplaceCompare core k upsets => Sys2Proof.Machine.execMvInplaceCompare core k upsets s
  | .add core => Sys2Proof.Machine.execAdd core s
  | .mul core => Sys2Proof.Machine.execMul core s
  | .axpby core => Sys2Proof.Machine.execAxpby core s
  | .max core => Sys2Proof.Machine.execMax core s
  | .exp core => Sys2Proof.Machine.execExp core s
  | .recip core => Sys2Proof.Machine.execRecip core s
  | .rsqrt core => Sys2Proof.Machine.execRsqrt core s
  | .rowsum core => Sys2Proof.Machine.execRowsum core s
  | .rowmax core => Sys2Proof.Machine.execRowmax core s
  | .rmsnorm core => Sys2Proof.Machine.execRmsnorm core s
  | .rope core => Sys2Proof.Machine.execRope core s
  | .gate core => Sys2Proof.Machine.execGate core s
  | .cvt core => Sys2Proof.Machine.execCvt core s
  | .kvAppend core => Sys2Proof.Machine.execKvAppend core s
  | .attWalk core => Sys2Proof.Machine.execAttWalk core s
  | .attMerge core => Sys2Proof.Machine.execAttMerge core s
  | .quantCtrlWrite core val => Sys2Proof.Machine.execQuantCtrlWrite core val s
  | .msgFifoPop by_ core => Sys2Proof.Machine.execMsgFifoPop by_ core s
  | .dramRead core off len requester e1 e2 => Sys2Proof.Machine.execDramRead core off len requester e1 e2 s
  | .dramWrite core off data requester => Sys2Proof.Machine.execDramWrite core off data requester s
  | .ceWriteback core pch => Sys2Proof.Machine.execCeWriteback core pch s
  | .refresh core pch => Sys2Proof.Machine.execRefresh core pch s
  | .scrubRow core pch => Sys2Proof.Machine.execScrubRow core pch s
  | .retrainDue core pch => Sys2Proof.Machine.execRetrainDue core pch s
  | .retrainEnd core pch pass => Sys2Proof.Machine.execRetrainEnd core pch pass s
  | .channelDeadDetect core pch => Sys2Proof.Machine.execChannelDeadDetect core pch s
  | .rowSoft by_ site val => Sys2Proof.Machine.execRowSoft by_ site val s
  | .colSoft by_ site val => Sys2Proof.Machine.execColSoft by_ site val s
  | .rowFuse by_ site val => Sys2Proof.Machine.execRowFuse by_ site val s
  | .colFuse by_ site val => Sys2Proof.Machine.execColFuse by_ site val s
  | .query by_ site val => Sys2Proof.Machine.execQuery by_ site val s
  | .clearSoft by_ site val => Sys2Proof.Machine.execClearSoft by_ site val s
  | .swap by_ site val => Sys2Proof.Machine.execSwap by_ site val s
  | .return_ by_ site val => Sys2Proof.Machine.execReturn by_ site val s
  | .repairCmdDone site verifyOk => Sys2Proof.Machine.execRepairCmdDone site verifyOk s
  | .swapCopyEnd core => Sys2Proof.Machine.execSwapCopyEnd core s
  | .swapRemap core => Sys2Proof.Machine.execSwapRemap core s
  | .sparePoisonFillEnd core => Sys2Proof.Machine.execSparePoisonFillEnd core s
  | .dramInject by_ site val => Sys2Proof.Machine.execDramInject by_ site val s
  | .fullerMemWrite by_ core n off size val => Sys2Proof.Machine.execFullerMemWrite by_ core n off size val s
  | .loadDone core n => Sys2Proof.Machine.execLoadDone core n s
  | .fullerStop core n => Sys2Proof.Machine.execFullerStop core n s
  | .fullerBaseInstr core n => Sys2Proof.Machine.execFullerBaseInstr core n s
  | .flkBrd core n => Sys2Proof.Machine.execFlkBrd core n s
  | .flkBwr core n => Sys2Proof.Machine.execFlkBwr core n s
  | .flkWld core n => Sys2Proof.Machine.execFlkWld core n s
  | .flkWst core n => Sys2Proof.Machine.execFlkWst core n s
  | .flkWop core n => Sys2Proof.Machine.execFlkWop core n s
  | .flkCrc core n => Sys2Proof.Machine.execFlkCrc core n s
  | .flkSxf core n => Sys2Proof.Machine.execFlkSxf core n s
  | .flkMap core n => Sys2Proof.Machine.execFlkMap core n s
  | .flkSysFence core n => Sys2Proof.Machine.execFlkSysFence core n s
  | .flkSysDone core n => Sys2Proof.Machine.execFlkSysDone core n s
  | .flkSysPet core n => Sys2Proof.Machine.execFlkSysPet core n s
  | .flkSysIrq core n => Sys2Proof.Machine.execFlkSysIrq core n s
  | .flkSysMbox core n => Sys2Proof.Machine.execFlkSysMbox core n s
  | .flkSysPtst core n => Sys2Proof.Machine.execFlkSysPtst core n s
  | .grGather core n => Sys2Proof.Machine.execGrGather core n s
  | .grReduce core n => Sys2Proof.Machine.execGrReduce core n s
  | .grFill core n => Sys2Proof.Machine.execGrFill core n s
  | .grCheck core n => Sys2Proof.Machine.execGrCheck core n s
  | .fullerWdogExpiry core n => Sys2Proof.Machine.execFullerWdogExpiry core n s
  | .fullerFenceTimeout core n => Sys2Proof.Machine.execFullerFenceTimeout core n s
  | .milLoad site rd pa size signed pbmt err => Sys2Proof.Machine.execMilLoad site rd pa size signed pbmt err s
  | .milStore site pa size val page => Sys2Proof.Machine.execMilStore site pa size val page s
  | .milAmo site rd op pa size operand page => Sys2Proof.Machine.execMilAmo site rd op pa size operand page s
  | .milFetch site pa mode => Sys2Proof.Machine.execMilFetch site pa mode s
  | .cboClean site pa => Sys2Proof.Machine.execCboClean site pa s
  | .cboFlush site pa => Sys2Proof.Machine.execCboFlush site pa s
  | .cboInval site pa => Sys2Proof.Machine.execCboInval site pa s
  | .cboZero site pa => Sys2Proof.Machine.execCboZero site pa s
  | .milFence site pred => Sys2Proof.Machine.execMilFence site pred s
  | .fenceI site => Sys2Proof.Machine.execFenceI site s
  | .seteipnum by_ site file identity => Sys2Proof.Machine.execSeteipnum by_ site file identity s
  | .fulIrqPop by_ site => Sys2Proof.Machine.execFulIrqPop by_ site s
  | .wdogPet by_ site val => Sys2Proof.Machine.execWdogPet by_ site val s
  | .millinerWdogWarning site => Sys2Proof.Machine.execMillinerWdogWarning site s
  | .millinerWdogExpiry site => Sys2Proof.Machine.execMillinerWdogExpiry site s
  | .sqTailDoorbell fn q val => Sys2Proof.Machine.execSqTailDoorbell fn q val s
  | .cqHeadDoorbell fn q val => Sys2Proof.Machine.execCqHeadDoorbell fn q val s
  | .ringHeadDoorbell fn ring val => Sys2Proof.Machine.execRingHeadDoorbell fn ring val s
  | .sqFetchDone fn sq entry => Sys2Proof.Machine.execSqFetchDone fn sq entry s
  | .createCq fn sq => Sys2Proof.Machine.execCreateCq fn sq s
  | .deleteCq fn sq => Sys2Proof.Machine.execDeleteCq fn sq s
  | .createSq fn sq => Sys2Proof.Machine.execCreateSq fn sq s
  | .deleteSq fn sq => Sys2Proof.Machine.execDeleteSq fn sq s
  | .createRing fn sq => Sys2Proof.Machine.execCreateRing fn sq s
  | .deleteRing fn sq => Sys2Proof.Machine.execDeleteRing fn sq s
  | .identify fn sq => Sys2Proof.Machine.execIdentify fn sq s
  | .getLog fn sq => Sys2Proof.Machine.execGetLog fn sq s
  | .setCap fn sq => Sys2Proof.Machine.execSetCap fn sq s
  | .partServe fn sq => Sys2Proof.Machine.execPartServe fn sq s
  | .partDrain fn sq => Sys2Proof.Machine.execPartDrain fn sq s
  | .partFence fn sq => Sys2Proof.Machine.execPartFence fn sq s
  | .partReset fn sq => Sys2Proof.Machine.execPartReset fn sq s
  | .partReblock fn sq image => Sys2Proof.Machine.execPartReblock fn sq image s
  | .modDrain fn sq => Sys2Proof.Machine.execModDrain fn sq s
  | .load fn sq data => Sys2Proof.Machine.execLoad fn sq data s
  | .readOut fn sq => Sys2Proof.Machine.execReadOut fn sq s
  | .adapterLoad fn sq data => Sys2Proof.Machine.execAdapterLoad fn sq data s
  | .adapterLoadDone pt adapter => Sys2Proof.Machine.execAdapterLoadDone pt adapter s
  | .submit fn sq prompt => Sys2Proof.Machine.execSubmit fn sq prompt s
  | .cancel fn sq => Sys2Proof.Machine.execCancel fn sq s
  | .kvSend fn sq => Sys2Proof.Machine.execKvSend fn sq s
  | .kvRecv fn sq token => Sys2Proof.Machine.execKvRecv fn sq token s
  | .refill fn sq => Sys2Proof.Machine.execRefill fn sq s
  | .tokenRingWrite pt handle kind value => Sys2Proof.Machine.execTokenRingWrite pt handle kind value s
  | .coalUsExpiry fn isRing id => Sys2Proof.Machine.execCoalUsExpiry fn isRing id s
  | .pullRead fn ring size => Sys2Proof.Machine.execPullRead fn ring size s
  | .apertureAccess fn write off len data => Sys2Proof.Machine.execApertureAccess fn write off len data s
  | .fnCtlWrite fn val => Sys2Proof.Machine.execFnCtlWrite fn val s
  | .functionLevelReset fn => Sys2Proof.Machine.execFunctionLevelReset fn s
  | .flrComplete fn => Sys2Proof.Machine.execFlrComplete fn s
  | .perstAssert => Sys2Proof.Machine.execPerstAssert s
  | .perstDeassert refclk => Sys2Proof.Machine.execPerstDeassert refclk s
  | .hotReset => Sys2Proof.Machine.execHotReset s
  | .linkDown lost => Sys2Proof.Machine.execLinkDown lost s
  | .linkUp width speed => Sys2Proof.Machine.execLinkUp width speed s
  | .blPartnerDetect port => Sys2Proof.Machine.execBlPartnerDetect port s
  | .blPortQualified port badLanes => Sys2Proof.Machine.execBlPortQualified port badLanes s
  | .blFlitRx port flit => Sys2Proof.Machine.execBlFlitRx port flit s
  | .blRetrainEnd port badLanes => Sys2Proof.Machine.execBlRetrainEnd port badLanes s
  | .blLaneFail port lane => Sys2Proof.Machine.execBlLaneFail port lane s
  | .blPortResume port => Sys2Proof.Machine.execBlPortResume port s
  | .blPortFence by_ port => Sys2Proof.Machine.execBlPortFence by_ port s
  | .blPortUnfence by_ port => Sys2Proof.Machine.execBlPortUnfence by_ port s
  | .blForward port pkt => Sys2Proof.Machine.execBlForward port pkt s
  | .blCreditWaitExpiry port vc => Sys2Proof.Machine.execBlCreditWaitExpiry port vc s
  | .sendDoorbell by_ die pt val => Sys2Proof.Machine.execSendDoorbell by_ die pt val s
  | .recvDoorbell by_ die pt val => Sys2Proof.Machine.execRecvDoorbell by_ die pt val s
  | .collDoorbell by_ die pt val => Sys2Proof.Machine.execCollDoorbell by_ die pt val s
  | .open_ pkt => Sys2Proof.Machine.execOpen pkt s
  | .accept pkt => Sys2Proof.Machine.execAccept pkt s
  | .reject pkt => Sys2Proof.Machine.execReject pkt s
  | .data pkt => Sys2Proof.Machine.execData pkt s
  | .close pkt => Sys2Proof.Machine.execClose pkt s
  | .missing pkt => Sys2Proof.Machine.execMissing pkt s
  | .done pkt => Sys2Proof.Machine.execDone pkt s
  | .abort pkt => Sys2Proof.Machine.execAbort pkt s
  | .refillReq pkt => Sys2Proof.Machine.execRefillReq pkt s
  | .coll pkt => Sys2Proof.Machine.execColl pkt s
  | .blMgmt pkt => Sys2Proof.Machine.execBlMgmt pkt s
  | .openRetryTimer xfer => Sys2Proof.Machine.execOpenRetryTimer xfer s
  | .openTimeout xfer => Sys2Proof.Machine.execOpenTimeout xfer s
  | .xferInactivityTimeout xfer => Sys2Proof.Machine.execXferInactivityTimeout xfer s
  | .collDeadline group => Sys2Proof.Machine.execCollDeadline group s
  | .collLostTimeout group child => Sys2Proof.Machine.execCollLostTimeout group child s
  | .fleetSessionSetup peer chainOk svn => Sys2Proof.Machine.execFleetSessionSetup peer chainOk svn s
  | .fleetSessionTimeout peer => Sys2Proof.Machine.execFleetSessionTimeout peer s
  | .epochGraceEnd peer => Sys2Proof.Machine.execEpochGraceEnd peer s
  | .meshFlitRx endpoint link flit => Sys2Proof.Machine.execMeshFlitRx endpoint link flit s
  | .meshLinkResume endpoint link txBad rxBad sbBad peerLevel => Sys2Proof.Machine.execMeshLinkResume endpoint link txBad rxBad sbBad peerLevel s
  | .meshLinkDown endpoint link => Sys2Proof.Machine.execMeshLinkDown endpoint link s
  | .meshTableSwitch tables => Sys2Proof.Machine.execMeshTableSwitch tables s
  | .meshLinkFence by_ endpoint link => Sys2Proof.Machine.execMeshLinkFence by_ endpoint link s
  | .pllLossOfLock endpoint => Sys2Proof.Machine.execPllLossOfLock endpoint s
  | .refclkMissing die => Sys2Proof.Machine.execRefclkMissing die s
  | .aclkWake core => Sys2Proof.Machine.execAclkWake core s
  | .crossingOverrun site core link => Sys2Proof.Machine.execCrossingOverrun site core link s
  | .inputRise40v => Sys2Proof.Machine.execInputRise40v s
  | .modEnRise => Sys2Proof.Machine.execModEnRise s
  | .modEnFall => Sys2Proof.Machine.execModEnFall s
  | .firstStageOpen => Sys2Proof.Machine.execFirstStageOpen s
  | .inputBelow30v => Sys2Proof.Machine.execInputBelow30v s
  | .inputSag vbrimLost => Sys2Proof.Machine.execInputSag vbrimLost s
  | .cardingDone fwOk refclkOk pllOk standbyOk bad => Sys2Proof.Machine.execCardingDone fwOk refclkOk pllOk standbyOk bad s
  | .battingFlowTimeout flow => Sys2Proof.Machine.execBattingFlowTimeout flow s
  | .battingDone bricks bad => Sys2Proof.Machine.execBattingDone bricks bad s
  | .retentionHoldEnd => Sys2Proof.Machine.execRetentionHoldEnd s
  | .fullingDone pathLost bad => Sys2Proof.Machine.execFullingDone pathLost bad s
  | .blockingDone silent => Sys2Proof.Machine.execBlockingDone silent s
  | .sizingDone meterOk diodeOk bad => Sys2Proof.Machine.execSizingDone meterOk diodeOk bad s
  | .finishingDone => Sys2Proof.Machine.execFinishingDone s
  | .linkTrainTimeout => Sys2Proof.Machine.execLinkTrainTimeout s
  | .restart by_ val => Sys2Proof.Machine.execRestart by_ val s
  | .restartWaitEnd => Sys2Proof.Machine.execRestartWaitEnd s
  | .siteBringupDone pt status badSite => Sys2Proof.Machine.execSiteBringupDone pt status badSite s
  | .fenceCore by_ site cmask => Sys2Proof.Machine.execFenceCore by_ site cmask s
  | .resetCore by_ site cmask => Sys2Proof.Machine.execResetCore by_ site cmask s
  | .unfenceCore by_ site cmask => Sys2Proof.Machine.execUnfenceCore by_ site cmask s
  | .testCore by_ site cmask => Sys2Proof.Machine.execTestCore by_ site cmask s
  | .fenceTile by_ site => Sys2Proof.Machine.execFenceTile by_ site s
  | .resetTile by_ site => Sys2Proof.Machine.execResetTile by_ site s
  | .unfenceTile by_ site => Sys2Proof.Machine.execUnfenceTile by_ site s
  | .testTile by_ site => Sys2Proof.Machine.execTestTile by_ site s
  | .testDone site passed milOk => Sys2Proof.Machine.execTestDone site passed milOk s
  | .resetDrainEnd site => Sys2Proof.Machine.execResetDrainEnd site s
  | .brickPoll good => Sys2Proof.Machine.execBrickPoll good s
  | .phaseLoss dom phase commanded measured => Sys2Proof.Machine.execPhaseLoss dom phase commanded measured s
  | .overvoltageDetect dom mv => Sys2Proof.Machine.execOvervoltageDetect dom mv s
  | .isolationCheck dom mv => Sys2Proof.Machine.execIsolationCheck dom mv s
  | .vsenseCheck core readings lasted => Sys2Proof.Machine.execVsenseCheck core readings lasted s
  | .corePwrOn by_ site core => Sys2Proof.Machine.execCorePwrOn by_ site core s
  | .corePwrRetain by_ site core => Sys2Proof.Machine.execCorePwrRetain by_ site core s
  | .corePwrOff by_ site core => Sys2Proof.Machine.execCorePwrOff by_ site core s
  | .admissionHeadroom dom => Sys2Proof.Machine.execAdmissionHeadroom dom s
  | .admissionTimeout dom => Sys2Proof.Machine.execAdmissionTimeout dom s
  | .rampDone dom => Sys2Proof.Machine.execRampDone dom s
  | .voltageMoveDone core => Sys2Proof.Machine.execVoltageMoveDone core s
  | .droopOnset core depth cycles sharePermille => Sys2Proof.Machine.execDroopOnset core depth cycles sharePermille s
  | .estimatorInterval core => Sys2Proof.Machine.execEstimatorInterval core s
  | .gainCalibration core telemetry estimate held => Sys2Proof.Machine.execGainCalibration core telemetry estimate held s
  | .etaRefit meterW meterV domainW => Sys2Proof.Machine.execEtaRefit meterW meterV domainW s
  | .capEvaluation otherMw brimMw => Sys2Proof.Machine.execCapEvaluation otherMw brimMw s
  | .rungUp => Sys2Proof.Machine.execRungUp s
  | .tempSample sensor t => Sys2Proof.Machine.execTempSample sensor t s
  | .tripEnableOpen => Sys2Proof.Machine.execTripEnableOpen s
  | .sensorMissing sensor => Sys2Proof.Machine.execSensorMissing sensor s
  | .flowUpdate => Sys2Proof.Machine.execFlowUpdate s
  | .flowPulseTimeout => Sys2Proof.Machine.execFlowPulseTimeout s
  | .slopeEvaluation => Sys2Proof.Machine.execSlopeEvaluation s
  | .coolantTripCheck => Sys2Proof.Machine.execCoolantTripCheck s
  | .thermistorSample inlet outlet => Sys2Proof.Machine.execThermistorSample inlet outlet s
  | .limitUpdate => Sys2Proof.Machine.execLimitUpdate s
  | .cycleSample => Sys2Proof.Machine.execCycleSample s
  | .cycleFlashWrite => Sys2Proof.Machine.execCycleFlashWrite s
  | .eventDelivery => Sys2Proof.Machine.execEventDelivery s
  | .hatbandWdogExpiry cause => Sys2Proof.Machine.execHatbandWdogExpiry cause s
  | .hatbandMirror => Sys2Proof.Machine.execHatbandMirror s
  | .getVersion t => Sys2Proof.Machine.execGetVersion t s
  | .getCapabilities t => Sys2Proof.Machine.execGetCapabilities t s
  | .negotiateAlgorithms t offersAll => Sys2Proof.Machine.execNegotiateAlgorithms t offersAll s
  | .getDigests t => Sys2Proof.Machine.execGetDigests t s
  | .getCertificate t slot => Sys2Proof.Machine.execGetCertificate t slot s
  | .challenge t slot nonce => Sys2Proof.Machine.execChallenge t slot nonce s
  | .getMeasurements t index => Sys2Proof.Machine.execGetMeasurements t index s
  | .measurementReady pt => Sys2Proof.Machine.execMeasurementReady pt s
  | .keyExchange t secret => Sys2Proof.Machine.execKeyExchange t secret s
  | .finish t ok => Sys2Proof.Machine.execFinish t ok s
  | .keyUpdate t => Sys2Proof.Machine.execKeyUpdate t s
  | .heartbeat t => Sys2Proof.Machine.execHeartbeat t s
  | .endSession t => Sys2Proof.Machine.execEndSession t s
  | .vendorDefinedRequest t body => Sys2Proof.Machine.execVendorDefinedRequest t body s
  | .e2eOn fn => Sys2Proof.Machine.execE2eOn fn s
  | .keyProg fn keySet key => Sys2Proof.Machine.execKeyProg fn keySet key s
  | .kSetGo fn keySet => Sys2Proof.Machine.execKSetGo fn keySet s
  | .kSetStop fn keySet => Sys2Proof.Machine.execKSetStop fn keySet s
  | .queryDeviceIdentifiers t => Sys2Proof.Machine.execQueryDeviceIdentifiers t s
  | .getFirmwareParameters t => Sys2Proof.Machine.execGetFirmwareParameters t s
  | .requestUpdate t => Sys2Proof.Machine.execRequestUpdate t s
  | .passComponentTable t components => Sys2Proof.Machine.execPassComponentTable t components s
  | .updateComponent t component size => Sys2Proof.Machine.execUpdateComponent t component size s
  | .requestFirmwareData t bytes => Sys2Proof.Machine.execRequestFirmwareData t bytes s
  | .activateFirmware t selfContained => Sys2Proof.Machine.execActivateFirmware t selfContained s
  | .getStatus t => Sys2Proof.Machine.execGetStatus t s
  | .cancelUpdateComponent t => Sys2Proof.Machine.execCancelUpdateComponent t s
  | .cancelUpdate t => Sys2Proof.Machine.execCancelUpdate t s
  | .confirm by_ => Sys2Proof.Machine.execConfirm by_ s
  | .revert by_ => Sys2Proof.Machine.execRevert by_ s
  | .ownerEnroll t slot hash => Sys2Proof.Machine.execOwnerEnroll t slot hash s
  | .revocationOrder image => Sys2Proof.Machine.execRevocationOrder image s
  | .rollCall => Sys2Proof.Machine.execRollCall s
  | .distHashDone site => Sys2Proof.Machine.execDistHashDone site s
  | .fullerClaimTimeout core n => Sys2Proof.Machine.execFullerClaimTimeout core n s
  | .distCommit => Sys2Proof.Machine.execDistCommit s
  | .registerReadClear by_ tgt size => Sys2Proof.Machine.execRegisterReadClear by_ tgt size s
  | .millinerInstr site op => Sys2Proof.Machine.execMillinerInstr site op s
  | .vfEnable numVfs enable => Sys2Proof.Machine.execVfEnable numVfs enable s
  | .msixUnmask fn vector => Sys2Proof.Machine.execMsixUnmask fn vector s
  | .managementCapWrite watts => Sys2Proof.Machine.execManagementCapWrite watts s
  | .brimDieFence die => Sys2Proof.Machine.execBrimDieFence die s
  | .flowPulse => Sys2Proof.Machine.execFlowPulse s
  | .firstStageLatchClear => Sys2Proof.Machine.execFirstStageLatchClear s

end Sys2Proof.Machine
end

