-- ==== Sys2Proof/Safety.lean ====
section
/-! DEFINITION. The terms the statements use: when a command completes, the invariants of the block, and what flash and fuses
never lose. -/

namespace Sys2Proof.Machine

/-- The command answers a next state, and that state is so. -/
def Completes (c : Instr) (s : State) (p : State → Prop) : Prop := ∃ t, exec c s = .next t ∧ p t

/-- The Hatband is in a legal place: its active copy is on BD0 or, after a failover, on BD2 (R375), and its stage is OFF (0),
one of the six of R290, or in service (7). -/
abbrev HatbandLegal (h : Hatband) : Prop := (h.active = 0 ∨ h.active = 2) ∧ h.stage ≤ 7

/-- The stores of event records hold no more than R380 and R381 give them: the module log 16,384, the flash store 4,096, each
function buffer 1,024. -/
def LogsBounded (e : EventState) : Prop :=
  e.log.length ≤ 16384 ∧ e.flash.length ≤ 4096 ∧ ∀ f, (Tbl.at e.bufs f {}).recs.length ≤ 1024

/-- The thermal steps stay within the five floors of R357. -/
def StepsBounded (x : Therm) : Prop := ∀ site, Tbl.at x.steps site 0 ≤ 5

/-- Fuses only ever gain (R387): no bit of REVOKE or PROG is cleared, no security version counter falls, and DBG_LOCK and the dies' fuses stay. -/
def FusesKept (a b : NonVol) : Prop :=
  (∀ k, a.revoke.testBit k = true → b.revoke.testBit k = true) ∧
  (∀ k, a.prog.testBit k = true → b.prog.testBit k = true) ∧
  (∀ t, t < 4 → a.svn.getD t 0 ≤ b.svn.getD t 0) ∧ b.dbgLock = a.dbgLock ∧ b.dies = a.dies

/-! ## Frames -/

/-- The fields of the state. -/
inductive Fd where
  | pending | freeCtr | regs | loaded | mem | marks | chans | swaps | lost | repairs | cores | mils | fullers | mesh | fns | parts | hostOut | held | events | hb | nextSub | brim | image | levels | doms | cpwr | pwr | therm | supply | resets | partResets | tilePass | reblocks | boot | pcie | sec | nv | stalled
  deriving DecidableEq, Repr

/-- The field has the same value in two states. -/
def Fd.same : Fd → State → State → Prop
  | .pending, s, t => t.pending = s.pending
  | .freeCtr, s, t => t.freeCtr = s.freeCtr
  | .regs, s, t => t.regs = s.regs
  | .loaded, s, t => t.loaded = s.loaded
  | .mem, s, t => t.mem = s.mem
  | .marks, s, t => t.marks = s.marks
  | .chans, s, t => t.chans = s.chans
  | .swaps, s, t => t.swaps = s.swaps
  | .lost, s, t => t.lost = s.lost
  | .repairs, s, t => t.repairs = s.repairs
  | .cores, s, t => t.cores = s.cores
  | .mils, s, t => t.mils = s.mils
  | .fullers, s, t => t.fullers = s.fullers
  | .mesh, s, t => t.mesh = s.mesh
  | .fns, s, t => t.fns = s.fns
  | .parts, s, t => t.parts = s.parts
  | .hostOut, s, t => t.hostOut = s.hostOut
  | .held, s, t => t.held = s.held
  | .events, s, t => t.events = s.events
  | .hb, s, t => t.hb = s.hb
  | .nextSub, s, t => t.nextSub = s.nextSub
  | .brim, s, t => t.brim = s.brim
  | .image, s, t => t.image = s.image
  | .levels, s, t => t.levels = s.levels
  | .doms, s, t => t.doms = s.doms
  | .cpwr, s, t => t.cpwr = s.cpwr
  | .pwr, s, t => t.pwr = s.pwr
  | .therm, s, t => t.therm = s.therm
  | .supply, s, t => t.supply = s.supply
  | .resets, s, t => t.resets = s.resets
  | .partResets, s, t => t.partResets = s.partResets
  | .tilePass, s, t => t.tilePass = s.tilePass
  | .reblocks, s, t => t.reblocks = s.reblocks
  | .boot, s, t => t.boot = s.boot
  | .pcie, s, t => t.pcie = s.pcie
  | .sec, s, t => t.sec = s.sec
  | .nv, s, t => t.nv = s.nv
  | .stalled, s, t => t.stalled = s.stalled

/-- Every field of the state but those listed is unchanged. -/
def SameBut (fs : List Fd) (s t : State) : Prop := ∀ f, f ∉ fs → f.same s t

/-- Every register but those listed reads as before; indices of registers are below 2^16. -/
def RegsBut (ks : List (Reg × Nat × Nat)) (s t : State) : Prop :=
  ∀ r u i, i < 2 ^ 16 → (r, u, i) ∉ ks → t.reg r u i = s.reg r u i

/-- Every byte of memory but the `n` bytes from key `k` on reads as before. -/
def MemBut (k n : Nat) (s t : State) : Prop := ∀ j, ¬(k ≤ j ∧ j < k + n) → memByte t.mem j = memByte s.mem j

/-- The memory key of the byte at a slice offset (R15, R16). -/
def State.sliceKey (s : State) (c o : Nat) : Nat :=
  dramByte c (s.remap c (sliceLch o)) (chanByte (sliceBank o) (sliceRow o) (sliceCol o))

/-- The lanes of `n` bytes from an SRAM offset on carry no error and no mark. -/
def State.lanesClean (s : State) (c off n : Nat) : Prop := ∀ j, j < n → s.laneMark c ((off + j) / 8) = none

/-- The channels of `n` bytes from a slice offset on are alive and not being copied, and their beats carry no error and no
marker. -/
def State.beatsClean (s : State) (c o n : Nat) : Prop :=
  ∀ j, j < n → s.lchDead c (sliceLch (o + j)) = false ∧ s.mirror c (sliceLch (o + j)) = none ∧
    Tbl.find s.marks (s.sliceKey c (32 * ((o + j) / 32))) = none

/-! ## Queues -/

/-- The command at the head of a queue is `f`, the operation named, and may issue without a wait (R96, R97, R103). -/
def State.atHead (s : State) (c q cls op : Nat) (f : Fetched) : Prop :=
  s.headOf c q cls op = some f ∧ cmdWaitCnt f.word = 0

/-- The command at the head of a queue is `f`, the operation named, and its wait is satisfied; `u` is the state as it issues, the
wait's subtraction made and HEAD advanced (R96, R97, R101, R103). -/
def State.issues (s : State) (c q cls op : Nat) (f : Fetched) (u : State) : Prop :=
  ∃ v, s.headOf c q cls op = some f ∧ s.waitTest c f.word = .go v ∧ u = v.advanceHead c q

/-- From `s` to `t` the queue has issued its head command (R103): HEAD has advanced by one in the ring. -/
def State.issued (s : State) (c q : Nat) (t : State) : Prop :=
  t.qHead c q = (s.qHead c q + 1) % s.ringSize c q ∧ (t.queue c q).fetched = (s.queue c q).fetched.drop 1

/-- A semaphore's word lies in a lane that carries no mark. -/
def State.semClean (s : State) (c i : Nat) : Prop := s.laneMark c (s.semOff c i % 2 ^ 23 / 8) = none

/-- An event was raised: its record, with its code and source, has joined the module log and the records on their way. -/
def Raised (e : Ev) (site unit : Nat) (s t : State) : Prop :=
  ∃ r : EvtRec, r.code = e.code ∧ r.site = site ∧ r.unit = unit ∧
    t.events.undelivered = s.events.undelivered ++ [r] ∧ t.events.log = (r :: s.events.log).take 16384

/-- The newest record of the module log is of this event and source. -/
def LastRaised (e : Ev) (site unit : Nat) (t : State) : Prop :=
  ∃ r : EvtRec, t.events.log.head? = some r ∧ r.code = e.code ∧ r.site = site ∧ r.unit = unit

/-- An event was raised among others: a record of it has joined those on their way. -/
def AlsoRaised (e : Ev) (site unit : Nat) (s t : State) : Prop :=
  ∃ l, t.events.undelivered = s.events.undelivered ++ l ∧ ∃ r : EvtRec, r ∈ l ∧ r.code = e.code ∧ r.site = site ∧ r.unit = unit

/-! ## Bring-up -/

/-- A bring-up stage has passed (R290, R302, R311): its report ends the list of this bring-up, STAGE_END is the newest event,
and the next stage has begun unless STOP_AFTER names this one (R309). -/
def StagePassed (n : Nat) (s t : State) : Prop :=
  t.fld BOOT_STAGE.LAST_STATUS 0 0 = 0 ∧ LastRaised .STAGE_END (72 + s.hb.active) uHatband t ∧
  (∃ r l, t.boot.reports.head? = some (l ++ [r]) ∧ r.stage = n ∧ r.status = 0) ∧
  (if n < 6 ∧ s.fld BOOT_CTL.STOP_AFTER 0 0 = n then t.hb.stage = n ∧ t.boot.stopped = true
   else t.hb.stage = n + 1 ∧ t.boot.stopped = false)

/-- A bring-up stage has failed with a status (R290): the stage stays, its report is written, STAGE_FAILED is the newest event,
and the tiles have lost what they held. -/
def StageFailed (n st : Nat) (s t : State) : Prop :=
  t.boot.failed = true ∧ t.hb.stage = n ∧ t.fld BOOT_STAGE.FAILED_STAGE 0 0 = n ∧ t.fld BOOT_STAGE.LAST_STATUS 0 0 = st ∧
  LastRaised .STAGE_FAILED (72 + s.hb.active) uHatband t ∧ t.cores = [] ∧ t.mils = [] ∧ t.mem = [] ∧
  ∃ r l, t.boot.reports.head? = some (l ++ [r]) ∧ r.stage = n ∧ r.status = st

/-! ## Host commands -/

/-- A host command of opcode `opc` is the next of its SQ, passes every check of R223 and R226, and may complete: no
function-level reset and no DELETE_SQ waits in its function, and its number is its own. -/
def State.hostReady (s : State) (f sq opc : Nat) (x : Sub) : Prop :=
  s.subReady f sq opc = some x ∧ s.hostCheck f x = .ok ∧ (∀ y, y ∈ (s.fn f).subs → y.id = x.id → y = x) ∧
  (s.fn f).flr = none ∧ ∀ y, y ∈ (s.fn f).subs → y.busy = true → y.opc ≠ 4

/-- A host command has completed (R212): it is gone, and where its completion queue had a free entry, the entry with its
status, result and phase is among what has been written to the host since. -/
def HostDone (f : Nat) (x : Sub) (st : Status) (result : Nat) (s t : State) : Prop :=
  (∀ y, y ∈ (t.fn f).subs → y.id ≠ x.id) ∧
  ∀ q c, Tbl.find (s.fn f).sqs x.sq = some q → Tbl.find (s.fn f).cqs q.cq = some c → c.tail - c.head < c.size →
    ∃ l, t.hostOut = s.hostOut ++ l ∧ HostOut.mem f (c.base + 16 * (c.tail % c.size))
      (leBytes 16 (cqEntry 0 st x.cid x.sq x.sqhd result + passBit c.size c.tail * 2 ^ 127)) ∈ l

/-- Something was sent to the host. -/
def SentToHost (o : HostOut) (s t : State) : Prop := ∃ l, t.hostOut = s.hostOut ++ l ∧ o ∈ l

/-- A host command stands as started, to complete later. -/
def State.subStarted (t : State) (f : Nat) (x : Sub) : Prop := ∃ y, y ∈ (t.fn f).subs ∧ y.id = x.id ∧ y.busy = true

/-! ## Requests into SRAM, and Brimlink -/

/-- A request of an agent reaches clean SRAM of core `c` at an offset: it passes the checks of R26. -/
def State.sramAt (s : State) (k : ReqKind) (a : Agent) (da n c o : Nat) : Prop :=
  s.decodeDa da = .sram c o ∧ s.checkReq k a da n = .pass ∧ s.lanesClean c o n

/-- A completion record stands at STATUS DA and the word at SEM DA is one more (R252, R262), where both lie in clean SRAM,
apart, and the word is not at its largest. -/
def RecordWritten (a : Agent) (statDa semDa : Nat) (r : List Byte) (s t : State) : Prop :=
  ∀ c o c2 o2, s.sramAt .write a statDa 16 c o → s.sramAt .atomic a semDa 4 c2 o2 →
    (c ≠ c2 ∨ o + 16 ≤ o2 ∨ o2 + 4 ≤ o) → leNat (memBytes s.mem (sramByte c2 o2) 4) + 1 < 2 ^ 32 →
    memBytes t.mem (sramByte c o) 16 = r ∧
    leNat (memBytes t.mem (sramByte c2 o2) 4) = leNat (memBytes s.mem (sramByte c2 o2) 4) + 1

/-- The completion record of a bulk transfer (R252). -/
def xferRecord (status missing xid : Nat) : List Byte :=
  leBytes 1 status ++ [0, 0, 0] ++ leBytes 4 missing ++ leBytes 2 xid ++ List.replicate 6 0

/-- The one transfer of this module that `p` holds of. -/
def State.oneXfer (s : State) (p : Xfer → Prop) (n : Nat) (x : Xfer) : Prop :=
  (n, x) ∈ s.brim.xfers ∧ p x ∧ ∀ y, y ∈ s.brim.xfers → p y.2 → y = (n, x)

/-- A packet for this module authenticates with a plaintext, and is admitted (R244, R247). -/
def State.accepts (s : State) (k : BlPkt) (b : List Byte) : Prop :=
  k.dst = s.moduleId ∧ (s.authenticate k).2 = .ok b ∧
  (if k.typ = 0 ∨ k.typ = 8 then ∃ p, p < 8 ∧ s.admits p k.src = true else s.admits k.dpt k.src = true)

/-- A message to module `m` with a body of `n` bytes on a virtual channel can leave at once on port `q`: it is for another
module, the session is open and does not rekey, the port R245 gives is UP, with credit and room, and nothing waits before it
(R245, R248, R411). -/
def State.canSend (s : State) (m n vc q : Nat) : Prop :=
  m ≠ s.moduleId ∧ (∃ z, s.session m = some z ∧ z.txPn + 1 < 2 ^ 47) ∧ s.blRoute m = some q ∧ s.portState q = 3 ∧ vc < 4 ∧
  flitsFor n ≤ (s.blPort q).credits.getD vc 0 ∧ (s.blPort q).replay.length + flitsFor n ≤ 2048 ∧
  (s.blPort q).wait = [] ∧ (s.blPort q).cur = []

/-- A message has been sealed as the next packet of its session and has left on port `q` (R241, R243). -/
def PacketSent (m : BlMsg) (q : Nat) (s t : State) : Prop :=
  ∃ z k, s.session m.dst = some z ∧ t.brim.sent = s.brim.sent ++ [(q, k)] ∧ k.dst = m.dst ∧ k.src = s.moduleId ∧
    k.dpt = m.dpt ∧ k.spt = m.spt ∧ k.typ = m.typ ∧ k.nflit = flitsFor m.body.length ∧ k.ttl = 15 ∧ k.epoch = z.epoch ∧
    k.mbz = 0 ∧ k.pn = z.txPn ∧ k.fields = m.fields ∧
    (k.body, k.tag) = Config.blSeal (sessionKey z.secret (dirOf s.moduleId m.dst))
      (sessionSalt z.secret (dirOf s.moduleId m.dst)) k.pn (pktHeader k 0) (padBody m.body) ∧
    (t.session m.dst).map (·.txPn) = some (z.txPn + 1)

/-! ## Sessions and distributions (19) -/

/-- An answer was sent on a transport, with a code, an outcome and a body that begins so. -/
def Answered (dest : Option Transport) (code : Nat) (ok : Bool) (status : Nat) (body : List Byte) (s t : State) : Prop :=
  ∃ tail, t.sec.answers = s.sec.answers ++ [{ dest := dest, code := code, ok := ok, status := status, body := body ++ tail }]

/-- The targets of a distribution are distinct units that exist. -/
def Dist.sound (d : Dist) : Prop :=
  d.targets.Nodup ∧ ∀ u, u ∈ d.targets → u.site < 76 ∧ ∀ c n, u.ful = some (c, n) → n < 34 ∧
    ∀ v, v ∈ d.targets → v.ful = some (c, n) → v = u

/-! ## Compares -/

/-- The cells after a compare of array `j`: pending terms added in the free orders drawn now, disturbances applied. -/
def State.comparedCells (s : State) (x : Chain) (j : Nat) (upsets : List Upset) : Tbl Acc := (x.compared s.freeAt j upsets).cells

/-- The rows and columns that mismatch in a compare of array `j` (R62, R63). -/
def State.badLines (s : State) (x : Chain) (j : Nat) (upsets : List Upset) : List Line :=
  (x.compared s.freeAt j upsets).lines.filter (fun l => l.bad x.int x.tol)

end Sys2Proof.Machine
end

