-- ==== Sys2Proof/Certificates/Slice0/Obligations.lean ====
section
/-! DEFINITION. The statements for the provers, chapter by chapter of the spec. -/

open Sys2Proof Sys2Proof.Machine

/-! ## The block -/

/-- A step takes the command at the front of the queue and runs it with the queue's rest (the row's cut). On an empty queue
the block idles (the row's cut; log 7). -/
def Obligations.StepTakesFront : Prop :=
  (∀ (s : State) (c : Instr), step { s with pending := c :: s.pending } = exec c s) ∧
  (∀ s : State, s.pending = [] → step s = .next s)

/-! ## Address space, interleaving and scratchpads (02) -/

/-- R15: the mapping of slice offsets to channel, bank, row and column is one-to-one, a 256-byte stripe lies in one row of one
bank of one channel, and sixteen consecutive stripes, 4 KiB aligned, fall on sixteen channels. -/
def Obligations.SliceMapping : Prop :=
  (∀ o, o < 2 ^ 30 →
    sliceCol o = bitsOf o 14 12 * 256 + bitsOf o 7 0 ∧ sliceLch o = bitsOf o 11 8 ^^^ bitsOf o 26 23 ∧
    sliceBank o = bitsOf o 18 15 ^^^ bitsOf o 22 19 ∧ sliceRow o = bitsOf o 29 19 ∧
    sliceLch o < 16 ∧ sliceBank o < 16 ∧ sliceRow o < 2048 ∧ sliceCol o < 2048) ∧
  (∀ o o', o < 2 ^ 30 → o' < 2 ^ 30 → sliceLch o = sliceLch o' → sliceBank o = sliceBank o' → sliceRow o = sliceRow o' →
    sliceCol o = sliceCol o' → o = o') ∧
  (∀ o o', o < 2 ^ 30 → o' < 2 ^ 30 → o / 256 = o' / 256 →
    sliceLch o = sliceLch o' ∧ sliceBank o = sliceBank o' ∧ sliceRow o = sliceRow o') ∧
  (∀ p i j, p < 2 ^ 18 → i < 16 → j < 16 → i ≠ j → sliceLch (4096 * p + 256 * i) ≠ sliceLch (4096 * p + 256 * j)) ∧
  (∀ (s : State) c lch, s.remap c lch = getBits (s.reg .CH_REMAP c (lch / 8)) (8 * (lch % 8) + 4) (8 * (lch % 8)))

/-- R26: the outcome of the first check that fails, in the table's order, and nothing of the request done. A site that no route
reaches answers nothing itself: a router on the way answers FENCED (R275). -/
def Obligations.RequestChecks : Prop :=
  (∀ (s : State) (k : ReqKind) a da len,
    (s.decodeDa da = .unmapped → (s.checkReq k a da len).status = .badFormat) ∧
    (shapeOk s.hb.active k (s.decodeDa da) da len = false → (s.checkReq k a da len).status = .badFormat) ∧
    (shapeOk s.hb.active k (s.decodeDa da) da len = true →
      (∀ r e, s.denied a (s.decodeDa da) = some (r, e) →
        (s.checkReq k a da len).status = if e = false ∧ s.unreached a (s.decodeDa da) = true then .fenced else .auth) ∧
      (s.denied a (s.decodeDa da) = none → s.unreached a (s.decodeDa da) = true → (s.checkReq k a da len).status = .fenced) ∧
      (s.denied a (s.decodeDa da) = none → s.unreached a (s.decodeDa da) = false →
        (∀ c o, s.decodeDa da = .dram c o →
          (s.checkReq k a da len).status = if s.coreFenced c then (if k = .read then .poison else .fenced) else .ok) ∧
        (∀ c o, s.decodeDa da = .sram c o →
          (s.checkReq k a da len).status = if s.coreFenced c then (if k = .read then .poison else .fenced)
            else if s.pwrState c ≠ 0 then .stateConflict else .ok) ∧
        (∀ c o, s.decodeDa da = .coreCsr c o →
          (s.checkReq k a da len).status = if s.coreFenced c then .fenced else if s.pwrState c ≠ 0 then .stateConflict else .ok) ∧
        (∀ st o, s.decodeDa da = .milCsr st o → (s.checkReq k a da len).status = if s.milFenced st then .fenced else .ok) ∧
        (∀ st o, (s.decodeDa da = .tileCsr st o ∨ s.decodeDa da = .brimCsr st o) → s.checkReq k a da len = .pass)))) ∧
  (∀ (s : State) a tag da,
    (∀ len, s.checkReq .read a da len ≠ .pass → Completes (.read a tag da len) s (fun t =>
      t.mesh.responses = s.mesh.responses ++ [⟨a, tag, (s.checkReq .read a da len).status, len, []⟩] ∧
      (∀ r u i, i < 2 ^ 16 → r ∉ [Reg.FW_STAT, .FW_LAST, .SRAM_STAT, .EVT_STAT] → t.reg r u i = s.reg r u i) ∧
      SameBut [.freeCtr, .regs, .mesh, .events] s t)) ∧
    (∀ data, s.checkReq .write a da data.length ≠ .pass → Completes (.write a tag da data) s (fun t =>
      t.mesh.responses = s.mesh.responses ++ [⟨a, tag, (s.checkReq .write a da data.length).status, data.length, []⟩] ∧
      (∀ r u i, i < 2 ^ 16 → r ∉ [Reg.FW_STAT, .FW_LAST, .SRAM_STAT, .EVT_STAT] → t.reg r u i = s.reg r u i) ∧
      SameBut [.freeCtr, .regs, .mesh, .events] s t)) ∧
    (∀ op size x, s.checkReq .atomic a da size ≠ .pass → Completes (.atomic a tag da op size x) s (fun t =>
      t.mesh.responses = s.mesh.responses ++ [⟨a, tag, (s.checkReq .atomic a da size).status, size, []⟩] ∧
      (∀ r u i, i < 2 ^ 16 → r ∉ [Reg.FW_STAT, .FW_LAST, .SRAM_STAT, .EVT_STAT] → t.reg r u i = s.reg r u i) ∧
      SameBut [.freeCtr, .regs, .mesh, .events] s t)))

/-- READ, WRITE and ATOMIC of a core's SRAM that pass the checks of R26 while no clear runs, on lanes that carry no mark:
the read answers the bytes, the write stores them, the atomic answers the old value and stores the new one; no other byte
changes (R19, R21, R26). READ and WRITE of a core's DRAM slice that pass the checks of R26 and wait for no channel, on
channels that are alive and beats that carry no error: the bytes at the places R15 and the remap table give are read or
written, and no other byte of memory changes (R15, R16, R154, R155). Whatever it reaches, a request that passes its checks is
performed and answered with its outcome, or waits while its channel or SRAM is not ready: in its channel's queue, or before it
where that is full (R12, R22, R148, R160, R165). -/
def Obligations.CleanRequests : Prop :=
  (∀ (s : State) a tag da c off, s.decodeDa da = .sram c off → s.fld SRAM_STAT.CLEARING c 0 = 0 →
      (∀ len, s.checkReq .read a da len = .pass → s.lanesClean c off len → Completes (.read a tag da len) s (fun t =>
        t.mesh.responses = s.mesh.responses ++ [⟨a, tag, .ok, len, memBytes s.mem (sramByte c off) len⟩] ∧
        SameBut [.mesh] s t)) ∧
      (∀ data, s.checkReq .write a da data.length = .pass → s.lanesClean c off data.length →
        Completes (.write a tag da data) s (fun t =>
          t.mesh.responses = s.mesh.responses ++ [⟨a, tag, .ok, data.length, []⟩] ∧
          memBytes t.mem (sramByte c off) data.length = data ∧ MemBut (sramByte c off) data.length s t ∧
          SameBut [.mesh, .mem] s t)) ∧
      (∀ op size x, s.checkReq .atomic a da size = .pass → s.lanesClean c off size →
        Completes (.atomic a tag da op size x) s (fun t =>
          t.mesh.responses = s.mesh.responses ++ [⟨a, tag, .ok, size, memBytes s.mem (sramByte c off) size⟩] ∧
          memBytes t.mem (sramByte c off) size =
            leBytes size (amoValue op size (leNat (memBytes s.mem (sramByte c off) size)) x.toNat).1 ∧
          MemBut (sramByte c off) size s t ∧ SameBut [.mesh, .mem, .freeCtr, .regs, .events] s t))) ∧
  (∀ (s : State) a tag da c o, s.decodeDa da = .dram c o →
      (∀ len, s.checkReq .read a da len = .pass → s.sliceHeld c o len = false → s.beatsClean c o len →
        Completes (.read a tag da len) s (fun t =>
          t.mesh.responses = s.mesh.responses ++
            [⟨a, tag, .ok, len, (List.range len).map (fun j => memByte s.mem (s.sliceKey c (o + j)))⟩] ∧
          SameBut [.mesh] s t)) ∧
      (∀ data, s.checkReq .write a da data.length = .pass → s.sliceHeld c o data.length = false →
        s.beatsClean c o data.length →
        Completes (.write a tag da data) s (fun t =>
          t.mesh.responses = s.mesh.responses ++ [⟨a, tag, .ok, data.length, []⟩] ∧
          (∀ j, j < data.length → memByte t.mem (s.sliceKey c (o + j)) = data.getD j 0) ∧
          (∀ k, (∀ j, j < data.length → k ≠ s.sliceKey c (o + j)) → memByte t.mem k = memByte s.mem k) ∧
          SameBut [.mesh, .mem] s t))) ∧
  (∀ (s : State) a tag da,
    (∀ len, s.checkReq .read a da len = .pass →
      Completes (.read a tag da len) s (fun t =>
        if s.reqHeld (s.decodeDa da) len = true then t = s.hold (.read a tag da len)
        else ∃ d, t.mesh.responses = (s.targetRead a (s.decodeDa da) len).st.mesh.responses ++
            [⟨a, tag, (s.targetRead a (s.decodeDa da) len).status, len, d⟩] ∧
          d = (if (s.targetRead a (s.decodeDa da) len).status = .ok then (s.targetRead a (s.decodeDa da) len).data else []) ∧
          SameBut [.mesh] (s.targetRead a (s.decodeDa da) len).st t)) ∧
    (∀ data, s.checkReq .write a da data.length = .pass →
      Completes (.write a tag da data) s (fun t =>
        if s.reqHeld (s.decodeDa da) data.length = true then t = s.hold (.write a tag da data)
        else t.mesh.responses = (s.targetWriteAt a (s.decodeDa da) data).st.mesh.responses ++
            [⟨a, tag, (s.targetWriteAt a (s.decodeDa da) data).status, data.length, []⟩] ∧
          SameBut [.mesh] (s.targetWriteAt a (s.decodeDa da) data).st t)) ∧
    (∀ op size x, s.checkReq .atomic a da size = .pass →
      Completes (.atomic a tag da op size x) s (fun t =>
        if s.reqHeld (s.decodeDa da) size = true then t = s.hold (.atomic a tag da op size x)
        else ∃ d, t.mesh.responses = (s.atomicAt a (s.decodeDa da) op size x.toNat).st.mesh.responses ++
            [⟨a, tag, (s.atomicAt a (s.decodeDa da) op size x.toNat).status, size, d⟩] ∧
          SameBut [.mesh] (s.atomicAt a (s.decodeDa da) op size x.toNat).st t))) ∧
  (∀ (s : State) (h : Held), (s.queueFull h = true → s.hold h = { s with stalled := s.stalled ++ [h] }) ∧
    (s.queueFull h = false → s.hold h = { s with held := s.held ++ [h] }))

/-- R19: a read of a lane with a single-bit error is corrected and counted, and the write-back mends the lane; a read of a
lane with an uncorrectable error answers POISON, and the lane keeps a poison mark, which a write of a part leaves and a
write of the whole lane removes; a write-back of a lane that has been rewritten meanwhile finds nothing to mend. R22: when the
clear of an SRAM ends, its CLEARING bit falls and every request that waited is served, in order; with none waiting nothing else
changes. -/
def Obligations.SramReadErrors : Prop :=
  ((∀ (s : State) c lane who, s.laneMark c lane = some .laneCorrectable →
      (s.sramRead c (8 * lane) 8 who).status = .ok ∧
      (s.sramRead c (8 * lane) 8 who).data = memBytes s.mem (sramByte c (8 * lane)) 8 ∧
      ((s.sramRead c (8 * lane) 8 who).st.core c).sramWb = (s.core c).sramWb ++ [lane]) ∧
    (∀ (s : State) c lane who, (s.laneMark c lane = some .laneBad ∨ s.laneMark c lane = some .poison) →
      (s.sramRead c (8 * lane) 8 who).status = .poison ∧
      (s.sramRead c (8 * lane) 8 who).st.laneMark c lane = some .poison) ∧
    (∀ (s : State) c lane o bytes who, (s.laneMark c lane = some .laneBad ∨ s.laneMark c lane = some .poison) →
      bytes ≠ [] → bytes.length < 8 → o + bytes.length ≤ 8 →
      (s.sramWrite c (8 * lane + o) bytes who).status = .poison ∧
      (s.sramWrite c (8 * lane + o) bytes who).st.mem = s.mem ∧
      (s.sramWrite c (8 * lane + o) bytes who).st.laneMark c lane = some .poison) ∧
    (∀ (s : State) c lane bytes who, Tbl.sorted s.marks = true → bytes.length = 8 →
      (s.sramWrite c (8 * lane) bytes who).status = .ok ∧
      (s.sramWrite c (8 * lane) bytes who).st.laneMark c lane = none ∧
      memBytes (s.sramWrite c (8 * lane) bytes who).st.mem (sramByte c (8 * lane)) 8 = bytes) ∧
    (∀ (s : State) c lane rest, (s.core c).sramWb = lane :: rest →
      Completes (.sramCeWriteback c) s (fun t => (t.core c).sramWb = rest ∧ t.mem = s.mem ∧
        (s.laneMark c lane = some .laneCorrectable → t.laneMark c lane = none) ∧
        (s.laneMark c lane ≠ some .laneCorrectable → t.marks = s.marks) ∧
        (∀ k, k ≠ sramByte c (8 * lane) → Tbl.find t.marks k = Tbl.find s.marks k) ∧ SameBut [.marks, .cores] s t))) ∧
  (∀ (s : State) c, s.fld SRAM_STAT.CLEARING c 0 = 1 →
      Completes (.sramClearDone c) s (fun t =>
        t = State.serveEach { s.setFld SRAM_STAT.CLEARING c 0 0 with held := [], stalled := [] } (s.held ++ s.stalled) ∧
        (s.held = [] → s.stalled = [] → t.fld SRAM_STAT.CLEARING c 0 = 0 ∧ RegsBut [(.SRAM_STAT, c, 0)] s t ∧
          SameBut [.regs] s t)))

/-- R5, R6: a write of a whole register at its device address sets its RW fields and keeps its RO and reserved ones, and an
8-byte read of a register with RC fields returns the counts and clears exactly those fields. The registers are those of the
core window, the written ones those with no clamp and no act of their own. R13, R206, R209: an access to any device address is
checked and answered, unless it waits for its channel or SRAM; one to a BAR or to configuration space has that space's effect. -/
def Obligations.RegisterAccess : Prop :=
  (∀ (s : State) a da c off r i, s.decodeDa da = .coreCsr c off → i < 2 ^ 16 → regAt .core c off = some (r, c, i, 0) →
    (∀ v, s.checkReq .write a da 8 = .pass →
      r ∉ [Reg.QUANT_CTRL, .ARRAY_CFG, .GUARD_CFG, .GUARD_CTRL, .QCFG, .QPTR, .QCTL, .FUL_CFG, .FUL_CTL] →
      Completes (.registerWrite a (.da da) 8 v) s (fun t =>
        t.reg r c i = (s.reg r c i &&& ~~~accessMask (r.fields i) [.rw]) ||| (v &&& accessMask (r.fields i) [.rw]) ∧
        RegsBut [(r, c, i)] s t ∧ SameBut [.regs, .mesh] s t)) ∧
    (s.checkReq .read a da 8 = .pass → r ≠ .MSG_FIFO →
      Completes (.registerReadClear a (.da da) 8) s (fun t =>
        t.mesh.answered = ⟨a, 0, .ok, 8, leBytes 8 (s.regShow r c i).toNat⟩ :: s.mesh.answered ∧
        t.reg r c i = s.reg r c i &&& ~~~accessMask (r.fields i) [.rc] ∧
        (r ≠ .GUARD_STAT → t.cores = s.cores) ∧ t.mem = s.mem ∧
        RegsBut [(r, c, i)] s t ∧ SameBut [.regs, .mesh, .cores] s t))) ∧
  (∀ (s : State) a da size v,
    (s.daHeld .write a da size = false → Completes (.registerWrite a (.da da) size v) s (fun t =>
      t = ((s.busWrite a da (leBytes size v.toNat)).st.answered
        ⟨a, 0, (s.busWrite a da (leBytes size v.toNat)).status, size, []⟩))) ∧
    (s.daHeld .read a da size = false → Completes (.registerReadClear a (.da da) size) s (fun t =>
      t = ((s.busRead a da size).st.answered ⟨a, 0, (s.busRead a da size).status, size,
        if (s.busRead a da size).status = .ok then (s.busRead a da size).data else []⟩)))) ∧
  (∀ (s : State) f off size v, s.barsOn f = true →
    Completes (.registerWrite (.pcie f) (.bar0 f off) size v) s (fun t => t = s.bar0Write f off size v.toNat) ∧
    Completes (.registerReadClear (.pcie f) (.bar0 f off) size) s (fun t =>
      t = (s.bar0Read f off size).1.toHost (.cpl f (leBytes size (s.bar0Read f off size).2)))) ∧
  (∀ (s : State) f off i size v,
    Completes (.registerWrite (.pcie f) (.bar2 f off) size v) s (fun t => t = s.bar2Write f off size) ∧
    Completes (.registerReadClear (.pcie f) (.bar2 f off) size) s (fun t => t = s.bar2Read f off size) ∧
    Completes (.registerWrite (.pcie f) (.cfg f i) size v) s (fun t => t = s.cfgWrite f i v.toNat) ∧
    Completes (.registerReadClear (.pcie f) (.cfg f i) size) s (fun t => t = s.cfgRead f i size))

/-! ## Matrix arrays, matrix-vector path, vector unit and scale guard (03, 04, 05, 06) -/

/-- R56: DRAIN and DISCARD against the four bank states, in independent mode: STATE_CONFLICT, whose completion puts the queue
into ERROR with status 0x0C, where the table says so; DRAIN of an ACCUM bank whose rows fit takes it to DRAINING, and of an
ABORTED one leaves it EMPTY and completes ABORTED; DISCARD of EMPTY has no effect, of ACCUM and ABORTED leaves it EMPTY. -/
def Obligations.BankTable : Prop :=
  ∀ (s : State) c f j b, cmdGang f.word = 0 → cmdArray f.word = j → cmdBank f.word = b →
    s.fld ARRAY_CFG.GANG c 0 = 0 → cmdSigCnt f.word = 0 →
    (s.atHead c 0 5 1 f → cmdBits f.word 90 89 ≠ 3 → cmdBits f.word 127 105 % 64 = 0 →
      (s.bank c j b = bankEmpty ∨ s.bank c j b = bankDraining → s.chain c j b = none ∨ s.bank c j b = bankDraining →
        Completes (.drain c) s (fun t => s.issued c 0 t ∧ t.qState c 0 = qError ∧ t.fld QSTAT.STATUS c 0 = 0x0C ∧
          (∀ i k, t.bank c i k = s.bank c i k) ∧ t.mem = s.mem ∧ (t.core c).chains = (s.core c).chains)) ∧
      (s.bank c j b = bankAborted →
        Completes (.drain c) s (fun t => s.issued c 0 t ∧ t.qState c 0 = qError ∧ t.fld QSTAT.STATUS c 0 = 0x02 ∧
          t.bank c j b = bankEmpty ∧ t.mem = s.mem)) ∧
      (∀ x, s.bank c j b = bankAccum → s.chain c j b = some x → x.gang = 0 → (drainOf f).fits x = true →
        Completes (.drain c) s (fun t => s.issued c 0 t ∧ t.bank c j b = bankDraining ∧
          t.chain c j b = some { x with drain := some (drainOf f), passed := [] } ∧ t.mem = s.mem))) ∧
    (s.atHead c 0 5 2 f →
      (s.bank c j b = bankDraining →
        Completes (.discard c) s (fun t => s.issued c 0 t ∧ t.qState c 0 = qError ∧ t.fld QSTAT.STATUS c 0 = 0x0C ∧
          (∀ i k, t.bank c i k = s.bank c i k) ∧ t.mem = s.mem ∧ (t.core c).chains = (s.core c).chains)) ∧
      (s.bank c j b ≠ bankDraining → s.chain c j b = none →
        Completes (.discard c) s (fun t => s.issued c 0 t ∧ t.qState c 0 ≠ qError ∧ t.bank c j b = bankEmpty ∧
          t.mem = s.mem)) ∧
      (∀ x, s.bank c j b ≠ bankDraining → s.chain c j b = some x →
        Completes (.discard c) s (fun t => s.issued c 0 t ∧ t.bank c j b = bankEmpty ∧ t.chain c j b = none ∧
          t.mem = s.mem)))

/-- R45, R56, R66, R73: MMA, DRAIN, DISCARD, OPX and SEG_UP at the head of queue 0 issue once their wait and their slot let them, whatever their
descriptors. Where the descriptor passes its checks, leaving the state `u`, the bank takes the command and the operands are
read, an ACC = 0 command opens a chain with the products of the operands in its accumulators, in every gang mode, and an
ACC = 1 command adds them to the chain's; the bank is ACCUM and the command is in flight until the chain's commit. R55, R57,
R62-R65, R85: the end of a chain. A compare in which no row or column mismatches marks its array as passed, or, in place, keeps
the chain; a first mismatch records the physical array of a line that failed, replays the chain, and nothing reaches SRAM; a
second one takes the array out of use; a breaching chain that has streamed is replayed with its final scales; and once every
accumulating array has passed, the commit writes the drained rows, leaves the bank EMPTY and ends the chain. -/
def Obligations.ChainWork : Prop :=
  (∀ (s u : State) c f,
      (s.issues c 0 5 0 f u → s.slotReady c f.word 256 = true →
        Completes (.mma c) s (fun t => t = (u.mmaAct c f).queueSettle c 0)) ∧
      (s.issues c 0 5 1 f u → Completes (.drain c) s (fun t => t = (u.drainAct c f).queueSettle c 0)) ∧
      (s.issues c 0 5 2 f u → Completes (.discard c) s (fun t => t = (u.discardAct c f).queueSettle c 0)) ∧
      (s.issues c 0 5 3 f u → Completes (.opx c) s (fun t => t = (u.opxAct c f).queueSettle c 0)) ∧
      (s.issues c 0 5 6 f u → Completes (.segUp c) s (fun t => t = (u.segUpAct c f).queueSettle c 0))) ∧
  (∀ (s u v : State) c f j b, cmdBase f.word = j → cmdBank f.word = b →
      (∀ o sw r, s.issues c 0 5 0 f u → s.slotReady c f.word 256 = true → u.mmaParse c f = .go v (o, sw) → o.use = none →
        cmdAcc f.word = false → v.bankRefuses c f false (some o.rows) = none →
        r = ((v.setGang c f.word).setCompat c false (gangArrays (cmdGang f.word) j)).readMma c o [] → r.fail = none →
        Completes (.mma c) s (fun t => s.issued c 0 t ∧ t.bank c j b = bankAccum ∧
          (∃ x, t.chain c j b = some x ∧ x.cmds.length = 1 ∧ x.rows = o.rows ∧ x.gang = cmdGang f.word ∧
            x.cells = (mmaAdd o r.w r.x []).1) ∧
          (∃ y, y ∈ (t.queue c 0).inflight ∧ y.index = f.index ∧ y.chain = some (j, b)))) ∧
      (∀ o sw x r, s.issues c 0 5 0 f u → s.slotReady c f.word 256 = true → u.mmaParse c f = .go v (o, sw) → o.use = none →
        cmdAcc f.word = true → v.bankRefuses c f true (some o.rows) = none → v.chain c j b = some x →
        r = v.readMma c o [] → r.fail = none →
        Completes (.mma c) s (fun t => s.issued c 0 t ∧
          (∃ y, t.chain c j b = some y ∧ y.cmds.length = x.cmds.length + 1 ∧ y.cells = (mmaAdd o r.w r.x x.cells).1))) ∧
      (∀ o r, s.issues c 0 5 3 f u → u.opxParse c f = .go v o → cmdAcc f.word = false →
        v.bankRefuses c f false (some 64) = none →
        r = ((v.setGang c f.word).setCompat c true (gangArrays (cmdGang f.word) j)).readOpx c o → r.fail = none →
        Completes (.opx c) s (fun t => s.issued c 0 t ∧ t.bank c j b = bankAccum ∧
          (∃ x, t.chain c j b = some x ∧ x.cmds.length = 1 ∧ x.compat = true ∧ x.cells = (opxAdd o r.w r.x []).1))) ∧
      (∀ o out x u' k, s.issues c 0 5 6 f u → u.segUpParse c f = .go v (o, out) → cmdAcc f.word = true →
        v.bankRefuses c f true (some o.rows) = none → v.chain c j b = some x →
        v.segUpRun c j o ⟨x.cells, x.parts, x.lanes⟩ = .inl (.go u' k) →
        Completes (.segUp c) s (fun t => s.issued c 0 t ∧ t.bank c j b = bankAccum ∧
          (∃ y, t.chain c j b = some y ∧ y.cmds.length = x.cmds.length + 1 ∧ y.cells = k.cells)))) ∧
  (∀ (s : State) c j b base x, s.chainAt c j b = some (base, x) →
      (∀ ups, Completes (.arrayInplaceCompare c j b ups) s (fun t =>
        t = s.compare c base b j x ups (fun r y => r.setChain c base b y) ∧
        (s.badLines x j ups = [] →
          (∃ y, t.chain c base b = some y ∧ y.cells = s.comparedCells x j ups ∧ y.cmds = x.cmds ∧ y.drain = x.drain ∧
            y.passed = x.passed) ∧ t.mem = s.mem))) ∧
      (x.drain.isSome = true → x.breach = false → j ∉ x.passed → ∀ ups, Completes (.drainCompare c j b ups) s (fun t =>
        t = s.compare c base b j x ups (fun r y => r.setChain c base b { y with passed := y.passed ++ [j] }) ∧
        (s.badLines x j ups = [] →
          (∃ y, t.chain c base b = some y ∧ y.passed = x.passed ++ [j] ∧ y.cells = s.comparedCells x j ups ∧ y.cmds = x.cmds) ∧
          t.mem = s.mem ∧ t.bank c j b = s.bank c j b) ∧
        (s.badLines x j ups ≠ [] → x.mism = 0 →
          (∃ l, l ∈ s.badLines x j ups ∧ t.fld ARRAY_STAT.LAST_MISMATCH c 0 = s.physArray c l.array) ∧
          ((∃ y, t.chain c base b = some y ∧ y.mism = 1 ∧ y.cmds = x.cmds ∧ y.passed = []) ∨ t.chain c base b = none) ∧
          t.mem = s.mem))) ∧
      (x.drain.isSome = true → x.breach = true → Completes (.chainStreamEnd c j b) s (fun t => t = s.replay c base b x ∧
        ((∃ y, t.chain c base b = some y ∧ y.breach = false ∧ y.cmds = x.cmds ∧ y.passed = []) ∨ t.chain c base b = none))) ∧
      (∀ d, x.drain = some d → x.breach = false → (∀ i, i ∈ gangBanks x.gang base → i ∈ x.passed) →
        Completes (.drainCommit c j b) s (fun t => t = s.commitChain c base b x d ∧
          (x.gang = 0 → t.bank c base b = bankEmpty) ∧ t.chain c base b = none ∧
          (x.mixed = false → x.cols * outSize d.ofmt ≤ d.stride → d.fits x = true →
            (∀ i, i < x.rows → s.lanesClean c (d.dst + i * d.stride) (x.cols * outSize d.ofmt)) →
            (∀ y, y ∈ (s.queue c 0).inflight → cmdSigCnt y.word = 0) →
            ∀ i, i < x.rows → memBytes t.mem (sramByte c (d.dst + i * d.stride)) (x.cols * outSize d.ofmt) =
              (List.range x.cols).flatMap (fun n => leBytes (outSize d.ofmt)
                (outBits d.ofmt ((Tbl.at x.cells (cellKey i n) {}).result x.int x.f)))))))

/-- R68, R69, R71-R73, R86: EWOP, SEG_DOWN and MVM at the head of queue 0 issue once their wait, their slot and, for MVM, the
path let them, whatever their descriptors. Where these pass their checks, leaving the state `u`, EWOP counts in EW_UNCHECKED and
will write its elements; a SEG_DOWN whose results pass their compares holds its scratch bank until it completes (its disturbances
are free, log 110); MVM occupies the path with its first block. A block's check, once no channel it reads is held, streams its
operands from the slice; a last block of one vector that passes is written, and a first mismatch, at the block's end or in place,
restreams the block. -/
def Obligations.MatrixPaths : Prop :=
  (∀ (s u : State) c f,
    (s.issues c 0 5 4 f u → Completes (.ewop c) s (fun t => t = (u.ewopAct c f).queueSettle c 0)) ∧
    (s.issues c 0 5 5 f u → s.slotReady c f.word 320 = true →
      Completes (.segDown c) s (fun t => t = (u.segDownAct c f).queueSettle c 0)) ∧
    (s.issues c 0 6 0 f u → (s.core c).mv = none → s.slotReady c f.word 416 = true →
      Completes (.mvm c) s (fun t => t = (u.mvAct c f).queueSettle c 0)) ∧
    (∀ o ups, (s.core c).mv = some o → s.mvStalled c o = false →
      Completes (.mvBlockCheck c ups) s (fun t => t = s.mvCheck c o ups)) ∧
    (∀ o k ups, (s.core c).mv = some o → k ≤ o.k →
      Completes (.mvInplaceCompare c k ups) s (fun t => t = s.mvPartial c o (k - k % 32) ups))) ∧
  ∀ (s u : State) c f,
    (∀ o, s.atHead c 0 5 4 f → (s.advanceHead c 0).ewParse c f = .go u o →
      ∀ ra rb, ra = readOperand (sramReader c rqArray) ((u.setGang c f.word).setCompat c false (cmdArrays f.word)) o.a o.af 1 o.n →
      ra.fail = none → rb = readOperand (sramReader c rqArray) ra.st o.b o.bf 1 o.n → rb.fail = none →
      Completes (.ewop c) s (fun t => s.issued c 0 t ∧
        (∃ y, y ∈ (t.queue c 0).inflight ∧ y.index = f.index ∧ y.status = .ok ∧
          y.writes = [.sram o.out.data ((ra.rows.flatten.zip rb.rows.flatten).flatMap
            (ewElem o.add (factorOf o.af o.a.f) (factorOf o.bf o.b.f) o.out.fmt))]) ∧
        t.fld ARRAY_STAT.EW_UNCHECKED c 0 = min 65535 (rb.st.fld ARRAY_STAT.EW_UNCHECKED c 0 + 1))) ∧
    (∀ o es ix u' u'' xs sl m, s.atHead c 0 5 5 f → s.slotReady c f.word 320 = true →
      (s.advanceHead c 0).segDownParse c f = .go u o →
      ((u.setGang c f.word).setCompat c false [cmdArray f.word]).readAdapters c o.list o.idx o.slots o.rows (some o.xf) =
        .go u' (es, ix) →
      u'.segDownX c o ix = (u'', none, xs, sl) →
      m = (u''.draw 6).segDownSlots c (cmdArray f.word) o (hPitch o.h es) ix xs (upsetsOf (u''.freeAt 0))
        ((List.range es.length).zip es) → m.fail = none → m.bad = [] →
      Completes (.segDown c) s (fun t => s.issued c 0 t ∧ t.bank c (cmdArray f.word) (cmdBank f.word) = bankDraining ∧
        (∃ y, y ∈ (t.queue c 0).inflight ∧ y.index = f.index ∧ y.status = .ok ∧
          y.scratch = some (cmdArray f.word, cmdBank f.word) ∧
          y.writes = m.writes ++ zeroRows o (hPitch o.h es) (es.any (fun e => e.bFmt != 0)) ix))) ∧
    (∀ o sw, s.atHead c 0 6 0 f → (s.core c).mv = none → s.slotReady c f.word 416 = true →
      (s.advanceHead c 0).mvParse c f = .go u (o, sw) → o.use = none →
      Completes (.mvm c) s (fun t => s.issued c 0 t ∧ (t.core c).mv = some o ∧
        (∃ y, y ∈ (t.queue c 0).inflight ∧ y.index = f.index ∧ y.ready = false))) ∧
    (∀ o ups, (s.core c).mv = some o → s.mvStalled c o = false → (s.mvRead c o).fail = none → o.mism = 0 →
      (∃ v, v < o.b ∧ ((o.verdicts o.k (o.outs o.k (s.mvRead c o).w (s.mvRead c o).x (s.mvRead c o).st.freeAt ups)
        (s.mvRead c o).x (s.mvRead c o).c (s.mvRead c o).a).getD v (false, false)).1 = true) →
      Completes (.mvBlockCheck c ups) s (fun t => t.fld ARRAY_STAT.LAST_MISMATCH c 0 = 8 ∧
        (t.core c).mv = some { o with mism := 1, breach := false } ∧ t.mem = s.mem)) ∧
    (∀ o ups outs, (s.core c).mv = some o → s.mvStalled c o = false → (s.mvRead c o).fail = none → o.breach = false → o.add = false → o.b = 1 →
      o.block + 1 = o.blocks →
      outs = o.outs o.k (s.mvRead c o).w (s.mvRead c o).x (s.mvRead c o).st.freeAt ups →
      ((o.verdicts o.k outs (s.mvRead c o).x (s.mvRead c o).c (s.mvRead c o).a).getD 0 (false, false)).1 = false →
      ∀ bs, bs = o.bytes ((column outs 0).map (fun a => a.result (o.wf == .int8) o.f)) →
      o.out + o.first0 o.block * mvSize o.ofmt + bs.length ≤ 2 ^ 23 → bs ≠ [] →
      (s.mvRead c o).st.lanesClean c (o.out + o.first0 o.block * mvSize o.ofmt) bs.length →
      Completes (.mvBlockCheck c ups) s (fun t =>
        memBytes t.mem (sramByte c (o.out + o.first0 o.block * mvSize o.ofmt)) bs.length = bs ∧
        MemBut (sramByte c (o.out + o.first0 o.block * mvSize o.ofmt)) bs.length s t ∧ (t.core c).mv = none)) ∧
    (∀ o k ups, (s.core c).mv = some o → k ≤ o.k → (s.mvRead c o).fail = none → o.mism = 0 →
      (∃ v, v < o.b ∧ ((o.verdicts (k - k % 32) (o.outs (k - k % 32) (s.mvRead c o).w (s.mvRead c o).x
        (s.mvRead c o).st.freeAt ups) (s.mvRead c o).x ((s.mvRead c o).c.take (k - k % 32))
        ((s.mvRead c o).a.take (k - k % 32))).getD v (false, false)).1 = true) →
      Completes (.mvInplaceCompare c k ups) s (fun t => t.fld ARRAY_STAT.LAST_MISMATCH c 0 = 8 ∧
        (t.core c).mv = some { o with mism := 1, breach := false } ∧ t.mem = s.mem))

/-- R113: each of the thirteen vector commands at the head of queue 1 issues once its wait and, for CVT, its slot let it; one whose
descriptor passes its checks, leaving the state `u`, runs on the rows its operands hold, and stands in flight with the writes of
its results. -/
def Obligations.VectorCommands : Prop :=
  ∀ (s u : State) c f o (op : VOp) code cmd,
    (op, code, cmd) ∈ [(VOp.add, 0, Instr.add c), (.mul, 1, .mul c), (.axpby, 2, .axpby c), (.max, 3, .max c), (.exp, 4, .exp c),
      (.recip, 5, .recip c), (.rsqrt, 6, .rsqrt c), (.rowsum, 7, .rowsum c), (.rowmax, 8, .rowmax c),
      (.rmsnorm, 9, .rmsnorm c), (.rope, 10, .rope c), (.gate, 11, .gate c), (.cvt, 12, .cvt c)] →
    (op = .cvt → s.slotReady c f.word 448 = true) →
    (∀ v, s.issues c 1 7 code f v → Completes cmd s (fun t => t = (v.vecAct c op f).queueSettle c 1)) ∧
    (s.atHead c 1 7 code f → (s.advanceHead c 1).vecParse c op f = .go u o → Completes cmd s (fun t => s.issued c 1 t ∧
      (∃ y, y ∈ (t.queue c 1).inflight ∧ y.index = f.index ∧ y.word = f.word ∧ y.status = (u.vecRun c o).status ∧
        y.writes = (u.vecRun c o).writes) ∧ t.mem = (u.vecRun c o).st.mem))

/-- R42, R50, R86-R88: SLOT_ADV of a slot that is not busy makes it BUSY until the advance ends, with the slot's positions,
window and area as they are then; SEED_GO makes it BUSY likewise, and is counted as a STATE_CONFLICT while it is. The update of a
slot ends once no operation in flight names it: a step advance works through its positions in order and moves HEAD on by one, or
ends at the first POISON with HEAD as it was; a seed writes the slot's area, with HEAD and BUSY at 0. A write of QUANT_CTRL
restarts the generator from SR_SEED, 0 as 1. -/
def Obligations.GuardCommands : Prop :=
  ∀ (s : State) c q f slot, slot < 64 →
    (∀ u, s.issues c q 3 0 f u → cmdBits f.word 37 32 = slot → s.fld GUARD_CFG.BUSY c slot = 0 →
      Completes (.slotAdv c q) s (fun t => s.issued c q t ∧ t.fld GUARD_CFG.BUSY c slot = 1 ∧
        (t.core c).updates = (u.core c).updates ++ [{ u.guardUpd c slot false with queue := q, index := f.index }] ∧
        (∃ y, y ∈ (t.queue c q).inflight ∧ y.index = f.index ∧ y.word = f.word ∧ y.ready = false) ∧ t.mem = u.mem)) ∧
    (s.fld GUARD_CFG.BUSY c slot = 0 → Completes (.seedGo c slot) s (fun t => t.fld GUARD_CFG.BUSY c slot = 1 ∧
      (t.core c).updates = (s.core c).updates ++ [s.guardUpd c slot true] ∧
      RegsBut [(.GUARD_CFG, c, slot)] s t ∧ SameBut [.regs, .cores] s t)) ∧
    (∀ u, u.slot = slot → (s.core c).updates.find? (fun v => v.slot == slot) = some u → s.slotInUse c slot = false →
      Completes (.guardUpdateDone c slot) s (fun t => t = s.guardEnd c u ∧
        (u.seed = true → u.base + (2 * guardD u.p + 32 * u.p) ≤ 2 ^ 23 →
          s.lanesClean c u.base (2 * guardD u.p + 32 * u.p) →
          memBytes t.mem (sramByte c u.base) (2 * guardD u.p + 32 * u.p) =
            seedArea u.p (guardD u.p) (seedBf16 (s.fld GUARD_SEED.SEED c 0)) s.freeVal) ∧
        (u.seed = false → ∀ r, r = State.advanceAll ((s.setCore c { s.core c with
            updates := (s.core c).updates.filter (fun x => x.slot != slot) }).setFld GUARD_CFG.BUSY c slot 0)
              c slot u.base (guardD u.p) (s.fld GUARD_CFG.HEAD c slot) u.win (List.range u.p) →
          t.fld GUARD_CFG.HEAD c slot = if r.2 = true then (s.fld GUARD_CFG.HEAD c slot + 1) % 16
            else s.fld GUARD_CFG.HEAD c slot))) ∧
    (s.fld GUARD_CFG.BUSY c slot = 1 → Completes (.seedGo c slot) s (fun t => t.fld GUARD_CFG.BUSY c slot = 1 ∧
      t.fld SEQ_STAT.SC_COUNT c 0 = min (2 ^ 32 - 1) (s.fld SEQ_STAT.SC_COUNT c 0 + 1) ∧
      RegsBut [(.SEQ_STAT, c, 0), (.EVT_STAT, 0, 0)] s t ∧ SameBut [.regs, .freeCtr, .events] s t)) ∧
    (∀ u, (s.core c).updates.find? (fun v => v.slot == slot) = some u → u.seed = true → u.slot = slot →
      s.slotInUse c slot = false → Completes (.guardUpdateDone c slot) s (fun t =>
        t.fld GUARD_CFG.BUSY c slot = 0 ∧ t.fld GUARD_CFG.HEAD c slot = 0 ∧
        (t.core c).updates = (s.core c).updates.filter (fun v => v.slot != slot))) ∧
    (∀ v : Word, Completes (.quantCtrlWrite c v) s (fun t =>
      t.reg .QUANT_CTRL c 0 = (s.reg .QUANT_CTRL c 0 &&& ~~~accessMask (Reg.QUANT_CTRL.fields 0) [.rw]) |||
        (v &&& accessMask (Reg.QUANT_CTRL.fields 0) [.rw]) ∧
      (t.core c).srState = (if getBits v 63 32 = 0 then 1 else getBits v 63 32) ∧
      RegsBut [(.QUANT_CTRL, c, 0)] s t ∧ SameBut [.regs, .cores] s t))

/-! ## Core command streams (06) -/

/-- R94: a TAIL write is judged against HEAD as it stands: a valid one moves TAIL and nothing else; one at or above the
ring's size, or one that would lower the count, keeps HEAD and TAIL and raises SEQ_TAIL_BAD; on a fenced queue it is ignored
(R117). R95: a queue that may fetch takes the whole word's commands up to TAIL behind those it holds; from an SRAM word that
carries no mark they are the ring's bytes, an uncorrectable word gives commands that trap with cause 3, and a word at or beyond
the end of the SRAM commands that trap with cause 5. -/
def Obligations.RingCommands : Prop :=
  (∀ (s : State) c q v, s.qState c q = qFenced → Completes (.tailWrite c q v) s (fun t => t = s)) ∧
  (∀ (s : State) c q v, q < 4 → s.qState c q ≠ qFenced →
      (v < s.ringSize c q →
        (s.qTail c q + s.ringSize c q - s.qHead c q % s.ringSize c q) % s.ringSize c q ≤
          (v + s.ringSize c q - s.qHead c q % s.ringSize c q) % s.ringSize c q →
        Completes (.tailWrite c q v) s (fun t => t.qTail c q = v % 2 ^ 16 ∧ t.qHead c q = s.qHead c q ∧
          RegsBut [(.QPTR, c, q)] s t ∧ SameBut [.regs] s t)) ∧
      ((s.ringSize c q ≤ v ∨
          (v + s.ringSize c q - s.qHead c q % s.ringSize c q) % s.ringSize c q <
            (s.qTail c q + s.ringSize c q - s.qHead c q % s.ringSize c q) % s.ringSize c q) →
        Completes (.tailWrite c q v) s (fun t => t.qTail c q = s.qTail c q ∧ t.qHead c q = s.qHead c q ∧
          Raised .SEQ_TAIL_BAD (siteOf c) (coreNo c) s t ∧
          RegsBut [(.EVT_STAT, 0, 0)] s t ∧ SameBut [.regs, .freeCtr, .events] s t))) ∧
  (∀ (s : State) c q, s.mayFetch c q = true →
      (s.lanesClean c (s.fld QCFG.BASE c q * 64 + 64 * ((s.queue c q).fetchAt / 4)) 64 →
        s.fld QCFG.BASE c q * 64 + 64 * ((s.queue c q).fetchAt / 4) < 2 ^ 23 →
        Completes (.ringFetchDone c q) s (fun t =>
          (t.queue c q).fetched = (s.queue c q).fetched ++ (fetchIndexes (s.queue c q).fetchAt (s.qTail c q)).map (fun i =>
            ⟨i, BitVec.ofNat 128 (leNat (memBytes s.mem (sramByte c (s.fld QCFG.BASE c q * 64 + 16 * i)) 16)), none⟩) ∧
          t.qHead c q = s.qHead c q ∧ t.mem = s.mem)) ∧
      (∀ off g, off = s.fld QCFG.BASE c q * 64 + 64 * ((s.queue c q).fetchAt / 4) → off < 2 ^ 23 →
        g = s.sramRead c off 64 rqDma →
        Completes (.ringFetchDone c q) s (fun t =>
          (t.queue c q).fetched = (s.queue c q).fetched ++ (fetchIndexes (s.queue c q).fetchAt (s.qTail c q)).map (fun i =>
            ⟨i, BitVec.ofNat 128 (leNat ((g.data.drop (16 * (i % 4))).take 16)), if g.status = .ok then none else some 3⟩) ∧
          t.qHead c q = s.qHead c q ∧ t.mem = s.mem)) ∧
      (2 ^ 23 ≤ s.fld QCFG.BASE c q * 64 + 64 * ((s.queue c q).fetchAt / 4) →
        Completes (.ringFetchDone c q) s (fun t =>
          (t.queue c q).fetched = (s.queue c q).fetched ++
            (fetchIndexes (s.queue c q).fetchAt (s.qTail c q)).map (fun i => ⟨i, 0, some 5⟩) ∧
          t.qHead c q = s.qHead c q ∧ t.mem = s.mem)))

/-- R97, R98: a command of a reserved class or operation, of a class not allowed on its queue, or with a bit set that must
be zero traps its running queue when it comes to its head: HEAD stays at it, nothing of memory changes, QSTAT records
TRAPPED, the cause and the index, and SEQ_TRAP is raised. R99: a running command whose status is not OK puts its running
queue into ERROR with its status and index, does not signal, and raises SEQ_ERROR. -/
def Obligations.QueueStops : Prop :=
  ((∀ q w, (bodyFields (cmdClass w) (cmdOp w) = none → trapCause q w = some 0) ∧
      (bodyFields (cmdClass w) (cmdOp w) ≠ none → classOnQueue (cmdClass w) q = false → trapCause q w = some 1) ∧
      (9 ≤ cmdClass w → trapCause q w = some 0) ∧
      (∀ cause, trapCause q w = some cause → cause ∈ [0, 1, 2, 4])) ∧
    (∀ (s : State) c q f rest cause, q < 4 → (s.queue c q).fetched = f :: rest →
      (s.qState c q = qRunning ∨ s.qState c q = qWaiting) → f.bad = none → trapCause q f.word = some cause →
      (s.queueSettle c q).qState c q = qTrapped ∧ (s.queueSettle c q).fld QSTAT.CAUSE c q = cause ∧
      (s.queueSettle c q).fld QSTAT.INDEX c q = f.index % 2 ^ 16 ∧ (s.queueSettle c q).qHead c q = s.qHead c q ∧
      Raised .SEQ_TRAP (siteOf c) (coreNo c) s (s.queueSettle c q) ∧
      SameBut [.regs, .freeCtr, .events, .mils] s (s.queueSettle c q))) ∧
  (∀ (s : State) c q idx w st, q < 4 → st ≠ .ok → st ≠ .stateConflict →
      (s.qState c q = qRunning ∨ s.qState c q = qWaiting) →
      (s.finish c q idx w st).qState c q = qError ∧ (s.finish c q idx w st).fld QSTAT.STATUS c q = st.code ∧
      (s.finish c q idx w st).fld QSTAT.INDEX c q = idx % 2 ^ 16 ∧ (s.finish c q idx w st).qHead c q = s.qHead c q ∧
      Raised .SEQ_ERROR (siteOf c) (coreNo c) s (s.finish c q idx w st) ∧
      SameBut [.regs, .freeCtr, .events, .mils, .cores] s (s.finish c q idx w st))

/-- R99, R100: RESUME and SKIP. A TRAPPED queue fetches the command at HEAD again, SKIP after advancing HEAD by one; RESUME takes
a HALTED queue on, and SKIP of one with no error pending is ignored; either takes a TRAPPED or HALTED queue with ERR_PEND set to
ERROR; ERROR is left with the withheld signals dropped unless SIG_FAILED asks for them; in any other state the write is ignored.
Where EN is 0 the queue goes to DISABLED in place of RUNNING (log 22). R102: a queue whose head waits past the limit raises
SEQ_WAIT_LONG once and goes on waiting. -/
def Obligations.ResumeAndWait : Prop :=
  (∀ (s : State) c q sig, q < 4 →
      (s.qState c q ≠ qTrapped → s.qState c q ≠ qError → s.qState c q ≠ qHalted →
        Completes (.resume c q sig) s (fun t => t = s)) ∧
      (s.qState c q ≠ qTrapped → s.qState c q ≠ qError → (s.qState c q = qHalted → s.fld QSTAT.ERR_PEND c q = 0) →
        Completes (.skip c q sig) s (fun t => t = s)) ∧
      (s.qState c q = qHalted → s.fld QSTAT.ERR_PEND c q = 0 → Completes (.resume c q sig) s (fun t =>
        t = (s.setFld QSTAT.STATE c q (if s.fld QCFG.EN c q = 1 then qRunning else qDisabled)).queueSettle c q)) ∧
      (∀ cmd, cmd = Instr.resume c q sig ∨ cmd = Instr.skip c q sig → s.fld QSTAT.ERR_PEND c q = 1 →
        (s.qState c q = qHalted → Completes cmd s (fun t => t.qState c q = qError ∧ t.fld QSTAT.ERR_PEND c q = 0 ∧
          t.qHead c q = s.qHead c q ∧ RegsBut [(.QSTAT, c, q)] s t ∧ SameBut [.regs] s t)) ∧
        (s.qState c q = qTrapped → Completes cmd s (fun t => t.qState c q = qError ∧ t.fld QSTAT.ERR_PEND c q = 0 ∧
          (t.queue c q).fetched = [] ∧ RegsBut [(.QSTAT, c, q), (.QPTR, c, q)] s t ∧ SameBut [.regs, .cores] s t))) ∧
      (s.qState c q = qTrapped → s.fld QSTAT.ERR_PEND c q = 0 → Completes (.resume c q sig) s (fun t =>
          t.qState c q = (if s.fld QCFG.EN c q = 1 then qRunning else qDisabled) ∧ (t.queue c q).fetched = [] ∧
          (t.queue c q).fetchAt = s.qHead c q) ∧
        Completes (.skip c q sig) s (fun t =>
          t.qState c q = (if s.fld QCFG.EN c q = 1 then qRunning else qDisabled) ∧ (t.queue c q).fetched = [] ∧
          (t.queue c q).fetchAt = (s.qHead c q + 1) % s.ringSize c q % 2 ^ 16)) ∧
      (∀ cmd, cmd = Instr.resume c q sig ∨ cmd = Instr.skip c q sig → s.qState c q = qError → Completes cmd s (fun t =>
        (t.queue c q).withheld = [] ∧ t.qState c q ≠ qError ∧ t.qHead c q = s.qHead c q ∧ (sig = false → t.mem = s.mem))) ∧
      (s.qState c q = qTrapped → s.fld QSTAT.ERR_PEND c q = 0 → s.fld QCFG.EN c q = 1 →
        Completes (.resume c q sig) s (fun t => t.qState c q = qRunning ∧ t.qHead c q = s.qHead c q ∧
          (t.queue c q).fetched = [] ∧ (t.queue c q).fetchAt = s.qHead c q ∧
          RegsBut [(.QSTAT, c, q)] s t ∧ SameBut [.regs, .cores] s t) ∧
        Completes (.skip c q sig) s (fun t => t.qState c q = qRunning ∧
          t.qHead c q = (s.qHead c q + 1) % s.ringSize c q % 2 ^ 16 ∧
          (t.queue c q).fetched = [] ∧ (t.queue c q).fetchAt = (s.qHead c q + 1) % s.ringSize c q % 2 ^ 16 ∧
          RegsBut [(.QSTAT, c, q), (.QPTR, c, q)] s t ∧ SameBut [.regs, .cores] s t)) ∧
      (s.qState c q = qError → s.fld QCFG.EN c q = 1 → (s.queue c q).fetched = [] →
        Completes (.resume c q false) s (fun t => t.qState c q = qRunning ∧ (t.queue c q).withheld = [] ∧
          t.qHead c q = s.qHead c q ∧ RegsBut [(.QSTAT, c, q)] s t ∧ SameBut [.regs, .cores] s t) ∧
        Completes (.skip c q false) s (fun t => t.qState c q = qRunning ∧ (t.queue c q).withheld = [] ∧
          t.qHead c q = s.qHead c q ∧ RegsBut [(.QSTAT, c, q)] s t ∧ SameBut [.regs, .cores] s t))) ∧
  (∀ (s : State) c q f rest, (s.queue c q).fetched = f :: rest → s.qState c q = qWaiting →
      s.fld SEQ_CFG.WAIT_LIMIT c 0 ≠ 0 → (s.queue c q).warned = false → cmdWaitCnt f.word ≠ 0 →
      Completes (.waitLimitExpiry c q) s (fun t => (t.queue c q).warned = true ∧ t.qState c q = qWaiting ∧
        (t.queue c q).fetched = f :: rest ∧
        (s.withheld .SEQ_WAIT_LONG (siteOf c) (coreNo c) 0 = false → Raised .SEQ_WAIT_LONG (siteOf c) (coreNo c) s t) ∧
        RegsBut [(.EVT_STAT, 0, 0)] s t ∧ SameBut [.regs, .freeCtr, .events, .cores] s t ∧
        Completes (.waitLimitExpiry c q) t (fun t' => t' = t)))

/-- R101: SEM_SIG adds SIG_CNT to its semaphore, a count that would pass 0xFFFF_FFFF staying there; SEM_WAIT issues when the
count is at least WAIT_CNT and with WDEC subtracts it, and otherwise leaves everything but the queue's shown state; SEM_SET
writes VALUE. No other byte of memory changes. The semaphores lie in lanes that carry no mark, and a SEM_SIG behind moves that
run signals when it completes after them (R103). -/
def Obligations.Semaphores : Prop :=
  ∀ (s : State) c q f, q < 4 →
    (s.atHead c q 1 1 f → s.behindMoves c q f.word = false → cmdSigCnt f.word ≠ 0 → s.semClean c (cmdSigSem f.word) →
      Completes (.semSig c q) s (fun t => s.issued c q t ∧
        t.semValue c (cmdSigSem f.word) = min (2 ^ 32 - 1) (s.semValue c (cmdSigSem f.word) + cmdSigCnt f.word) ∧
        MemBut (sramByte c (s.semOff c (cmdSigSem f.word) % 2 ^ 23)) 4 s t ∧
        SameBut [.regs, .freeCtr, .events, .mils, .cores, .mem] s t)) ∧
    (s.headOf c q 1 0 = some f → cmdWaitCnt f.word ≠ 0 → s.semClean c (cmdWaitSem f.word) →
      (cmdWaitCnt f.word ≤ s.semValue c (cmdWaitSem f.word) → cmdSigCnt f.word = 0 →
        Completes (.semWait c q) s (fun t => s.issued c q t ∧
          t.semValue c (cmdWaitSem f.word) =
            s.semValue c (cmdWaitSem f.word) - (if cmdWdec f.word then cmdWaitCnt f.word else 0) ∧
          MemBut (sramByte c (s.semOff c (cmdWaitSem f.word) % 2 ^ 23)) 4 s t ∧
          SameBut [.regs, .freeCtr, .events, .mils, .cores, .mem] s t)) ∧
      (s.semValue c (cmdWaitSem f.word) < cmdWaitCnt f.word →
        Completes (.semWait c q) s (fun t => t.qState c q = qWaiting ∧ RegsBut [(.QSTAT, c, q)] s t ∧
          SameBut [.regs] s t))) ∧
    (s.atHead c q 1 2 f → cmdSigCnt f.word = 0 → s.semClean c (cmdBits f.word 37 32) →
      Completes (.semSet c q) s (fun t => s.issued c q t ∧ t.semValue c (cmdBits f.word 37 32) = cmdBits f.word 95 64 ∧
        MemBut (sramByte c (s.semOff c (cmdBits f.word 37 32) % 2 ^ 23)) 4 s t ∧
        SameBut [.regs, .freeCtr, .events, .mils, .cores, .mem] s t))

/-- R96, R101, R103, R105-R107: every command of the control, sync and check classes issues at the head of any queue once its wait
is satisfied and what it waits for besides has come (FIFO room for MSG, its queue quiet for RSIG, FENCE's and BFENCE's
conditions), has its effect, and completes, or stands in flight where it runs on or moves run before it; the next command is
then looked at. The same commands when their header asks for no wait and no signal:
NOP does nothing; MSG pushes its queue and TAG into a FIFO that has room; HALT halts the queue with CODE and INDEX; FENCE
and BFENCE issue once what they wait for has completed. Each advances HEAD by one. R107: WREG writes VALUE to the register
at its offset of the core window: its RW fields take the value's bits and its others stay. The registers are those of the
offsets WREG may name that have no clamp and no act of their own. -/
def Obligations.ControlAndRegisters : Prop :=
  (∀ (s u : State) c q f,
      (s.issues c q 0 0 f u → Completes (.nop c q) s (fun t => t = (u.finishNow c q f .ok).queueSettle c q)) ∧
      (s.issues c q 0 1 f u → Completes (.halt c q) s (fun t => t = (u.haltAct c q f).queueSettle c q)) ∧
      (s.issues c q 0 2 f u → (s.core c).msgFifo.length < 16 →
        Completes (.msg c q) s (fun t => t = ((u.msgAct c q f).finishNow c q f .ok).queueSettle c q)) ∧
      (s.issues c q 0 3 f u → Completes (.wreg c q) s (fun t =>
        t = ((u.csrWrite (.core c) .core c (wregOff f.word) 8 (cmdBits f.word 127 64)).st.finishNow c q f .ok).queueSettle c q)) ∧
      (s.issues c q 1 0 f u → Completes (.semWait c q) s (fun t => t = (u.finishNow c q f .ok).queueSettle c q)) ∧
      (s.issues c q 1 1 f u → Completes (.semSig c q) s (fun t => t = (u.finishNow c q f .ok).queueSettle c q)) ∧
      (s.issues c q 1 2 f u → Completes (.semSet c q) s (fun t => t = (u.semSetAct c q f).queueSettle c q)) ∧
      (s.issues c q 1 3 f u → (s.queue c q).inflight = [] →
        Completes (.rsig c q) s (fun t => t = (u.rsigAct c q f).queueSettle c q)) ∧
      (s.issues c q 1 4 f u → s.fenceOk c q f = true →
        Completes (.fence c q) s (fun t => t = (u.finishNow c q f .ok).queueSettle c q)) ∧
      (s.issues c q 1 5 f u → s.bfenceOk c f = true →
        Completes (.bfence c q) s (fun t => t = (u.finishNow c q f .ok).queueSettle c q)) ∧
      (s.issues c q 3 1 f u → Completes (.crc c q) s (fun t => t = (u.crcAct c q f).queueSettle c q)) ∧
      (s.issues c q 3 2 f u → Completes (.cmp c q) s (fun t => t = (u.cmpAct c q f).queueSettle c q))) ∧
  (∀ (s : State) c q f, cmdSigCnt f.word = 0 →
      (s.atHead c q 0 0 f → Completes (.nop c q) s (fun t => s.issued c q t ∧
        (t.core c).msgFifo = (s.core c).msgFifo ∧ SameBut [.regs, .freeCtr, .events, .mils, .cores] s t)) ∧
      (s.atHead c q 0 1 f → Completes (.halt c q) s (fun t => s.issued c q t ∧ t.qState c q = qHalted ∧
        t.fld QSTAT.CODE c q = cmdBits f.word 47 32 ∧ t.fld QSTAT.INDEX c q = f.index % 2 ^ 16 ∧
        RegsBut [(.QSTAT, c, q), (.QPTR, c, q)] s t ∧ SameBut [.regs, .mils, .cores] s t)) ∧
      (s.atHead c q 0 2 f → (s.core c).msgFifo.length < 16 → Completes (.msg c q) s (fun t => s.issued c q t ∧
        (t.core c).msgFifo = (s.core c).msgFifo ++ [(q, cmdBits f.word 63 32)] ∧
        SameBut [.regs, .freeCtr, .events, .mils, .cores] s t)) ∧
      (s.atHead c q 1 4 f → s.fenceOk c q f = true → Completes (.fence c q) s (fun t => s.issued c q t ∧
        SameBut [.regs, .freeCtr, .events, .mils, .cores] s t)) ∧
      (∀ k, s.atHead c q 1 4 f → k < 4 → ((cmdBits f.word 35 32).testBit k = true ∨ k = q) → (s.queue c k).inflight ≠ [] →
        Completes (.fence c q) s (fun t => t = s)) ∧
      (s.atHead c q 1 5 f → s.bfenceOk c f = true → Completes (.bfence c q) s (fun t => s.issued c q t ∧
        SameBut [.regs, .freeCtr, .events, .mils, .cores] s t))) ∧
  (∀ (s : State) c q f r i, q < 4 → i < 2 ^ 16 → s.atHead c q 0 3 f → cmdSigCnt f.word = 0 →
      regAt .core c (wregOff f.word) = some (r, c, i, 0) →
      r ∉ [Reg.QUANT_CTRL, .ARRAY_CFG, .GUARD_CFG, .GUARD_CTRL, .QCFG, .QPTR, .QCTL, .QSTAT, .FUL_CFG, .FUL_CTL, .EVT_STAT] →
      Completes (.wreg c q) s (fun t => s.issued c q t ∧
        t.reg r c i = (s.reg r c i &&& ~~~accessMask (r.fields i) [.rw]) |||
          (BitVec.ofNat 64 (cmdBits f.word 127 64) &&& accessMask (r.fields i) [.rw]) ∧
        RegsBut [(r, c, i), (.QPTR, c, q), (.QSTAT, c, q), (.EVT_STAT, 0, 0)] s t ∧
        SameBut [.regs, .freeCtr, .events, .mils, .cores] s t))

/-- R105, R107: RSIG whose word lies in SRAM it may reach adds COUNT there, saturating, once its queue is quiet, and goes into
flight until the acknowledgement; a DA that is not 4-byte aligned or not of the SRAM region completes BAD_FORMAT with no
effect. CRC reads its range and will write the CRC-32C; CMP completes OK where the masked word equals VALUE and ABORTED
otherwise, which puts the queue into ERROR (behind moves that run, once it completes after them, R103). -/
def Obligations.SignalsAndChecks : Prop :=
  ∀ (s : State) c q f, q < 4 →
    (∀ d off, s.atHead c q 1 3 f → (s.queue c q).inflight = [] →
      s.decodeDa (cmdBits f.word 71 32) = .sram d off → s.checkReq .atomic (.core c) (cmdBits f.word 71 32) 4 = .pass →
      s.lanesClean d off 4 →
      Completes (.rsig c q) s (fun t => s.issued c q t ∧
        (t.queue c q).inflight = [{ index := f.index, word := f.word, status := .ok }] ∧
        leNat (memBytes t.mem (sramByte d off) 4) =
          min (2 ^ 32 - 1) (leNat (memBytes s.mem (sramByte d off) 4) + cmdBits f.word 75 72) ∧
        MemBut (sramByte d off) 4 s t ∧ SameBut [.regs, .freeCtr, .events, .mils, .cores, .mem] s t)) ∧
    (s.atHead c q 1 3 f → (s.queue c q).inflight = [] →
      (cmdBits f.word 71 32 % 4 ≠ 0 ∨ bitsOf (cmdBits f.word 71 32) 39 38 ≠ 1) →
      Completes (.rsig c q) s (fun t => s.issued c q t ∧ t.qState c q = qError ∧
        t.fld QSTAT.STATUS c q = 0x0D ∧ SameBut [.regs, .freeCtr, .events, .mils, .cores] s t)) ∧
    (s.atHead c q 3 1 f → cmdBits f.word 77 55 ≠ 0 → cmdBits f.word 54 32 + cmdBits f.word 77 55 ≤ 2 ^ 23 →
      cmdBits f.word 100 78 % 4 = 0 → s.lanesClean c (cmdBits f.word 54 32) (cmdBits f.word 77 55) →
      cmdBits f.word 54 32 < 2 ^ 23 →
      Completes (.crc c q) s (fun t => s.issued c q t ∧
        (t.queue c q).inflight = (s.queue c q).inflight ++ [{
          index := f.index, word := f.word,
          writes := [.sram (cmdBits f.word 100 78) (leBytes 4 (crc32c
            (memBytes s.mem (sramByte c (cmdBits f.word 54 32)) (cmdBits f.word 77 55))))] }] ∧
        SameBut [.regs, .freeCtr, .events, .mils, .cores] s t)) ∧
    (s.atHead c q 3 2 f → s.behindMoves c q f.word = false → cmdSigCnt f.word = 0 → cmdBits f.word 54 32 % 4 = 0 →
      s.lanesClean c (cmdBits f.word 54 32) 4 →
      ∀ x, x = leNat (memBytes s.mem (sramByte c (cmdBits f.word 54 32)) 4) &&& cmdBits f.word 127 96 →
      (x = cmdBits f.word 95 64 → Completes (.cmp c q) s (fun t => s.issued c q t ∧ t.qState c q ≠ qError ∧
        SameBut [.regs, .freeCtr, .events, .mils, .cores] s t)) ∧
      (x ≠ cmdBits f.word 95 64 → Completes (.cmp c q) s (fun t => s.issued c q t ∧ t.qState c q = qError ∧
        t.fld QSTAT.STATUS c q = 0x02 ∧ SameBut [.regs, .freeCtr, .events, .mils, .cores] s t)))

/-- R108, R104: the move commands COPY, FILL, XCOPY and FGO issue while the engine has room and stand in flight until they
complete; FILL will write its pattern, COPY within the core's own SRAM the bytes its source holds. When a command in flight
completes OK, its writes of SRAM are performed. They wait while a source is not ready (R12). R104: any running command that may
complete now (R103), none of whose writes waits, completes: its writes are performed, it leaves its queue, and it signals or
takes its queue into ERROR. With one write to the core's own SRAM and no signal asked nothing else of memory changes. -/
def Obligations.MoveEffects : Prop :=
  (∀ (s u : State) c f, s.moveRoom c = true →
      (s.issues c 3 4 1 f u → Completes (.fill c) s (fun t => t = (u.fillAct c f).queueSettle c 3)) ∧
      (s.issues c 3 4 0 f u → s.rowsHeld c [copyRow f] = false →
        Completes (.copy c) s (fun t => t = (u.copyAct c f).queueSettle c 3)) ∧
      (s.issues c 3 4 2 f u →
        s.rowsHeld c (xcopyRows (leNat (memBytes s.mem (sramByte c (64 * cmdBits f.word 48 32)) 32))) = false →
        Completes (.xcopy c) s (fun t => t = (u.xcopyAct c f).queueSettle c 3))) ∧
  (∀ (s : State) c f, s.moveRoom c = true →
      (s.atHead c 3 4 1 f → Completes (.fill c) s (fun t => s.issued c 3 t ∧
        (t.queue c 3).inflight = (s.queue c 3).inflight ++ [{
          index := f.index, word := f.word,
          writes := [.req (cmdBits f.word 111 72) ((List.range (16 * (cmdBits f.word 127 112 + 1))).flatMap
            (fun _ => leBytes 4 (cmdBits f.word 63 32)))] }] ∧
        SameBut [.regs, .freeCtr, .events, .mils, .cores] s t)) ∧
      (s.atHead c 3 4 0 f → s.rowsHeld c [copyRow f] = false → Completes (.copy c) s (fun t => s.issued c 3 t ∧
        (∃ x, (t.queue c 3).inflight = (s.queue c 3).inflight ++ [x] ∧ x.index = f.index ∧ x.word = f.word) ∧
        t.mem = s.mem)) ∧
      (s.atHead c 3 4 2 f →
        s.rowsHeld c (xcopyRows (leNat (memBytes s.mem (sramByte c (64 * cmdBits f.word 48 32)) 32))) = false →
        s.lanesClean c (64 * cmdBits f.word 48 32) 32 →
        Completes (.xcopy c) s (fun t => s.issued c 3 t ∧
          ((∃ x, (t.queue c 3).inflight = (s.queue c 3).inflight ++ [x] ∧ x.index = f.index ∧ x.word = f.word) ∨
            (t.qState c 3 = qError ∧ t.fld QSTAT.STATUS c 3 = 0x0D)) ∧ t.mem = s.mem))) ∧
  (∀ (s : State) c q idx x, s.completable c q idx = some x → (∀ w, w ∈ x.writes → s.storeHeld c w = false) →
      s.walkHeld c x = false →
      Completes (.commandComplete c q idx) s (fun t => t = s.complete c q x)) ∧
  (∀ (s : State) c q idx x, s.completable c q idx = some x → x.att = none → x.writes = [] → x.scratch = none →
      cmdSigCnt x.word = 0 → Completes (.commandComplete c q idx) s (fun t =>
        (t.queue c q).inflight = (s.queue c q).inflight.eraseP (fun y => y.index == idx) ∧ t.mem = s.mem ∧
        (x.status ≠ .ok → s.qState c q = qRunning → t.qState c q = qError ∧ t.fld QSTAT.STATUS c q = x.status.code))) ∧
  (∀ (s : State) c q idx x off data, q < 4 → s.completable c q idx = some x → x.status = .ok → x.att = none →
      x.scratch = none → cmdSigCnt x.word = 0 → x.writes = [.sram off data] → off + data.length ≤ 2 ^ 23 → off < 2 ^ 23 →
      s.lanesClean c off data.length →
      Completes (.commandComplete c q idx) s (fun t =>
        memBytes t.mem (sramByte c off) data.length = data ∧ MemBut (sramByte c off) data.length s t ∧
        (t.queue c q).inflight = (s.queue c q).inflight.eraseP (fun y => y.index == idx) ∧
        SameBut [.regs, .freeCtr, .events, .mils, .cores, .mem] s t))

/-! ## Attention and KV cache (07) -/

/-- R132, R133, R140, R141: an attention command at the head of queue 2 issues once its wait is satisfied, the slots it names are
free (R86) and no channel it needs is held (R12), whatever its descriptor and table. Where these pass their checks, leaving the
state `u`, KV_APPEND issues and stands in flight with its positions stored; a table with two entries of one
handle that both bring tokens ends BAD_FORMAT, with ATT_LAST telling, and stores nothing. ATT_WALK issues and stands in
flight with its table. ATT_MERGE whose rows all have their parts will write its rows, and counts them; a row with a part
missing makes it ABORTED. R136, R143: an entry of ATT_WALK whose handle's GEN differs at the end from the one read at its
start is not committed: the command ends RETRY, counted in ATT_STAT and told by ATT_LAST and ATT_RETRY, and nothing of
memory changes. -/
def Obligations.AttentionWork : Prop :=
  (∀ (s u : State) c f,
      (s.issues c 2 8 0 f u → s.slotReady c f.word 96 = true → s.slotReady c f.word 128 = true →
        s.attStalled c attAppend f = false →
        Completes (.kvAppend c) s (fun v => v = (u.appendAct c f).queueSettle c 2)) ∧
      (s.issues c 2 8 1 f u → s.attStalled c attWalk f = false →
        Completes (.attWalk c) s (fun v => v = (u.walkAct c f).queueSettle c 2)) ∧
      (s.issues c 2 8 2 f u → Completes (.attMerge c) s (fun v => v = (u.mergeAct c f).queueSettle c 2))) ∧
  (∀ (s u : State) c f p d t,
      (s.atHead c 2 8 0 f → s.attStalled c attAppend f = false → s.slotReady c f.word 96 = true → s.slotReady c f.word 128 = true →
        (s.advanceHead c 2).attParse c 0 f = .go u (p, d, t) →
        (∀ u', u.append c p t = .go u' () → Completes (.kvAppend c) s (fun v => s.issued c 2 v ∧
          (∃ y, y ∈ (v.queue c 2).inflight ∧ y.index = f.index ∧ y.word = f.word ∧ y.status = .ok ∧ y.writes = []) ∧
          v.mem = u'.mem ∧ v.marks = u'.marks)) ∧
        (dupHandle t = true → Completes (.kvAppend c) s (fun v => s.issued c 2 v ∧
          (∃ y, y ∈ (v.queue c 2).inflight ∧ y.index = f.index ∧ y.status = .badFormat) ∧
          v.fld ATT_LAST.STATUS c 0 = 0x0D ∧ v.fld ATT_LAST.OP c 0 = 0 ∧ v.mem = u.mem ∧ v.marks = u.marks))) ∧
      (s.atHead c 2 8 1 f → s.attStalled c attWalk f = false → (s.advanceHead c 2).attParse c 1 f = .go u (p, d, t) →
        Completes (.attWalk c) s (fun v => s.issued c 2 v ∧
          (∃ y, y ∈ (v.queue c 2).inflight ∧ y.index = f.index ∧ y.word = f.word ∧ y.writes = [] ∧
            ((∀ e, e ∈ t → e.len = 0) → y.status = .ok ∧ ∃ a, y.att = some a ∧ a.table = t ∧ a.desc = d)) ∧
          ((∀ e, e ∈ t → e.len = 0) → v.mem = u.mem ∧ v.marks = u.marks))) ∧
      (s.atHead c 2 8 2 f → (s.advanceHead c 2).attParse c 2 f = .go u (p, d, t) →
        ∀ u' recs m, u.readAllRecords c p t (u.mergeBase p) (tokensOf t * p.h * p.qpk)
          (List.range (tokensOf t * p.h * p.qpk)) = .go u' recs →
        m = u'.mergeRows c p (u'.mergeBase p) (tokensOf t * p.h * p.qpk) recs →
        Completes (.attMerge c) s (fun v => s.issued c 2 v ∧ v.mem = m.1.mem ∧
          v.fld ATT_WORK.ROWS c 0 = satAdd 24 (m.1.fld ATT_WORK.ROWS c 0) m.2.1 ∧
          (∃ y, y ∈ (v.queue c 2).inflight ∧ y.index = f.index ∧ y.writes = m.2.2.2 ∧
            y.status = if m.2.2.1 = [] then .ok else .aborted)))) ∧
  (∀ (s : State) c w a old e h, a.table[a.entry]? = some e → a.gen = some old →
      s.lanesClean c ((AttP.of a.desc w).htab + 16 * e.kvh) 16 → (AttP.of a.desc w).htab + 16 * e.kvh + 16 ≤ 2 ^ 23 →
      h = leNat (memBytes s.mem (sramByte c ((AttP.of a.desc w).htab + 16 * e.kvh)) 16) →
      bitsOf h 127 96 ≠ old →
      (s.walkEnd c w a).2 = .retry ∧ (s.walkEnd c w a).1.mem = s.mem ∧ (s.walkEnd c w a).1.marks = s.marks ∧
      (s.walkEnd c w a).1.fld ATT_LAST.STATUS c 0 = 0x01 ∧
      (s.walkEnd c w a).1.fld ATT_STAT.RETRY c 0 = satAdd 16 (s.fld ATT_STAT.RETRY c 0) 1 ∧
      (s.withheld .ATT_RETRY (siteOf c) (coreNo c) 0 = false → Raised .ATT_RETRY (siteOf c) (coreNo c) s (s.walkEnd c w a).1))

/-! ## Bonded DRAM slices (08) -/

/-- R153-R155, R158, R170: the channels' traffic. A read of one clean beat that senses one wrong bit is corrected and counted for
the channel and the group, and the beat waits for its write-back; sensed uncorrectable twice it becomes a poison marker and
counts a UE; a marker counts a poison read. A write of clean beats stores its bytes at the places of R15 and nothing else. A
corrected beat is written back; a scrub step moves on by one row; a refresh keeps everything; an injection leaves the mask MODE
names on a clean beat. Any read or write is performed, or joins those that wait while its channel retrains or awaits its remap
(R148, R160, R165); any injection that the tile's map lets through is done. -/
def Obligations.DramTraffic : Prop :=
  (∀ (s : State) c o rq,
    (∀ len e1 e2, Completes (.dramRead c o len rq e1 e2) s (fun t =>
      t = if s.sliceHeld c o len then s.hold (.sliceRead c o len rq e1 e2) else (s.sliceRead c o len rq e1 e2).st)) ∧
    (∀ data, Completes (.dramWrite c o data rq) s (fun t =>
      t = if s.sliceHeld c o data.length then s.hold (.sliceWrite c o data rq) else (s.sliceWrite c o data rq).st))) ∧
  (∀ (s : State) c p, s.fld DRAM_CH_STAT.RETRAINING c p = 0 →
    (∀ b bs, (s.chan c p).wbq = b :: bs → Completes (.ceWriteback c p) s (fun t => (t.chan c p).wbq = bs ∧
      t = (s.setChan c p { s.chan c p with wbq := bs }).correctBeat c p b)) ∧
    (s.fld DRAM_CH_STAT.ROLE c p ≠ 5 → Completes (.scrubRow c p) s (fun t =>
      t.fld DRAM_CH_STAT.SCRUB_ROW c p = (s.fld DRAM_CH_STAT.SCRUB_ROW c p + 1) % 2048 ∧
      t.fld DRAM_CH_STAT.SCRUB_BANK c p = (if s.fld DRAM_CH_STAT.SCRUB_ROW c p = 2047
        then (s.fld DRAM_CH_STAT.SCRUB_BANK c p + 1) % 16 else s.fld DRAM_CH_STAT.SCRUB_BANK c p)))) ∧
  (∀ (s : State) a site v,
    (∀ l, s.ltileOf site = some l → s.denied a (.tileCsr site 0x2010) = none → s.fld DRAM_INJECT.ARM site 0 = 0 →
      Completes (.dramInject a site v) s (fun t =>
        t = (s.writeRw .DRAM_INJECT site 0 (setBits v 63 63 1)).inject site (setBits v 63 63 1))) ∧
    (∀ l r e, s.ltileOf site = some l → s.denied a (.tileCsr site 0x2010) = some (r, e) →
      Completes (.dramInject a site v) s (fun t => t = s.refuse a (tileDa l 0x2010) (.order2 r e)))) ∧
  ∀ (s : State) c o, c < 288 →
    (∀ rq b (e1 e2 : BitVec 272), s.sliceHeld c (32 * o) 32 = false → s.beatsClean c (32 * o) 32 → b < 272 →
      e1 = BitVec.ofNat 272 (2 ^ b) → Completes (.dramRead c (32 * o) 32 rq e1 e2) s (fun t => t.mem = s.mem ∧ t.marks = s.marks ∧
        t.fld DRAM_STAT.CE_COUNT c 0 = satAdd 24 (s.fld DRAM_STAT.CE_COUNT c 0) 1 ∧
        (∀ p, p = s.remap c (sliceLch (32 * o)) →
          t.fld DRAM_CH_STAT.CE_COUNT c p = satAdd 16 (s.fld DRAM_CH_STAT.CE_COUNT c p) 1 ∧
          Tbl.at (t.chan c p).groups (b / 4) 0 = Tbl.at (s.chan c p).groups (b / 4) 0 + 1))) ∧
    (∀ rq b b' (e : BitVec 272), s.sliceHeld c (32 * o) 32 = false → s.beatsClean c (32 * o) 32 → b < b' → b' < 272 →
      e = BitVec.ofNat 272 (2 ^ b) ^^^ BitVec.ofNat 272 (2 ^ b') → Completes (.dramRead c (32 * o) 32 rq e e) s (fun t =>
        t.mem = s.mem ∧ Tbl.find t.marks (s.sliceKey c (32 * o)) = some .poison ∧
        t.fld DRAM_STAT.UE_COUNT c 0 = satAdd 16 (s.fld DRAM_STAT.UE_COUNT c 0) 1)) ∧
    (∀ rq e1 e2, s.sliceHeld c (32 * o) 32 = false → s.lchDead c (sliceLch (32 * o)) = false →
      Tbl.find s.marks (s.sliceKey c (32 * o)) = some .poison → Completes (.dramRead c (32 * o) 32 rq e1 e2) s (fun t =>
        t.mem = s.mem ∧ t.marks = s.marks ∧ t.chans = s.chans ∧
        t.fld DRAM_STAT.POISON_READS c 0 = satAdd 16 (s.fld DRAM_STAT.POISON_READS c 0) 1)) ∧
    (∀ rq data, s.sliceHeld c o data.length = false → s.beatsClean c o data.length →
      Completes (.dramWrite c o data rq) s (fun t =>
        (∀ j, j < data.length → memByte t.mem (s.sliceKey c (o + j)) = data.getD j 0) ∧
        (∀ k, (∀ j, j < data.length → k ≠ s.sliceKey c (o + j)) → memByte t.mem k = memByte s.mem k) ∧
        SameBut [.mem] s t)) ∧
    (∀ p b bs m bit, p < 17 → (s.chan c p).wbq = b :: bs → s.fld DRAM_CH_STAT.RETRAINING c p = 0 →
      Tbl.find s.marks (dramByte c p b) = some (.beatError m) → maskSet m = [bit] →
      Completes (.ceWriteback c p) s (fun t => Tbl.find t.marks (dramByte c p b) = none ∧ (t.chan c p).wbq = bs ∧
        SameBut [.marks, .chans] s t)) ∧
    (∀ p, p < 17 → s.fld DRAM_CH_STAT.RETRAINING c p = 0 → s.fld DRAM_CH_STAT.ROLE c p ≠ 5 →
      (∀ j, j < 64 → Tbl.find s.marks (dramByte c p (chanByte (s.fld DRAM_CH_STAT.SCRUB_BANK c p)
        (s.fld DRAM_CH_STAT.SCRUB_ROW c p) (32 * j))) = none) →
      Completes (.scrubRow c p) s (fun t =>
        t.fld DRAM_CH_STAT.SCRUB_ROW c p = (s.fld DRAM_CH_STAT.SCRUB_ROW c p + 1) % 2048 ∧
        t.fld DRAM_CH_STAT.SCRUB_BANK c p = (if s.fld DRAM_CH_STAT.SCRUB_ROW c p = 2047
          then (s.fld DRAM_CH_STAT.SCRUB_BANK c p + 1) % 16 else s.fld DRAM_CH_STAT.SCRUB_BANK c p) ∧
        RegsBut [(.DRAM_CH_STAT, c, p)] s t ∧ SameBut [.regs] s t)) ∧
    (∀ p, Completes (.refresh c p) s (fun t => SameBut [] s t)) ∧
    (∀ a l v n, c = coreKey (c / 4) n → s.ltileOf (c / 4) = some l → s.denied a (.tileCsr (c / 4) 0x2010) = none →
      s.fld DRAM_INJECT.ARM (c / 4) 0 = 0 → s.coreEnabled c = true → getBits v 62 61 = n → getBits v 24 0 = o →
      s.beatsClean c (32 * o) 32 →
      (getBits v 60 59 = 0 → getBits v 49 41 < 272 → Completes (.dramInject a (c / 4) v) s (fun t =>
        Tbl.find t.marks (s.sliceKey c (32 * o)) = some (.beatError (BitVec.ofNat 272 (2 ^ getBits v 49 41))) ∧
        t.fld DRAM_INJECT.RESULT (c / 4) 0 = 0 ∧ t.fld DRAM_INJECT.ARM (c / 4) 0 = 0 ∧
        (∀ k, memByte t.mem k = memByte s.mem k) ∧ RegsBut [(.DRAM_INJECT, c / 4, 0)] s t ∧
        SameBut [.regs, .marks, .mem] s t)) ∧
      (getBits v 60 59 = 3 → Completes (.dramInject a (c / 4) v) s (fun t =>
        Tbl.find t.marks (s.sliceKey c (32 * o)) = some .poison ∧ t.fld DRAM_INJECT.RESULT (c / 4) 0 = 0 ∧
        SameBut [.regs, .marks] s t)))

/-- R163, R168: a write that starts a repair command. While one runs it is ignored and STATUS reads STATE_CONFLICT.
Otherwise the command runs, BUSY, with the status it was judged to have; a SWAP that may start makes the channel of its
logical channel the migration source and the spare the target. R162, R163: the end of a repair command: BUSY falls, STATUS
and DRAM_REPAIR tell; a SWAP or RETURN of a channel that retrains waits for the retrain's end. QUERY reports the spares left in its bank; ROW_SOFT without COPY gives the row poison markers; a fuse
that verifies is burned and one that does not ends INTEGRITY; CLEAR_SOFT drops the channel's soft repairs. -/
def Obligations.RepairCommands : Prop :=
  (∀ (s : State) a site v op cmd,
      (op, cmd) ∈ [(0, Instr.rowSoft a site v), (1, .colSoft a site v), (2, .rowFuse a site v), (3, .colFuse a site v),
        (4, .query a site v), (5, .clearSoft a site v), (6, .swap a site v), (7, .return_ a site v)] →
      Completes cmd s (fun t => t = s.tileGate a site 0x2100 (fun u => u.repairWrite site (setBits v 63 60 op)))) ∧
  (∀ (s : State) a site v l op cmd,
      (op, cmd) ∈ [(0, Instr.rowSoft a site v), (1, .colSoft a site v), (2, .rowFuse a site v), (3, .colFuse a site v),
        (4, .query a site v), (5, .clearSoft a site v), (6, .swap a site v), (7, .return_ a site v)] →
      s.ltileOf site = some l → s.denied a (.tileCsr site 0x2100) = none →
      (s.fld DRAM_REPAIR_STAT.BUSY site 0 = 1 → Completes cmd s (fun t =>
        t.fld DRAM_REPAIR_STAT.STATUS site 0 = 0x0C ∧ t.fld DRAM_REPAIR_STAT.BUSY site 0 = 1 ∧
        RegsBut [(.DRAM_REPAIR_STAT, site, 0)] s t ∧ SameBut [.regs] s t)) ∧
      (s.fld DRAM_REPAIR_STAT.BUSY site 0 = 0 → ∀ c lch st, c = coreKey site (getBits v 59 58) → lch = getBits v 31 28 →
        st = s.repairStatus op c (getBits v 57 53) (getBits v 52 49) (getBits v 48 38) (getBits v 37 32) lch →
        Completes cmd s (fun t => t.fld DRAM_REPAIR_STAT.BUSY site 0 = 1 ∧
          (∃ r, Tbl.find t.repairs site = some r ∧ r.op = op ∧ r.core = getBits v 59 58 ∧ r.pch = getBits v 57 53 ∧
            r.status = st) ∧
          ((op < 6 ∨ st ≠ .ok ∧ (op = 7 ∨ ∀ k, k < 16 → s.fld DRAM_CH_STAT.ROLE c (s.remap c k) ≠ 5)) → RegsBut [(.DRAM_REPAIR_CMD, site, 0), (.DRAM_REPAIR_STAT, site, 0)] s t ∧
            SameBut [.regs, .repairs] s t)) ∧
        (op = 7 → st = .ok → s.fld DRAM_CH_STAT.RETRAINING c (s.remap c lch) = 0 →
          s.fld DRAM_CH_STAT.RETRAINING c (getBits v 57 53) = 0 →
          Completes cmd s (fun t => t.fld DRAM_CH_STAT.ROLE c (s.remap c lch) = 2 ∧
            t.fld DRAM_CH_STAT.ROLE c (getBits v 57 53) = 3 ∧
            (∃ w, Tbl.find t.swaps c = some w ∧ w.lch = lch ∧ w.src = s.remap c lch ∧ w.dst = getBits v 57 53 ∧
              w.isReturn = true ∧ w.phase = .copying))) ∧
        (op = 6 → st = .ok → ∀ sp, s.spareOf c = some sp → s.remap c lch ≠ sp → s.fld DRAM_CH_STAT.ROLE c (s.remap c lch) ≠ 5 →
          s.fld DRAM_CH_STAT.RETRAINING c (s.remap c lch) = 0 → s.fld DRAM_CH_STAT.RETRAINING c sp = 0 →
          Completes cmd s (fun t => t.fld DRAM_CH_STAT.ROLE c (s.remap c lch) = 2 ∧ t.fld DRAM_CH_STAT.ROLE c sp = 3 ∧
            (∃ w, Tbl.find t.swaps c = some w ∧ w.lch = lch ∧ w.src = s.remap c lch ∧ w.dst = sp ∧ w.phase = .copying) ∧
            t.remap c lch = s.remap c lch)))) ∧
  (∀ (s : State) site ok r c, Tbl.find s.repairs site = some r → c = coreKey site r.core → r.core < 4 →
      (r.status ≠ .ok → Completes (.repairCmdDone site ok) s (fun t =>
        t.fld DRAM_REPAIR_STAT.BUSY site 0 = 0 ∧ t.fld DRAM_REPAIR_STAT.STATUS site 0 = r.status.code ∧
        Tbl.find t.repairs site = none ∧ Raised .DRAM_REPAIR site uCommon s t ∧
        SameBut [.regs, .freeCtr, .events, .repairs] s t)) ∧
      (r.status = .ok → r.op ≠ 6 → r.op ≠ 7 → s.fld DRAM_CH_STAT.RETRAINING c r.pch = 0 →
        Completes (.repairCmdDone site ok) s (fun t => t.fld DRAM_REPAIR_STAT.BUSY site 0 = 0 ∧ Tbl.find t.repairs site = none ∧
          t.fld DRAM_REPAIR_STAT.STATUS site 0 = (if (r.op = 2 ∨ r.op = 3) ∧ ok = false then 0x10 else 0) ∧
          AlsoRaised .DRAM_REPAIR site uCommon s t)) ∧
      (r.status = .ok → r.pch < 17 → s.fld DRAM_CH_STAT.RETRAINING c r.pch = 0 →
        (r.op = 4 → Completes (.repairCmdDone site ok) s (fun t =>
          t.fld DRAM_REPAIR_STAT.BUSY site 0 = 0 ∧ t.fld DRAM_REPAIR_STAT.STATUS site 0 = 0 ∧
          t.fld DRAM_REPAIR_STAT.SPARE_ROWS site 0 = (s.chan c r.pch).rowsLeft r.bank ∧
          t.fld DRAM_REPAIR_STAT.SPARE_COLS site 0 = (s.chan c r.pch).colsLeft r.bank ∧
          SameBut [.regs, .freeCtr, .events, .repairs] s t)) ∧
        (r.op = 0 → r.copy = false → r.bank < 16 → r.row < 2048 → Completes (.repairCmdDone site ok) s (fun t =>
          t.fld DRAM_REPAIR_STAT.STATUS site 0 = 0 ∧ (r.bank, r.row) ∈ (t.chan c r.pch).rowSoft ∧
          (∀ j, j < 64 → Tbl.find t.marks (dramByte c r.pch (chanByte r.bank r.row (32 * j))) = some .poison) ∧
          t.mem = s.mem)) ∧
        (r.op = 2 → Completes (.repairCmdDone site ok) s (fun t =>
          t.fld DRAM_REPAIR_STAT.STATUS site 0 = (if ok then 0 else 0x10) ∧
          (t.chan c r.pch).rowFuse = (s.chan c r.pch).rowFuse ++ (if ok then [(r.bank, r.row)] else []) ∧ t.mem = s.mem)) ∧
        (r.op = 3 → Completes (.repairCmdDone site ok) s (fun t =>
          t.fld DRAM_REPAIR_STAT.STATUS site 0 = (if ok then 0 else 0x10) ∧
          (t.chan c r.pch).colFuse = (s.chan c r.pch).colFuse ++ (if ok then [(r.bank, r.col)] else []) ∧ t.mem = s.mem)) ∧
        (r.op = 5 → Completes (.repairCmdDone site ok) s (fun t =>
          t.fld DRAM_REPAIR_STAT.STATUS site 0 = 0 ∧ (t.chan c r.pch).rowSoft = [] ∧ (t.chan c r.pch).colSoft = []))))

/-- R165, R166: a swap's copy leaves the target with the bytes of a source free of errors and no other byte changed; the remap
then moves the logical channel onto the target, the source is out of service, or the spare after a RETURN, and DRAM_SPARE_IN
tells; after a dead source every beat of the new channel becomes a poison marker. -/
def Obligations.SwapSteps : Prop :=
  (∀ (s : State) c w, Tbl.find s.swaps c = some w →
    (w.phase = .copying → s.fld DRAM_CH_STAT.RETRAINING c w.src = 0 → s.fld DRAM_CH_STAT.RETRAINING c w.dst = 0 →
      Completes (.swapCopyEnd c) s (fun t => ∃ n, n = (s.copyChannel c w.src w.dst).2 ∧
        Tbl.find t.swaps c = some { w with phase := .holding, poisoned := n })) ∧
    (w.phase = .holding ∨ w.phase = .deadRemap → Completes (.swapRemap c) s (fun t =>
      t = (((s.swapRemap c).deadNoSpare c).nextRetrain c).serveHeld)) ∧
    (w.phase = .filling → s.fld DRAM_CH_STAT.RETRAINING c w.dst = 0 → Completes (.sparePoisonFillEnd c) s (fun t =>
      t = ((s.fillEnd c).nextRetrain c).serveHeld ∧ Tbl.find (s.fillEnd c).swaps c = none))) ∧
  ∀ (s : State) c w, Tbl.find s.swaps c = some w → w.src < 17 → w.dst < 17 → w.src ≠ w.dst → w.lch < 16 →
    (w.phase = .copying → s.fld DRAM_CH_STAT.RETRAINING c w.src = 0 → s.fld DRAM_CH_STAT.RETRAINING c w.dst = 0 → (∀ m, Tbl.find s.marks (dramByte c w.src 0 + m) ≠ none → 2 ^ 26 ≤ m) → Tbl.sorted s.marks = true →
      Completes (.swapCopyEnd c) s (fun t =>
        (∀ j, j < 2 ^ 26 → memByte t.mem (dramByte c w.dst j) = memByte s.mem (dramByte c w.src j)) ∧
        MemBut (dramByte c w.dst 0) (2 ^ 26) s t ∧
        Tbl.find t.swaps c = some { w with phase := .holding, poisoned := 0 } ∧ SameBut [.mem, .marks, .swaps] s t)) ∧
    (s.held = [] → s.stalled = [] → (∀ p, p < 17 → (s.chan c p).due = false ∧ (s.chan c p).early = false) →
      (∀ k, k < 16 → s.fld DRAM_CH_STAT.ROLE c (s.remap c k) ≠ 5) →
      (w.phase = .holding → w.window = false → Completes (.swapRemap c) s (fun t => t.remap c w.lch = w.dst ∧
        t.fld DRAM_CH_STAT.ROLE c w.dst = 0 ∧ t.fld DRAM_CH_STAT.ROLE c w.src = (if w.isReturn then 1 else 4) ∧
        Tbl.find t.swaps c = none ∧ Raised .DRAM_SPARE_IN (siteOf c) (coreNo c) s t ∧ t.mem = s.mem ∧
        SameBut [.regs, .swaps, .freeCtr, .events] s t)) ∧
      (w.phase = .deadRemap → Completes (.swapRemap c) s (fun t => t.remap c w.lch = w.dst ∧
        Tbl.find t.swaps c = some { w with phase := .filling } ∧ SameBut [.regs, .swaps] s t)) ∧
      (w.phase = .filling → s.fld DRAM_CH_STAT.RETRAINING c w.dst = 0 → w.window = false → Completes (.sparePoisonFillEnd c) s (fun t =>
        (∀ j, j < 2 ^ 21 → Tbl.find t.marks (dramByte c w.dst 0 + 32 * j) = some .poison) ∧
        Tbl.find t.swaps c = none ∧ Raised .DRAM_SPARE_IN (siteOf c) (coreNo c) s t ∧
        SameBut [.regs, .mem, .marks, .swaps, .freeCtr, .events] s t)))

/-- R159-R161, R166, R167: a due retrain starts unless another of the core runs or the channel swaps; its end counts
it and tells whether the channel is degraded, with DRAM_RETRAIN_FAIL where it failed; a channel found dead that serves
a logical channel loses its contents, is swapped for the spare where there is one and AUTO_SWAP is set, and fences its
core where there is none. Corners are those of log 60. -/
def Obligations.Retraining : Prop :=
  ∀ (s : State) c p, p < 17 → c < 288 →
    (s.fld DRAM_CH_STAT.ROLE c p ≠ 5 → (s.anyRetrain c = false ∧ s.swapOf c p = none →
      Completes (.retrainDue c p) s (fun t => t.fld DRAM_CH_STAT.RETRAINING c p = 1 ∧ (t.chan c p).due = false ∧
        RegsBut [(.DRAM_CH_STAT, c, p)] s t ∧ SameBut [.regs, .chans] s t)) ∧
      (s.anyRetrain c = true ∨ s.swapOf c p ≠ none →
      Completes (.retrainDue c p) s (fun t => (t.chan c p).due = true ∧ SameBut [.chans] s t))) ∧
    (s.fld DRAM_CH_STAT.RETRAINING c p = 1 → ∀ ok, Completes (.retrainEnd c p ok) s (fun t =>
      t = ((((s.retrainEnd c p ok).repairStart (siteOf c)).nextRetrain c).serveHeld) ∧
      (s.retrainEnd c p ok).fld DRAM_CH_STAT.RETRAINING c p = 0 ∧
      (s.retrainEnd c p ok).fld DRAM_CH_STAT.RETRAINS c p = satAdd 8 (s.fld DRAM_CH_STAT.RETRAINS c p) 1)) ∧
    (s.fld DRAM_CH_STAT.ROLE c p ≠ 5 → Completes (.channelDeadDetect c p) s (fun t =>
      t = (if s.fld DRAM_CH_STAT.RETRAINING c p = 1 then ((s.channelDead c p).repairStart (siteOf c)).nextRetrain c
        else s.channelDead c p).serveHeld ∧
      ((∀ w, Tbl.find s.swaps c = some w → w.src ≠ w.dst) → (s.channelDead c p).fld DRAM_CH_STAT.ROLE c p = 5))) ∧
    (s.fld DRAM_CH_STAT.RETRAINING c p = 1 → s.held = [] → s.stalled = [] → Tbl.find s.repairs (siteOf c) = none →
      (∀ k, k < 17 → (s.chan c k).due = false ∧ (s.chan c k).early = false) →
      (Completes (.retrainEnd c p true) s (fun t => t.fld DRAM_CH_STAT.RETRAINING c p = 0 ∧
        t.fld DRAM_CH_STAT.DEGRADED c p = 0 ∧ t.fld DRAM_CH_STAT.WORST_GROUP c p = 0x7F ∧
        t.fld DRAM_CH_STAT.RETRAINS c p = satAdd 8 (s.fld DRAM_CH_STAT.RETRAINS c p) 1 ∧ (t.chan c p).groups = [] ∧
        RegsBut [(.DRAM_CH_STAT, c, p)] s t ∧ SameBut [.regs, .chans] s t)) ∧
      (s.fld DRAM_CFG.AUTO_SWAP (siteOf c) 0 = 0 → Completes (.retrainEnd c p false) s (fun t =>
        t.fld DRAM_CH_STAT.RETRAINING c p = 0 ∧ t.fld DRAM_CH_STAT.DEGRADED c p = 1 ∧
        t.fld DRAM_CH_STAT.RT_FAILS c p = satAdd 4 (s.fld DRAM_CH_STAT.RT_FAILS c p) 1 ∧
        Raised .DRAM_RETRAIN_FAIL (siteOf c) (coreNo c) s t ∧ SameBut [.regs, .chans, .freeCtr, .events] s t))) ∧
    (∀ k, s.fld DRAM_CH_STAT.ROLE c p ≠ 5 → s.lchOf c p = some k → Tbl.find s.swaps c = none → s.held = [] →
      s.stalled = [] → s.fld DRAM_CH_STAT.RETRAINING c p = 0 →
      (∀ sp, s.spareOf c = some sp → sp ≠ p → s.fld DRAM_CFG.AUTO_SWAP (siteOf c) 0 = 1 →
        Completes (.channelDeadDetect c p) s (fun t => t.fld DRAM_CH_STAT.ROLE c p = 5 ∧ t.fld DRAM_CH_STAT.ROLE c sp = 3 ∧
          (∃ w, Tbl.find t.swaps c = some w ∧ w.lch = k ∧ w.src = p ∧ w.dst = sp ∧ w.phase = .deadRemap) ∧
          t.lchDead c k = true ∧ 16 * c + k ∈ t.lost)) ∧
      (s.spareOf c = none → Completes (.channelDeadDetect c p) s (fun t => t.fld DRAM_CH_STAT.ROLE c p = 5 ∧
        t.fld (RESET_STAT.CORE_CAUSE (coreNo c)) (siteOf c) 0 ≠ 0 ∧ 16 * c + k ∈ t.lost)))

/-! ## Fullers (09) -/

/-- R182, R183, R185, R186: a write of a fuller's IMEM or DMEM that passes R26 is stored while the fuller is STOPPED, clears
LOAD_DONE where it falls in the program region, and is answered OK; while the fuller runs it does nothing and is answered
STATE_CONFLICT, and in the microcode region, for any agent but the Hatband, AUTH; a write that fails R26 is answered with that
check's status. LOAD_DONE's check accepts a header with the magic, a level in force and the CRC of the program, and
refuses another with its status; a STOP ends the run ABORTED; a watchdog expiry is counted, and a fuller that has not stopped
is fenced. -/
def Obligations.FullerControl : Prop :=
  ∀ (s : State) c n, n < 34 → c < 288 →
    (∀ a l off size v, s.ltileOf (siteOf c) = some l → off + size ≤ 0x6000 → (size = 4 ∨ size = 8) →
      ∀ x, s.checkReq .write a (coreDa l c (0x100000 + 0x6000 * n + off)) size = x →
      (x = .pass → s.fulShown c n = 0 → (0x2000 ≤ off ∨ a = .hatband) → Completes (.fullerMemWrite a c n off size v) s (fun t =>
        memBytes t.mem (fulByte c n off) size = leBytes size v.toNat ∧ MemBut (fulByte c n off) size s t ∧
        (0x2000 ≤ off → off < 0x4000 → t.fld FUL_CTL.LOAD_DONE c n = 0) ∧
        t.mesh.answered = ⟨a, 0, .ok, size, []⟩ :: s.mesh.answered ∧
        RegsBut [(.FUL_CTL, c, n)] s t ∧ SameBut [.mem, .regs, .mesh] s t)) ∧
      (x = .pass → (s.fulShown c n ≠ 0 ∨ (off < 0x2000 ∧ a ≠ .hatband)) →
        Completes (.fullerMemWrite a c n off size v) s (fun t => t.mesh.answered =
          ⟨a, 0, if off < 0x2000 ∧ a ≠ .hatband then .auth else .stateConflict, size, []⟩ :: s.mesh.answered ∧
          SameBut [.mesh] s t)) ∧
      (x ≠ .pass → Completes (.fullerMemWrite a c n off size v) s (fun t =>
        t.mesh.answered.head? = some ⟨a, 0, x.status, size, []⟩ ∧ t.mem = s.mem ∧ t.marks = s.marks ∧
        t.fld FUL_CTL.LOAD_DONE c n = s.fld FUL_CTL.LOAD_DONE c n))) ∧
    (∀ b len lvl hv good, b = memBytes s.mem (fulByte c n 0x2000) 0x2000 → len = leNat ((b.drop 8).take 4) →
      lvl = leNat ((b.drop 4).take 1) →
      hv = (match s.ptOfSite (siteOf c) with
        | some p => Tbl.at s.levels p 0
        | none => 0) →
      good = decide (leNat ((b.drop 0).take 4) = 0x4B4C4650 ∧ leNat ((b.drop 5).take 3) = 0 ∧ 16 + len ≤ 0x2000 ∧
        leNat ((b.drop 12).take 4) = crc32c ((b.drop 16).take len)) →
      (lvl ≤ hv → good = true →
        Completes (.loadDone c n) s (fun t => t.fld FUL_CTL.LOAD_DONE c n = 1 ∧ t.fld FUL_STAT.LAST_STATUS c n = 0 ∧
          RegsBut [(.FUL_CTL, c, n), (.FUL_STAT, c, n)] s t ∧ SameBut [.regs] s t)) ∧
      (lvl ≤ hv → good = false →
        Completes (.loadDone c n) s (fun t => t.fld FUL_CTL.LOAD_DONE c n = 0 ∧
          t.fld FUL_STAT.LAST_STATUS c n = 0x0D ∧ RegsBut [(.FUL_CTL, c, n), (.FUL_STAT, c, n)] s t ∧ SameBut [.regs] s t)) ∧
      (hv < lvl → Completes (.loadDone c n) s (fun t => t.fld FUL_CTL.LOAD_DONE c n = 0 ∧
        t.fld FUL_STAT.LAST_STATUS c n = 0x0F ∧ Raised .FULLER_LOAD_REFUSED (siteOf c) (coreNo c) s t ∧
        SameBut [.regs, .freeCtr, .events] s t))) ∧
    ((s.fld FUL_STAT.STATE c n = 1 ∨ s.fld FUL_STAT.STATE c n = 2) →
      Completes (.fullerStop c n) s (fun t => t.fld FUL_STAT.STATE c n = 0 ∧ t.fld FUL_STAT.LAST_STATUS c n = 0x02 ∧
        t.fld FUL_STAT.PC c n = (s.ful c n).pc % 2 ^ 14 ∧ RegsBut [(.FUL_STAT, c, n)] s t ∧
        SameBut [.regs, .fullers, .cores] s t) ∧
      ((s.ful c n).hung = false → Completes (.fullerWdogExpiry c n) s (fun t =>
        t.fld FUL_STAT.HANGS c n = satAdd 16 (s.fld FUL_STAT.HANGS c n) 1 ∧
        Raised .FULLER_HANG (siteOf c) (coreNo c) s t ∧
        ((t.fld FUL_STAT.STATE c n = 0 ∧ t.fld FUL_STAT.LAST_STATUS c n = 0x02) ∨ (t.ful c n).hung = true) ∧
        SameBut [.regs, .fullers, .cores, .freeCtr, .events] s t)) ∧
      ((s.ful c n).hung = true → Completes (.fullerFenceTimeout c n) s (fun t =>
        t.fld FUL_STAT.FENCED c n = 1 ∧ t.fld FUL_STAT.STATE c n = 0 ∧ (t.ful c n).hung = false ∧
        Raised .FULLER_FENCED (siteOf c) (coreNo c) s t ∧ SameBut [.regs, .fullers, .cores, .freeCtr, .events] s t)))

/-- R176, R178, R181: the bank and SRAM transfers of a running fuller. BRD of clean beats copies them into DMEM and answers 0;
of a poisoned beat it marks the DMEM beat and answers 1; BWR writes clean DMEM beats to the banks, and a marker for a poisoned
one; SXF moves 64-byte words between clean SRAM and DMEM; a BRD that would cross the end of its row traps with cause 3. Each
that retires moves the pc past the instruction and changes nothing but what it names. Each completes on any operands while its
channel is not held (R106, R160): a whole burst, or the trap R177 gives. -/
def Obligations.FullerTransfers : Prop :=
  ∀ (s : State) c n w k ba off, s.fulActive c n = true → s.fulFetch c n = some (w, 4) → n < 34 → c < 288 → k = rvF7 w % 64 + 1 →
    (fulOpOf w 4 = .brd → s.burstHeld c n = false → Completes (.flkBrd c n) s (fun t =>
      t = s.burst c n w (fun u ba off k => u.brdBeats c n ba off k))) ∧
    (fulOpOf w 4 = .bwr → s.burstHeld c n = false → Completes (.flkBwr c n) s (fun t =>
      t = s.burst c n w (fun u ba off k => u.bwrBeats c n ba off k))) ∧
    (fulOpOf w 4 = .sxf → Completes (.flkSxf c n) s (fun t => t = s.sxf c n w)) ∧
    ((s.ful c n).reg (rvRs2 w) = 0x10000 + off → off % 32 = 0 →
    (fulOpOf w 4 = .brd → s.burstHeld c n = false → (s.ful c n).reg (rvRs1 w) = ba → ba < 2 ^ 20 → off + 32 * k ≤ 0x2000 →
      (ba % 64 + k ≤ 64 → (∀ j, j < k → Tbl.find s.marks (dramByte c (n / 2) (baByte n (ba + j))) = none) →
        Completes (.flkBrd c n) s (fun t =>
          (∀ j, j < 32 * k → memByte t.mem (fulByte c n (0x4000 + off + j)) =
            memByte s.mem (dramByte c (n / 2) (baByte n ba + j))) ∧
          MemBut (fulByte c n (0x4000 + off)) (32 * k) s t ∧ (t.ful c n).pc = ((s.ful c n).pc + 4) % 2 ^ 32 ∧
          (∀ i, (t.ful c n).reg i = if i = rvRd w then 0 else (s.ful c n).reg i) ∧
          SameBut [.mem, .marks, .fullers] s t)) ∧
      (k = 1 → Tbl.find s.marks (dramByte c (n / 2) (baByte n ba)) = some .poison → rvRd w ≠ 0 →
        Completes (.flkBrd c n) s (fun t => t.dmemPoisoned c n (0x4000 + off) = true ∧ (t.ful c n).reg (rvRd w) = 1 ∧
          MemBut (fulByte c n (0x4000 + off)) 32 s t)) ∧
      (64 < ba % 64 + k → Completes (.flkBrd c n) s (fun t => t.fld FUL_STAT.STATE c n = 0 ∧
        t.fld FUL_STAT.LAST_STATUS c n = 0x0D ∧ t.fld FUL_STAT.CAUSE c n = 3 ∧ t.mem = s.mem ∧ t.marks = s.marks))) ∧
    (fulOpOf w 4 = .bwr → s.burstHeld c n = false → (s.ful c n).reg (rvRs1 w) = ba → ba < 2 ^ 20 → off + 32 * k ≤ 0x2000 →
      ba % 64 + k ≤ 64 →
      ((∀ j, j < k → s.dmemPoisoned c n (0x4000 + off + 32 * j) = false) → Completes (.flkBwr c n) s (fun t =>
        (∀ j, j < 32 * k → memByte t.mem (dramByte c (n / 2) (baByte n ba + j)) =
          memByte s.mem (fulByte c n (0x4000 + off + j))) ∧
        MemBut (dramByte c (n / 2) (baByte n ba)) (32 * k) s t ∧ (t.ful c n).pc = ((s.ful c n).pc + 4) % 2 ^ 32 ∧
        (∀ i, (t.ful c n).reg i = if i = rvRd w then 0 else (s.ful c n).reg i) ∧ SameBut [.mem, .marks, .fullers] s t)) ∧
      (k = 1 → s.dmemPoisoned c n (0x4000 + off) = true → rvRd w ≠ 0 → Completes (.flkBwr c n) s (fun t =>
        Tbl.find t.marks (dramByte c (n / 2) (baByte n ba)) = some .poison ∧ (t.ful c n).reg (rvRd w) = 1 ∧
        t.fld FUL_STAT.POISONED c n = 1 ∧ t.mem = s.mem))) ∧
    (∀ so, fulOpOf w 4 = .sxf → (s.ful c n).reg (rvRs1 w) = so → so % 64 = 0 → so + 64 * k ≤ 2 ^ 23 → off % 64 = 0 →
      off + 64 * k ≤ 0x2000 →
      (rvF7 w < 64 → s.lanesClean c so (64 * k) → Completes (.flkSxf c n) s (fun t =>
        (∀ j, j < 64 * k → memByte t.mem (fulByte c n (0x4000 + off + j)) = memByte s.mem (sramByte c (so + j))) ∧
        MemBut (fulByte c n (0x4000 + off)) (64 * k) s t ∧ (t.ful c n).pc = ((s.ful c n).pc + 4) % 2 ^ 32 ∧
        (∀ i, (t.ful c n).reg i = (s.ful c n).reg i) ∧ SameBut [.mem, .marks, .fullers] s t)) ∧
      (64 ≤ rvF7 w → (∀ j, j < 2 * k → s.dmemPoisoned c n (0x4000 + off + 32 * j) = false) →
        Completes (.flkSxf c n) s (fun t =>
        (∀ j, j < 64 * k → memByte t.mem (sramByte c (so + j)) = memByte s.mem (fulByte c n (0x4000 + off + j))) ∧
        MemBut (sramByte c so) (64 * k) s t ∧ (t.ful c n).pc = ((s.ful c n).pc + 4) % 2 ^ 32 ∧
        (∀ i, (t.ful c n).reg i = (s.ful c n).reg i) ∧ SameBut [.mem, .marks, .fullers] s t))))

/-- R173, R175-R177, R181, R185, R202: the other instructions of a running fuller, each with its result, the pc moved
past it and nothing else changed: WLD and WST between DMEM and W with the poison flag, WOP lane by lane (XOR, AND, OR,
ADD.I32, MOV), CRC, MAP by R175, FENCE, PET, IRQ into MIL.FUL_IRQ, MBOX, PTST; DONE stops the fuller with its code; a
base instruction writes its register, and an ecall or an illegal one stops the fuller with its cause. WLD, WST, WOP, MAP and
the base instructions complete on any operands: with their effect, or with the trap R177 gives. The meanings of
the base instructions are PRESUMED from the RISC-V standard (log 18). -/
def Obligations.FullerInstructions : Prop :=
  ∀ (s : State) c n w len f, s.fulActive c n = true → s.fulFetch c n = some (w, len) → n < 34 → c < 288 → f = s.ful c n →
    (fulOpOf w len = .wld → Completes (.flkWld c n) s (fun t => t = s.wld c n w)) ∧
    (fulOpOf w len = .wst → Completes (.flkWst c n) s (fun t => t = s.wst c n w)) ∧
    (fulOpOf w len = .wop → Completes (.flkWop c n) s (fun t => t = s.wop c n w)) ∧
    (fulOpOf w len = .map → Completes (.flkMap c n) s (fun t => t = s.flkMap c n w)) ∧
    (fulOpOf w len = .base → Completes (.fullerBaseInstr c n) s (fun t => t = s.fulBase c n w len)) ∧
    (∀ off, fulOpOf w len = .wld → f.reg (rvRs1 w) = 0x10000 + off → off % 32 = 0 → off < 0x2000 →
      Completes (.flkWld c n) s (fun t =>
        (t.ful c n).wide (rvRd w) = leNat (memBytes s.mem (fulByte c n (0x4000 + off)) 32) ∧
        ((t.ful c n).wPoison.contains (rvRd w) = s.dmemPoisoned c n (0x4000 + off)) ∧
        (t.ful c n).x = f.x ∧ (t.ful c n).pc = (f.pc + 4) % 2 ^ 32 ∧ SameBut [.fullers] s t)) ∧
    (∀ off, fulOpOf w len = .wst → f.reg (rvRs1 w) = 0x10000 + off → off % 32 = 0 → off < 0x2000 →
      Completes (.flkWst c n) s (fun t =>
        memBytes t.mem (fulByte c n (0x4000 + off)) 32 = leBytes 32 (f.wide (rvRs2 w)) ∧
        t.dmemPoisoned c n (0x4000 + off) = f.wPoison.contains (rvRs2 w) ∧ MemBut (fulByte c n (0x4000 + off)) 32 s t ∧
        (t.ful c n).w = f.w ∧ (t.ful c n).pc = (f.pc + 4) % 2 ^ 32 ∧ SameBut [.fullers, .mem, .marks] s t)) ∧
    (∀ g : Nat → Nat → Nat, fulOpOf w len = .wop →
      (rvF7 w, g) ∈ [(0, fun a b => (a + b) % 2 ^ 32), (2, fun a b => a ^^^ b), (3, fun a b => a &&& b), (4, fun a b => a ||| b),
        (9, fun a _ => a)] →
      Completes (.flkWop c n) s (fun t =>
        (∀ i, i < 8 → bitsOf ((t.ful c n).wide (rvRd w)) (32 * i + 31) (32 * i) =
          g (bitsOf (f.wide (rvRs1 w)) (32 * i + 31) (32 * i)) (bitsOf (f.wide (rvRs2 w)) (32 * i + 31) (32 * i))) ∧
        (f.wPoison.contains (rvRs1 w) = true → (t.ful c n).wPoison.contains (rvRd w) = true) ∧
        (t.ful c n).x = f.x ∧ (t.ful c n).pc = (f.pc + 4) % 2 ^ 32 ∧ SameBut [.fullers, .freeCtr] s t)) ∧
    (fulOpOf w len = .crc → Completes (.flkCrc c n) s (fun t =>
      (t.ful c n) = { f.setX (rvRd w) ((leBytes 32 (f.wide (rvRs2 w))).foldl crcByte (f.reg (rvRs1 w))) with
        pc := (f.pc + 4) % 2 ^ 32, retired := (f.retired + 1) % 2 ^ 64 } ∧ SameBut [.fullers] s t)) ∧
    (∀ o m, fulOpOf w len = .map → f.reg (rvRs1 w) = o → o < 2 ^ 30 → rvRd w ≠ 0 → m = 2 * s.remap c (sliceLch o) + sliceBank o / 8 →
      Completes (.flkMap c n) s (fun t =>
        bitsOf ((t.ful c n).reg (rvRd w)) 19 0 = sliceBank o % 8 * 2 ^ 17 + sliceRow o * 2 ^ 6 + sliceCol o / 32 ∧
        bitsOf ((t.ful c n).reg (rvRd w)) 25 20 = m ∧ bitsOf ((t.ful c n).reg (rvRd w)) 31 31 = (if m = n then 1 else 0) ∧
        (t.ful c n).pc = (f.pc + 4) % 2 ^ 32 ∧ SameBut [.fullers] s t)) ∧
    (∀ cmd sub, (cmd, sub) ∈ [(Instr.flkSysFence c n, 0), (.flkSysPet c n, 2)] → fulOpOf w len = .sys sub →
      Completes cmd s (fun t => t.ful c n = { f with pc := (f.pc + 4) % 2 ^ 32, retired := (f.retired + 1) % 2 ^ 64 } ∧
        SameBut [.fullers] s t)) ∧
    (fulOpOf w len = .sys 1 → Completes (.flkSysDone c n) s (fun t => t.fld FUL_STAT.STATE c n = 0 ∧
      (f.reg (rvRs1 w) % 256 = 0 → t.fld FUL_STAT.LAST_STATUS c n = if s.fld FUL_STAT.POISONED c n = 1 then 0x11 else 0) ∧
      (f.reg (rvRs1 w) % 256 = 0x7F → t.fld FUL_STAT.LAST_STATUS c n = 0x02) ∧ t.fld FUL_STAT.CAUSE c n = 0 ∧
      t.fld FUL_STAT.PC c n = f.pc % 2 ^ 14 ∧ t.mem = s.mem ∧ RegsBut [(.FUL_STAT, c, n)] s t)) ∧
    (fulOpOf w len = .sys 3 → (s.mil (siteOf c)).fulIrq.length < 32 → Completes (.flkSysIrq c n) s (fun t =>
      (t.mil (siteOf c)).fulIrq = (s.mil (siteOf c)).fulIrq ++ [(coreNo c, n, f.reg (rvRs1 w))] ∧
      ((s.mil (siteOf c)).fulIrq.any (fun e => e.1 == coreNo c) = false →
        Tbl.find (s.mil (siteOf c)).targets (5 + coreNo c) = none → (5 + coreNo c) ∈ (t.mil (siteOf c)).aplic) ∧
      t.ful c n = { f with pc := (f.pc + 4) % 2 ^ 32, retired := (f.retired + 1) % 2 ^ 64 } ∧
      SameBut [.fullers, .mils] s t)) ∧
    (fulOpOf w len = .sys 4 → Completes (.flkSysMbox c n) s (fun t => t.fld FUL_CTL.MBOX_V c n = 0 ∧
      (t.ful c n) = { f.setX (rvRd w) (if s.fld FUL_CTL.MBOX_V c n = 1 then s.fld FUL_CTL.MBOX c n else 0) with
        pc := (f.pc + 4) % 2 ^ 32, retired := (f.retired + 1) % 2 ^ 64 } ∧ SameBut [.fullers, .regs] s t)) ∧
    (fulOpOf w len = .sys 5 → Completes (.flkSysPtst c n) s (fun t =>
      (t.ful c n) = { f.setX (rvRd w) (if f.wPoison.contains (rvRs1 w) then 1 else 0) with
        pc := (f.pc + 4) % 2 ^ 32, retired := (f.retired + 1) % 2 ^ 64 } ∧ SameBut [.fullers] s t)) ∧
    (fulOpOf w len = .base → len = 4 →
      (∀ rd v, rvBase 32 16 f.reg f.pc 4 w = .write rd v → Completes (.fullerBaseInstr c n) s (fun t =>
        (t.ful c n) = { f.setX rd v with pc := (f.pc + 4) % 2 ^ 32, retired := (f.retired + 1) % 2 ^ 64 } ∧
        SameBut [.fullers] s t)) ∧
      (∀ a k v, rvBase 32 16 f.reg f.pc 4 w = .store a k v → a % k = 0 → 0x10000 ≤ a → a + k ≤ 0x12000 →
        Completes (.fullerBaseInstr c n) s (fun t =>
          memBytes t.mem (fulByte c n (a - 0x10000 + 0x4000)) k = leBytes k v ∧
          MemBut (fulByte c n (a - 0x10000 + 0x4000)) k s t ∧ SameBut [.fullers, .mem] s t)) ∧
      ((w = 0x73 ∨ w = 0x100073) → Completes (.fullerBaseInstr c n) s (fun t => t.fld FUL_STAT.STATE c n = 0 ∧
        t.fld FUL_STAT.LAST_STATUS c n = 0x0D ∧ t.fld FUL_STAT.CAUSE c n = 5 ∧ t.mem = s.mem)))

/-- R184, R189, R190: FGO of stopped fullers that may start puts them at ENTRY with ARG in a0, and waits for them; a bank-view
run of one clean beat fills it with its pattern, finds it equal in a CHECK, gathers it into SRAM, or folds it by XOR, and
leaves its result record; the fuller then stands stopped. FGO issues whatever its operands once its wait is satisfied and fewer
than eight moves run (R103), and a run of any descriptor of its mode is carried through while its channel is not held and, for
FILL and CHECK, fewer than nine lower channels still run (R191). -/
def Obligations.GatherReduce : Prop :=
  (∀ (s u : State) c f, s.issues c 3 4 3 f u → s.moveRoom c = true →
    Completes (.fgo c) s (fun t => t = (u.fgoAct c f).queueSettle c 3)) ∧
  (∀ (s : State) c n g, (s.ful c n).gr = some g → s.fld FUL_STAT.STATE c n = 2 → (s.ful c n).hung = false →
    s.burstHeld c n = false → (2 ≤ grMode g.desc → s.grAhead c n < 9) →
    ∀ cmd md, (md, cmd) ∈ [(0, Instr.grGather c n), (1, .grReduce c n), (2, .grFill c n), (3, .grCheck c n)] →
    grMode g.desc = md → Completes cmd s (fun t => t = s.grRun c n g)) ∧
  (∀ (s : State) c f ns, s.atHead c 3 4 3 f → s.moveRoom c = true → ns = maskBits 34 (cmdBits f.word 65 32) → ns ≠ [] →
    cmdBits f.word 79 66 % 2 = 0 → (s.advanceHead c 3).fgoCheck c (cmdBits f.word 79 66) ns = .ok →
    Completes (.fgo c) s (fun t => s.issued c 3 t ∧
      (∀ n, n ∈ ns → t.fld FUL_STAT.STATE c n = 1 ∧ (t.ful c n).pc = cmdBits f.word 79 66 ∧
        (t.ful c n).reg 10 = cmdBits f.word 111 80 ∧ (t.ful c n).reg 1 = 0) ∧
      (∃ y, y ∈ (t.queue c 3).inflight ∧ y.index = f.index ∧ y.wait = ns ∧ y.status = .ok) ∧ t.mem = s.mem)) ∧
  (∀ (s : State) c n g d ba, n < 34 → c < 288 → (s.ful c n).gr = some g → s.fld FUL_STAT.STATE c n = 2 → (s.ful c n).hung = false →
    s.burstHeld c n = false → s.grAhead c n < 9 → d = g.desc → g.mgmt = false → grBank d = true → grIdxNone d = true →
    grRows d = 1 → grRowBeats d = 1 → grBase d = 32 * ba → ba < 2 ^ 20 → s.fld FUL_STAT.FENCED c (n ^^^ 1) = 0 →
    s.fld FUL_STAT.FENCED c n = 0 → grRes d % 64 = 0 → grRes d + 64 * g.rank + 64 ≤ 2 ^ 23 →
    Tbl.find s.marks (dramByte c (n / 2) (baByte n ba)) = none →
    ∀ beat, beat = memBytes s.mem (dramByte c (n / 2) (baByte n ba)) 32 →
    (grMode d = 2 → Completes (.grFill c n) s (fun t => t.fld FUL_STAT.STATE c n = 0 ∧ t.fld FUL_STAT.LAST_STATUS c n = 0 ∧
      memBytes t.mem (dramByte c (n / 2) (baByte n ba)) 32 = grFillBytes d ba 0 ∧
      memBytes t.mem (sramByte c (grRes d + 64 * g.rank + 32)) 4 = leBytes 4 1)) ∧
    (grMode d = 3 → beat = grFillBytes d ba 0 → Completes (.grCheck c n) s (fun t => t.fld FUL_STAT.STATE c n = 0 ∧
      t.fld FUL_STAT.LAST_STATUS c n = 0 ∧ memBytes t.mem (sramByte c (grRes d + 64 * g.rank + 36)) 4 = leBytes 4 0)) ∧
    (grMode d = 3 → beat ≠ grFillBytes d ba 0 → Completes (.grCheck c n) s (fun t => t.fld FUL_STAT.STATE c n = 0 ∧
      t.fld FUL_STAT.LAST_STATUS c n = 0x02 ∧ memBytes t.mem (sramByte c (grRes d + 64 * g.rank + 36)) 4 = leBytes 4 1 ∧
      memBytes t.mem (sramByte c (grRes d + 64 * g.rank + 40)) 4 = leBytes 4 ba ∧
      Raised .GR_CHECK_FAIL (siteOf c) (coreNo c) s t)) ∧
    (grMode d = 0 → s.lanesClean c (grDst d) 32 → grDst d % 64 = 0 → grDst d + 32 ≤ 2 ^ 23 →
      (grDst d + 32 ≤ grRes d + 64 * g.rank ∨ grRes d + 64 * g.rank + 64 ≤ grDst d) →
      Completes (.grGather c n) s (fun t => t.fld FUL_STAT.STATE c n = 0 ∧ t.fld FUL_STAT.LAST_STATUS c n = 0 ∧
        memBytes t.mem (sramByte c (grDst d)) 32 = beat)) ∧
    (grMode d = 1 → grRed d = 2 → Completes (.grReduce c n) s (fun t => t.fld FUL_STAT.STATE c n = 0 ∧
      t.fld FUL_STAT.LAST_STATUS c n = 0 ∧ memBytes t.mem (sramByte c (grRes d + 64 * g.rank)) 32 = beat)))

/-! ## Milliners (10) -/

/-- R12, R195, R196, R198, R199: the memory instructions of a running hart. An access whose line or target is not ready waits.
Otherwise a load, store or AMO goes through the cache, uncached or as I/O, by its region and page, and retires with what it
read; in SRAM a load reads the bytes, a store writes
them, an AMO does both at the bank; a line held and not poisoned serves a load and takes a store without touching
memory; a refused load is recorded in MIL.ERR_INFO and traps; a store that fails retires, and the next FENCE that
orders it, to memory by W and to I/O by O, traps; LR in SRAM and a fetch outside cacheable or NC DRAM trap; SC without its
reservation stores nothing and answers 1. Corners the tables leave are those of logs 18, 19, 25 and 26. -/
def Obligations.MillinerMemory : Prop :=
  ∀ (s : State) site m a, m = s.mil site → m.running = true → a = Agent.milliner site →
    (∀ rd pa size sg p e, (s.milWaits site .read pa size (milPath pa p) = true →
        Completes (.milLoad site rd pa size sg p e) s (fun t => t = s)) ∧
      (s.milWaits site .read pa size (milPath pa p) = false →
      (2 ^ 40 ≤ pa → Completes (.milLoad site rd pa size sg p e) s (fun t =>
        t.mil site = m.trap 5 (BitVec.ofNat 64 pa) ∧ SameBut [.mils] s t)) ∧
      (∀ g : Got, pa < 2 ^ 40 →
        ((milPath pa p = .cached ∧ g = (s.meetErr site (pa / 64) e).cacheRead site (lineParts pa size)) ∨
          (milPath pa p = .plain ∧ g = s.daRead a pa size) ∨
          (milPath pa p = .io ∧ pa % size = 0 ∧
            (pa < 2 ^ 39 ∨ shapeOk s.hb.active .read (s.decodeDa pa) pa size = true ∨ s.decodeDa pa = .unmapped) ∧
            g = s.busRead a pa size)) →
        (g.status = .ok → Completes (.milLoad site rd pa size sg p e) s (fun t =>
          t = g.st.milWrite site rd (loadValue g.data size sg))) ∧
        (g.status ≠ .ok → Completes (.milLoad site rd pa size sg p e) s (fun t =>
          t = (g.st.errInfo site g.status 0 pa).milTrap site 5 pa))) ∧
      (∀ c off, size ∈ [1, 2, 4, 8] → pa % 256 + size ≤ 256 → s.decodeDa pa = .sram c off → bitsOf pa 39 38 = 1 →
        (s.checkReq .read a pa size = .pass → s.lanesClean c off size →
          Completes (.milLoad site rd pa size sg p e) s (fun t =>
            t.mil site = (m.setX rd (loadValue (memBytes s.mem (sramByte c off) size) size sg)).after ∧
            SameBut [.mils] s t)) ∧
        (s.checkReq .read a pa size ≠ .pass → Completes (.milLoad site rd pa size sg p e) s (fun t =>
            t.fld MIL_ERR_INFO.STATUS site 0 = (s.checkReq .read a pa size).status.code ∧
            t.fld MIL_ERR_INFO.KIND site 0 = 0 ∧ t.fld MIL_ERR_INFO.DA site 0 = pa ∧
            (t.mil site).pc = (m.trap 5 (BitVec.ofNat 64 pa)).pc ∧ (t.mil site).x = m.x ∧ t.mem = s.mem))) ∧
      (∀ l, pa < 2 ^ 38 → pa % 64 + size ≤ 64 → p = .pma → e = .none → Tbl.find m.dcache (pa / 64) = some l →
        l.poisoned = false → Completes (.milLoad site rd pa size sg p e) s (fun t =>
          t.mil site = (m.setX rd (loadValue ((l.bytes.drop (pa % 64)).take size) size sg)).after ∧ SameBut [.mils] s t)))) ∧
    (∀ pa size v p, (s.milWaits site .write pa size (milPath pa p.pbmt) = true →
        Completes (.milStore site pa size v p) s (fun t => t = s)) ∧
      (s.milWaits site .write pa size (milPath pa p.pbmt) = false →
      (∀ q : Put, pa < 2 ^ 40 →
        ((milPath pa p.pbmt = .cached ∧
            q = (s.meetErr site (pa / 64) p.err).cacheWrite site (leBytes size v.toNat) (lineParts pa size)) ∨
          (milPath pa p.pbmt = .plain ∧ q = s.daWrite a pa (leBytes size v.toNat)) ∨
          (milPath pa p.pbmt = .io ∧ pa % size = 0 ∧
            (pa < 2 ^ 39 ∨ shapeOk s.hb.active .write (s.decodeDa pa) pa size = true ∨ s.decodeDa pa = .unmapped) ∧
            q = s.busWrite a pa (leBytes size v.toNat))) →
        (q.status = .ok → Completes (.milStore site pa size v p) s (fun t => t = q.st.milNext site)) ∧
        (q.status ≠ .ok → Completes (.milStore site pa size v p) s (fun t =>
          t = (q.st.storeFail site q.status pa (milPath pa p.pbmt == .io)).milNext site))) ∧
      (∀ c off, size ∈ [1, 2, 4, 8] → pa % 256 + size ≤ 256 → s.decodeDa pa = .sram c off → bitsOf pa 39 38 = 1 →
        pa < 2 ^ 40 → s.checkReq .write a pa size = .pass → s.lanesClean c off size →
        Completes (.milStore site pa size v p) s (fun t => t.mil site = m.after ∧
          memBytes t.mem (sramByte c off) size = leBytes size v.toNat ∧ MemBut (sramByte c off) size s t ∧
          SameBut [.mils, .mem] s t)) ∧
      (size ∈ [1, 2, 4, 8] → pa % 256 + size ≤ 256 → bitsOf pa 39 38 = 1 → pa < 2 ^ 40 → m.storeFault = none →
        s.checkReq .write a pa size ≠ .pass → Completes (.milStore site pa size v p) s (fun t =>
          (t.mil site).pc = m.pc + 4 ∧
          (t.mil site).storeFault = some ((s.checkReq .write a pa size).status, pa) ∧ t.mem = s.mem)) ∧
      (∀ l, pa < 2 ^ 38 → pa % 64 + size ≤ 64 → size ∈ [1, 2, 4, 8] → p.pbmt = .pma → p.err = .none →
        Tbl.find m.dcache (pa / 64) = some l →
        l.poisoned = false → Completes (.milStore site pa size v p) s (fun t => (t.mil site).pc = m.pc + 4 ∧
          Tbl.find (t.mil site).dcache (pa / 64) =
            some { l with bytes := mergeBytes l.bytes (pa % 64) (leBytes size v.toNat), dirty := true } ∧
          SameBut [.mils] s t)))) ∧
    (∀ rd pa size x p, s.milWaits site .read pa size (milPath pa p.pbmt) = false →
        s.milWaits site .write pa size (milPath pa p.pbmt) = false → s.milWaits site .atomic pa size (milPath pa p.pbmt) = false →
      (∀ op (g : Got), pa < 2 ^ 40 → size ≠ 0 → pa % size = 0 → milPath pa p.pbmt = .plain → g = s.daAtomic a pa op size x.toNat →
        g.status = .ok → Completes (.milAmo site rd (.amo op) pa size x p) s (fun t =>
          t = g.st.milWrite site rd (amoOld size (leNat g.data)))) ∧
      (∀ op (g : Got), pa < 2 ^ 40 → size ≠ 0 → pa % size = 0 → milPath pa p.pbmt = .cached →
        g = (s.meetErr site (pa / 64) p.err).cacheRead site (lineParts pa size) →
        g.status = .ok → Completes (.milAmo site rd (.amo op) pa size x p) s (fun t =>
          t = (g.st.cacheWrite site (leBytes size (amoValue op size (leNat g.data) x.toNat).1) (lineParts pa size)).st.milWrite
            site rd (amoOld size (leNat g.data)))) ∧
      (∀ op c off, size = 4 ∨ size = 8 → pa % size = 0 → s.decodeDa pa = .sram c off → bitsOf pa 39 38 = 1 → pa < 2 ^ 40 →
        op ≠ .semAdd → s.checkReq .atomic a pa size = .pass → s.lanesClean c off size →
        Completes (.milAmo site rd (.amo op) pa size x p) s (fun t =>
          t.mil site = (m.setX rd (amoOld size (leNat (memBytes s.mem (sramByte c off) size)))).after ∧
          memBytes t.mem (sramByte c off) size =
            leBytes size (amoValue op size (leNat (memBytes s.mem (sramByte c off) size)) x.toNat).1 ∧
          MemBut (sramByte c off) size s t)) ∧
      (pa < 2 ^ 40 → size ≠ 0 → pa % size = 0 → bitsOf pa 39 38 ≠ 0 → Completes (.milAmo site rd .lr pa size x p) s (fun t =>
        t.mil site = m.trap 5 (BitVec.ofNat 64 pa) ∧ SameBut [.mils] s t)) ∧
      (∀ l, pa < 2 ^ 38 → size = 8 → pa % 8 = 0 → p.pbmt = .pma → p.err = .none → Tbl.find m.dcache (pa / 64) = some l →
        l.poisoned = false →
        Completes (.milAmo site rd .lr pa size x p) s (fun t => (t.mil site).resv = some (pa / 64) ∧
          (t.mil site).reg rd = (if rd = 0 then 0 else leNat ((l.bytes.drop (pa % 64)).take 8)) ∧ SameBut [.mils] s t) ∧
        (m.resv ≠ some (pa / 64) → Completes (.milAmo site rd .sc pa size x p) s (fun t =>
          (t.mil site).reg rd = (if rd = 0 then 0 else 1) ∧ (t.mil site).dcache = m.dcache ∧ SameBut [.mils] s t)) ∧
        (m.resv = some (pa / 64) → Completes (.milAmo site rd .sc pa size x p) s (fun t =>
          (t.mil site).reg rd = 0 ∧ (t.mil site).resv = none ∧ Tbl.find (t.mil site).dcache (pa / 64) =
            some { l with bytes := mergeBytes l.bytes (pa % 64) (leBytes 8 x.toNat), dirty := true } ∧ SameBut [.mils] s t)))) ∧
    (∀ pa f, (2 ^ 40 ≤ pa ∨ bitsOf pa 39 38 ≠ 0 ∨ f.page.pbmt = .io) → Completes (.milFetch site pa f) s (fun t =>
      t.mil site = m.trap 1 (BitVec.ofNat 64 pa) ∧ SameBut [.mils] s t)) ∧
    (∀ pa f, pa < 2 ^ 38 → f.page.pbmt = .pma → (Tbl.find m.icache (pa / 64)).isSome = true → f.parity = false →
      Completes (.milFetch site pa f) s (fun t => t = s)) ∧
    (∀ pa f l, pa < 2 ^ 38 → f.page.pbmt = .pma → f.page.err = .none → Tbl.find m.dcache (pa / 64) = some l → l.poisoned = false →
      (Tbl.find m.icache (pa / 64) = none ∨ f.parity = true) → Completes (.milFetch site pa f) s (fun t =>
        Tbl.find (t.mil site).icache (pa / 64) = some { bytes := l.bytes } ∧ (t.mil site).dcache = m.dcache ∧
        SameBut [.mils] s t)) ∧
    (∀ pa f (g : Got), pa < 2 ^ 38 → s.daHeld .read a (64 * (pa / 64)) 64 = false → g = s.busRead a (64 * (pa / 64)) 64 →
      g.status = .ok →
      (f.page.pbmt = .nc → Completes (.milFetch site pa f) s (fun t => t = g.st)) ∧
      (f.page.pbmt = .pma → Tbl.find m.dcache (pa / 64) = none → f.page.err = .none →
        (Tbl.find m.icache (pa / 64) = none ∨ f.parity = true) → Completes (.milFetch site pa f) s (fun t =>
          Tbl.find (t.mil site).icache (pa / 64) = some { bytes := g.data } ∧
          Tbl.find (t.mil site).dcache (pa / 64) = some { bytes := g.data }))) ∧
    (∀ p, (p.w = false ∨ m.storeFault = none) → (p.o = false ∨ m.ioFault = none) → Completes (.milFence site p) s (fun t =>
      t.mil site = m.after ∧ SameBut [.mils] s t)) ∧
    (∀ p st da, p.w = true → m.storeFault = some (st, da) → (p.o = false ∨ m.ioFault = none) →
      Completes (.milFence site p) s (fun t =>
        t.mil site = { m with storeFault := none }.trap 7 (BitVec.ofNat 64 da) ∧ SameBut [.mils, .freeCtr] s t)) ∧
    (∀ p st da, p.o = true → m.ioFault = some (st, da) → (p.w = false ∨ m.storeFault = none) →
      Completes (.milFence site p) s (fun t =>
        t.mil site = { m with ioFault := none }.trap 7 (BitVec.ofNat 64 da) ∧ SameBut [.mils, .freeCtr] s t)) ∧
    (∀ p st da st2 da2, p.w = true → p.o = true → m.storeFault = some (st, da) → m.ioFault = some (st2, da2) →
      Completes (.milFence site p) s (fun t => (∃ d, (d = da ∨ d = da2) ∧
        t.mil site = { m with storeFault := none, ioFault := none }.trap 7 (BitVec.ofNat 64 d)) ∧ SameBut [.mils, .freeCtr] s t))

/-- R198-R200: cache maintenance of a running hart. cbo.clean writes a dirty, unpoisoned line back and keeps it clean,
cbo.flush writes it back and drops it, and each passes over a line that is clean or not held; cbo.inval drops it unwritten,
cbo.zero makes it a dirty line of zeros, or writes zeros where the page is not cacheable; FENCE.I
leaves L1I empty. R194, R201, R202, R204: a base instruction of a running hart writes its register; ECALL from machine
mode and an instruction of no implemented extension trap, a Sv57 satp is left unchanged; an MSI makes its identity
pending; a read of MIL.FUL_IRQ pops the oldest entry, and the core's source falls with its last; a PET of 0xA5 reloads the watchdog; its warning raises source 9,
and its expiry resets the milliner, which is held. The meanings of the base instructions, traps and satp modes are
PRESUMED from the RISC-V standard (log 18). -/
def Obligations.MillinerAdmin : Prop :=
  (∀ (s : State) site m pa, m = s.mil site → m.running = true → pa < 2 ^ 38 →
      (∀ pg : MilPage, pg.err = .none →
      (∀ l c o, Tbl.find m.dcache (pa / 64) = some l → l.dirty = true → l.poisoned = false → l.bytes.length = 64 →
        s.decodeDa (64 * (pa / 64)) = .dram c o → s.checkReq .write (.milliner site) (64 * (pa / 64)) 64 = .pass →
        s.daHeld .write (.milliner site) (64 * (pa / 64)) 64 = false → s.beatsClean c o 64 →
        Completes (.cboClean site ⟨pa, pg⟩) s (fun t => Tbl.find (t.mil site).dcache (pa / 64) = some { l with dirty := false } ∧
          (∀ j, j < 64 → memByte t.mem (s.sliceKey c (o + j)) = l.bytes.getD j 0) ∧ (t.mil site).pc = m.pc + 4 ∧
          SameBut [.mils, .mem] s t) ∧
        Completes (.cboFlush site ⟨pa, pg⟩) s (fun t => Tbl.find (t.mil site).dcache (pa / 64) = none ∧
          (∀ j, j < 64 → memByte t.mem (s.sliceKey c (o + j)) = l.bytes.getD j 0) ∧ (t.mil site).pc = m.pc + 4 ∧
          SameBut [.mils, .mem] s t)) ∧
      (∀ l, Tbl.find m.dcache (pa / 64) = l → (∀ y, l = some y → y.dirty = false) →
        Completes (.cboClean site ⟨pa, pg⟩) s (fun t => Tbl.find (t.mil site).dcache (pa / 64) = l ∧
          (t.mil site).pc = m.pc + 4 ∧ SameBut [.mils] s t) ∧
        Completes (.cboFlush site ⟨pa, pg⟩) s (fun t => Tbl.find (t.mil site).dcache (pa / 64) = none ∧
          (t.mil site).pc = m.pc + 4 ∧ SameBut [.mils] s t)) ∧
      (∀ q : Put, pg.pbmt = .nc → s.daHeld .write (.milliner site) (64 * (pa / 64)) 64 = false →
        q = s.busWrite (.milliner site) (64 * (pa / 64)) (List.replicate 64 0) → q.status = .ok →
        Completes (.cboZero site ⟨pa, pg⟩) s (fun t => t = q.st.milNext site))) ∧
      ∀ pg, Completes (.cboInval site ⟨pa, pg⟩) s (fun t => Tbl.find (t.mil site).dcache (pa / 64) = none ∧ (t.mil site).pc = m.pc + 4 ∧
        (t.mil site).x = m.x ∧ SameBut [.mils] s t) ∧
      (pg.pbmt = .pma → Completes (.cboZero site ⟨pa, pg⟩) s (fun t => Tbl.find (t.mil site).dcache (pa / 64) =
        some { bytes := List.replicate 64 0, dirty := true } ∧ (t.mil site).pc = m.pc + 4 ∧ SameBut [.mils] s t)) ∧
      Completes (.fenceI site) s (fun t => (t.mil site).icache = [] ∧ (t.mil site).dcache = m.dcache ∧
        (t.mil site).pc = m.pc + 4 ∧ SameBut [.mils] s t)) ∧
  (∀ (s : State) site m, site < 72 → m = s.mil site →
      (m.running = true →
        (∀ w, Completes (.millinerInstr site (.word w)) s (fun t => t = s.milWord site w)) ∧
        (∀ w rd v, rvBase 64 32 m.reg m.pc.toNat 4 (w : BitVec 32).toNat = .write rd v →
          Completes (.millinerInstr site (.word w)) s (fun t => t.mil site = (m.setX rd v).after ∧ SameBut [.mils] s t)) ∧
        (m.priv = 3 → Completes (.millinerInstr site (.word 0x73)) s (fun t =>
          t.mil site = m.trap 11 0 ∧ (t.mil site).csr 0x341 = m.pc ∧ (t.mil site).csr 0x342 = 11 ∧ SameBut [.mils] s t)) ∧
        (∀ w, Completes (.millinerInstr site (.unimplemented w)) s (fun t =>
          t.mil site = m.trap 2 (BitVec.ofNat 64 w.toNat) ∧ SameBut [.mils] s t)) ∧
        (∀ v, getBits v 63 60 = 10 → Completes (.millinerInstr site (.satp v)) s (fun t => t.mil site = m.after ∧
          SameBut [.mils] s t)) ∧
        (∀ v, getBits v 63 60 = 8 ∨ getBits v 63 60 = 9 → Completes (.millinerInstr site (.satp v)) s (fun t =>
          (t.mil site).csr 0x180 = v ∧ (t.mil site).pc = m.pc + 4 ∧ SameBut [.mils] s t)) ∧
        (s.fld MIL_WDOG.EN site 0 = 1 →
          (m.warned = false → Completes (.millinerWdogWarning site) s (fun t =>
            t = (s.setMil site { m with warned := true }).milIrq site 9)) ∧
          (∀ u, u = ((s.raise .MILLINER_HANG site uMilliner [(8, m.pc.toNat)]).setMil site { fulIrq := m.fulIrq }).holdMil site →
            Completes (.millinerWdogExpiry site) s (fun t => t = (u.loseParts .fenced (u.ownedBy site)).refreshDeg)) ∧
          (m.warned = false → Tbl.find m.targets 9 = none → Completes (.millinerWdogWarning site) s (fun t =>
            (t.mil site).warned = true ∧ 9 ∈ (t.mil site).aplic ∧ SameBut [.mils] s t)) ∧
          (s.ownedBy site = [] → Completes (.millinerWdogExpiry site) s (fun t => (t.mil site).running = false ∧
            (t.mil site).dcache = [] ∧ (t.mil site).fulIrq = m.fulIrq ∧ t.fld RESET_STAT.MIL_HELD site 0 = 1 ∧
            (∃ r, r ∈ t.events.undelivered ∧ r.code = Ev.MILLINER_HANG.code ∧ r.site = site) ∧ t.mem = s.mem)))) ∧
      (∀ a l, s.ltileOf site = some l →
        (∀ file id, file < 5 → 1 ≤ id → id ≤ 255 →
          s.checkReq .write a (2 * 2 ^ 38 + l * 2 ^ 24 + (0x800000 + 0x1000 * file)) 4 = .pass →
          s.decodeDa (2 * 2 ^ 38 + l * 2 ^ 24 + (0x800000 + 0x1000 * file)) = .milCsr site (0x1000 * file) →
          Completes (.seteipnum a site file id) s (fun t => 256 * file + id ∈ (t.mil site).eip ∧ SameBut [.mils] s t)) ∧
        (∀ e r, m.fulIrq = e :: r → s.checkReq .read a (2 * 2 ^ 38 + l * 2 ^ 24 + (0x800000 + 0x200018)) 8 = .pass →
          s.decodeDa (2 * 2 ^ 38 + l * 2 ^ 24 + (0x800000 + 0x200018)) = .milCsr site 0x200018 →
          Completes (.fulIrqPop a site) s (fun t => (t.mil site).fulIrq = r ∧
            t.mesh.answered = ⟨a, 0, .ok, 8, leBytes 8 (2 ^ 63 + e.1 % 4 * 2 ^ 38 + e.2.1 % 64 * 2 ^ 32 + e.2.2 % 2 ^ 32)⟩ ::
              s.mesh.answered ∧ (t.mil site).aplic = (if r.any (fun y => y.1 == e.1) then m.aplic
                else m.aplic.filter (· != 5 + e.1)) ∧ SameBut [.mils, .mesh] s t)) ∧
        (m.fulIrq = [] → s.checkReq .read a (2 * 2 ^ 38 + l * 2 ^ 24 + (0x800000 + 0x200018)) 8 = .pass →
          s.decodeDa (2 * 2 ^ 38 + l * 2 ^ 24 + (0x800000 + 0x200018)) = .milCsr site 0x200018 →
          Completes (.fulIrqPop a site) s (fun t =>
            t.mesh.answered = ⟨a, 0, .ok, 8, leBytes 8 0⟩ :: s.mesh.answered ∧ SameBut [.mesh] s t)) ∧
        (∀ v, v % 256 ≠ 0xA5 → s.checkReq .write a (2 * 2 ^ 38 + l * 2 ^ 24 + (0x800000 + 0x200008)) 8 = .pass →
          s.decodeDa (2 * 2 ^ 38 + l * 2 ^ 24 + (0x800000 + 0x200008)) = .milCsr site 0x200008 →
          Completes (.wdogPet a site v) s (fun t => SameBut [] s t)) ∧
        (∀ v, v % 256 = 0xA5 → s.checkReq .write a (2 * 2 ^ 38 + l * 2 ^ 24 + (0x800000 + 0x200008)) 8 = .pass →
          s.decodeDa (2 * 2 ^ 38 + l * 2 ^ 24 + (0x800000 + 0x200008)) = .milCsr site 0x200008 →
          Completes (.wdogPet a site v) s (fun t => (t.mil site).warned = false ∧ SameBut [.mils] s t))))

/-! ## Host interface (11) -/

/-- R209, R210, R213, R215, R216, R218, R219, R221, R222: doorbells of an existing function in D0 (log 113) move their pointer, or
are ignored and
counted; a fetched entry becomes a command behind the others and moves the SQ's head; a full CQ stalls fetching; a read that
fails stops the SQ; the time limit of a queue or ring sends its vector where MSI-X is enabled and the vector unmasked; an unmasked
vector that was pending is sent; a pull read
pops the oldest entry; an aperture access is a request, and one that fails is recorded. -/
def Obligations.HostDoorbells : Prop :=
  ∀ (s : State) f, s.fnExists f = true → f < 32 →
   ((s.fn f).cfg.d3hot = false →
    (∀ cmd q v, (cmd = Instr.sqTailDoorbell f q v ∧ (∀ x, Tbl.find (s.fn f).sqs q = some x → ¬(v < x.size ∧
          (x.tail + x.size - x.head) % x.size ≤ (v + x.size - x.head) % x.size))) ∨
        (cmd = .cqHeadDoorbell f q v ∧ ∀ c, Tbl.find (s.fn f).cqs q = some c → c.size ≤ v) ∨
        (cmd = .ringHeadDoorbell f q v ∧ ∀ g, Tbl.find (s.fn f).rings q = some g → g.pull = false ∧ g.size ≤ v) →
      Completes cmd s (fun t => t.fns = s.fns ∧
        t.fld HIF_ERR_STAT.DB_BAD f 0 = satAdd 8 (s.fld HIF_ERR_STAT.DB_BAD f 0) 1 ∧ SameBut [.regs, .freeCtr, .events] s t)) ∧
    (∀ q x v, q < 64 → Tbl.find (s.fn f).sqs q = some x →
      (v < x.size → (x.tail + x.size - x.head) % x.size ≤ (v + x.size - x.head) % x.size →
        Completes (.sqTailDoorbell f q v) s (fun t => Tbl.find (t.fn f).sqs q = some { x with tail := v } ∧
          SameBut [.fns] s t)) ∧
      (x.size ≤ v → Completes (.sqTailDoorbell f q v) s (fun t => t.fns = s.fns ∧
        t.fld HIF_ERR_STAT.DB_BAD f 0 = satAdd 8 (s.fld HIF_ERR_STAT.DB_BAD f 0) 1 ∧
        SameBut [.regs, .freeCtr, .events] s t)) ∧
      (∀ c y, (s.fn f).flr = none → s.fld FN_STAT.RDY f 0 = 1 → x.head ≠ x.tail → x.stopped = false →
        Tbl.find (s.fn f).cqs x.cq = some c →
        (c.free = true → ∀ bytes, Completes (.sqFetchDone f q (.ok bytes)) s (fun t => t = s.accept f q x bytes)) ∧
        (c.free = true → (∀ p, s.fnPt f = some p → s.ownerDown p = false) → ∀ bytes, cmdRow y.opc ≠ none →
          y = { id := s.nextSub, sq := q, word := BitVec.ofNat 512 (leNat (bytes.take 64)), sqhd := (x.head + 1) % x.size } →
          Completes (.sqFetchDone f q (.ok bytes)) s (fun t => (t.fn f).subs = (s.fn f).subs ++ [y] ∧
            Tbl.find (t.fn f).sqs q = some { x with head := (x.head + 1) % x.size } ∧ t.nextSub = s.nextSub + 1 ∧
            SameBut [.fns, .nextSub] s t)) ∧
        (c.free = true → ∀ k e, (e = .failed k ∨ e = .poisoned) → Completes (.sqFetchDone f q e) s (fun t =>
          Tbl.find (t.fn f).sqs q = some { x with stopped := true } ∧ Raised .HOST_DMA_ERROR 72 uBrim s t ∧
          SameBut [.fns, .regs, .freeCtr, .events] s t)) ∧
        (∀ e, c.free = false → c.stalled = false → Completes (.sqFetchDone f q e) s (fun t =>
          Tbl.find (t.fn f).cqs x.cq = some { c with stalled := true } ∧ (t.fn f).subs = (s.fn f).subs ∧
          SameBut [.fns, .regs, .freeCtr, .events] s t)))) ∧
    (∀ q c v u, Tbl.find (s.fn f).cqs q = some c → v < c.size →
      u = s.setFn f { s.fn f with cqs := Tbl.set (s.fn f).cqs q { c with head := headTo c.head c.tail c.size v } } →
      Completes (.cqHeadDoorbell f q v) s (fun t => t = (u.cqFlush f q c.wait.length).stallEnd f q) ∧
      (c.wait = [] → Completes (.cqHeadDoorbell f q v) s (fun t =>
        (∀ h, h = headTo c.head c.tail c.size v → Tbl.find (t.fn f).cqs q =
          some { c with head := h, stalled := c.stalled && !decide (c.tail - h < c.size) }) ∧ SameBut [.fns] s t))) ∧
    (∀ r g v, Tbl.find (s.fn f).rings r = some g → g.pull = true → Completes (.ringHeadDoorbell f r v) s (fun t => t = s)) ∧
    (∀ r g v, Tbl.find (s.fn f).rings r = some g → g.pull = false → v < g.size →
      (∀ u, u = s.setFn f { s.fn f with rings := Tbl.set (s.fn f).rings r { g with head := headTo g.head g.tail g.size v } } →
        Completes (.ringHeadDoorbell f r v) s (fun t => t = u.ringFlush f r g.held.length)) ∧
      (g.held = [] → Completes (.ringHeadDoorbell f r v) s (fun t =>
        Tbl.find (t.fn f).rings r = some { g with head := headTo g.head g.tail g.size v } ∧ SameBut [.fns] s t)) ∧
      (∀ e, g.held = [e] → g.tail - headTo g.head g.tail g.size v < g.size → Completes (.ringHeadDoorbell f r v) s (fun t =>
        SentToHost (.mem f (g.base + 8 * (g.tail % g.size)) (leBytes 8 (e + passBit g.size g.tail * 2 ^ 63))) s t ∧
        ∃ h, Tbl.find (t.fn f).rings r = some h ∧ h.held = [] ∧ h.tail = g.tail + 1))) ∧
    (∀ r g, Tbl.find (s.fn f).rings r = some g → g.pull = true →
      (∀ e l, g.held = e :: l → Completes (.pullRead f r 8) s (fun t =>
        t.hostOut = s.hostOut ++ [.cpl f (leBytes 8 (e + 2 ^ 63))] ∧
        (∃ h, Tbl.find (t.fn f).rings r = some h ∧ h.held = l ∧ h.head = g.head + 1 ∧ h.tail = g.tail) ∧
        SameBut [.fns, .hostOut] s t)) ∧
      (g.held = [] → Completes (.pullRead f r 8) s (fun t => t.hostOut = s.hostOut ++ [.cpl f (leBytes 8 0)] ∧
        SameBut [.hostOut] s t)) ∧
      (∀ k, k ≠ 8 → Completes (.pullRead f r k) s (fun t => t.hostOut = s.hostOut ++ [.cpl f (List.replicate k 0)] ∧
        t.fns = s.fns ∧ t.fld HIF_ERR_STAT.BAD_ACCESS f 0 = satAdd 8 (s.fld HIF_ERR_STAT.BAD_ACCESS f 0) 1 ∧
        SameBut [.regs, .hostOut] s t))) ∧
    (∀ off da, off < 2 ^ 28 → da = s.fld APERTURE.BASE f 0 * 2 ^ 28 + off →
      (∀ data (p : Put), s.daHeld .write (.pcie f) da data.length = false → p = s.busWrite (.pcie f) da data → p.status = .ok →
        Completes (.apertureAccess f true off data.length data) s (fun t => t = p.st)) ∧
      (∀ n (g : Got), s.daHeld .read (.pcie f) da n = false → g = s.busRead (.pcie f) da n → g.status = .ok →
        Completes (.apertureAccess f false off n []) s (fun t => t = g.st.toHost (.cpl f g.data))) ∧
      (∀ c o data, s.decodeDa da = .sram c o → s.checkReq .write (.pcie f) da data.length = .pass →
        s.daHeld .write (.pcie f) da data.length = false → s.lanesClean c o data.length → Completes (.apertureAccess f true off data.length data) s (fun t =>
          memBytes t.mem (sramByte c o) data.length = data ∧ MemBut (sramByte c o) data.length s t ∧ SameBut [.mem] s t)) ∧
      (∀ c o n, s.decodeDa da = .sram c o → s.checkReq .read (.pcie f) da n = .pass → s.daHeld .read (.pcie f) da n = false →
        s.lanesClean c o n → Completes (.apertureAccess f false off n []) s (fun t =>
          t.hostOut = s.hostOut ++ [.cpl f (memBytes s.mem (sramByte c o) n)] ∧ SameBut [.hostOut] s t)) ∧
      (∀ n, s.checkReq .read (.pcie f) da n ≠ .pass → Completes (.apertureAccess f false off n []) s (fun t =>
        t.hostOut = s.hostOut ++ [.cpl f (List.replicate n 0xFF)] ∧
        t.fld HIF_ERR_STAT.LAST_STATUS f 0 = (s.checkReq .read (.pcie f) da n).status.code ∧
        t.reg .HIF_ERR_DA f 0 = BitVec.ofNat 64 (da % 2 ^ 48) ∧ t.mem = s.mem)))) ∧
    (∀ q c, Tbl.find (s.fn f).cqs q = some c → c.since ≠ 0 → c.coalUs ≠ 0 →
      Completes (.coalUsExpiry f false q) s (fun t => Tbl.find (t.fn f).cqs q = some { c with since := 0 } ∧
        t.hostOut = s.hostOut ++ (if (s.fn f).cfg.msixEn && (s.fn f).unmasked.contains c.vector then [.msix f c.vector] else []) ∧
        SameBut [.fns, .hostOut] s t)) ∧
    (∀ r g, Tbl.find (s.fn f).rings r = some g → g.since ≠ 0 → g.coalUs ≠ 0 →
      Completes (.coalUsExpiry f true r) s (fun t => Tbl.find (t.fn f).rings r = some { g with since := 0 } ∧
        t.hostOut = s.hostOut ++ (if (s.fn f).cfg.msixEn && (s.fn f).unmasked.contains g.vector then [.msix f g.vector] else []) ∧
        SameBut [.fns, .hostOut] s t)) ∧
    (∀ v, v < msixVectors f → Completes (.msixUnmask f v) s (fun t => v ∈ (t.fn f).unmasked ∧
      ((s.fn f).cfg.msixEn = true → v ∉ (t.fn f).msixPend) ∧
      t.hostOut = s.hostOut ++ (if (s.fn f).msixPend.contains v && (s.fn f).cfg.msixEn then [.msix f v] else []) ∧
      SameBut [.fns, .hostOut] s t))

/-- R214, R223, R226, R227, R302, R345, R380, R381: a host command that has its turn and fails a check completes with that check's
status, one of R226 counted and reported. The queue and information commands that have their turn and pass: CREATE makes the queue or ring
its fields say, or completes STATE_CONFLICT where it exists; DELETE drops it, or conflicts while it is used; IDENTIFY writes
4 KiB; GET_LOG takes the records that fit, or the stage reports, or PF0 the flash store; SET_CAP sets a cap clamped to its range, the module's by PF0 alone. -/
def Obligations.HostQueues : Prop :=
  ∀ (s : State) f sq x,
    (∀ d o cmd, (o, cmd) ∈ [(0x01, Instr.createCq f sq), (0x02, .deleteCq f sq), (0x03, .createSq f sq), (0x04, .deleteSq f sq),
        (0x05, .createRing f sq), (0x06, .deleteRing f sq), (0x07, .identify f sq), (0x08, .getLog f sq), (0x09, .setCap f sq),
        (0x0A, .partServe f sq), (0x0B, .partDrain f sq), (0x0C, .partFence f sq), (0x0D, .partReset f sq),
        (0x0E, .partReblock f sq d), (0x0F, .modDrain f sq), (0x20, .load f sq d), (0x21, .readOut f sq), (0x22, .adapterLoad f sq d),
        (0x30, .submit f sq d), (0x31, .cancel f sq), (0x38, .kvSend f sq), (0x39, .kvRecv f sq d), (0x3A, .refill f sq)] →
      s.subReady f sq o = some x → s.hostCheck f x ≠ .ok → Completes cmd s (fun t =>
        t = if s.hostCheck f x = .stateConflict then s.subConflict f x else s.subDone f x.id (s.hostCheck f x))) ∧
    (s.hostReady f sq 0x01 x →
      (Tbl.find (s.fn f).cqs x.target = none → (∀ q, Tbl.find (s.fn f).sqs sq = some q → q.cq ≠ x.target) → Completes (.createCq f sq) s (fun t => HostDone f x .ok 0 s t ∧
        Tbl.find (t.fn f).cqs x.target = some {
          base := x.haddr, size := x.at 24 2, vector := x.at 26 2, coalCnt := x.at 28 1, coalUs := x.at 29 1 } ∧ SameBut [.fns, .hostOut] s t)) ∧
      (Tbl.find (s.fn f).cqs x.target ≠ none → Completes (.createCq f sq) s (fun t => HostDone f x .stateConflict 0 s t ∧
        SameBut [.fns, .hostOut] s t))) ∧
    (s.hostReady f sq 0x02 x → Tbl.find (s.fn f).cqs x.target ≠ none →
      (((s.fn f).sqs.any (fun q => q.2.cq == x.target) = false) → Completes (.deleteCq f sq) s (fun t =>
        HostDone f x .ok 0 s t ∧ Tbl.find (t.fn f).cqs x.target = none ∧ SameBut [.fns, .hostOut] s t)) ∧
      (((s.fn f).sqs.any (fun q => q.2.cq == x.target) = true) → Completes (.deleteCq f sq) s (fun t =>
        HostDone f x .stateConflict 0 s t ∧ SameBut [.fns, .hostOut] s t))) ∧
    (s.hostReady f sq 0x03 x → Tbl.find (s.fn f).sqs x.target = none → Completes (.createSq f sq) s (fun t =>
      HostDone f x .ok 0 s t ∧ Tbl.find (t.fn f).sqs x.target = some { base := x.haddr, size := x.at 24 2, cq := x.at 26 2 } ∧
      SameBut [.fns, .hostOut] s t)) ∧
    (∀ q, s.hostReady f sq 0x04 x → Tbl.find (s.fn f).sqs x.target = some q →
      ((∀ y, y ∈ (s.fn f).subs → y.sq ≠ x.target) → Completes (.deleteSq f sq) s (fun t =>
        HostDone f x .ok 0 s t ∧ Tbl.find (t.fn f).sqs x.target = none ∧ SameBut [.fns, .hostOut] s t)) ∧
      ((∃ y, y ∈ (s.fn f).subs ∧ y.sq = x.target) → Completes (.deleteSq f sq) s (fun t =>
        t.subStarted f x ∧ Tbl.find (t.fn f).sqs x.target = some { q with stopped := true } ∧ SameBut [.fns] s t))) ∧
    (s.hostReady f sq 0x05 x → Tbl.find (s.fn f).rings x.target = none → Completes (.createRing f sq) s (fun t =>
      HostDone f x .ok 0 s t ∧ Tbl.find (t.fn f).rings x.target = some {
        base := x.haddr, size := x.at 24 4, vector := x.at 28 2, coalCnt := x.at 30 1, coalUs := x.at 31 1,
        pull := x.at 32 1 == 1 } ∧
      SameBut [.fns, .hostOut] s t)) ∧
    (s.hostReady f sq 0x06 x → Tbl.find (s.fn f).rings x.target ≠ none →
      (s.ringInUse f x.target = false → Completes (.deleteRing f sq) s (fun t => HostDone f x .ok 0 s t ∧
        Tbl.find (t.fn f).rings x.target = none ∧ SameBut [.fns, .hostOut] s t)) ∧
      (s.ringInUse f x.target = true → Completes (.deleteRing f sq) s (fun t => HostDone f x .stateConflict 0 s t ∧
        (t.fn f).rings = (s.fn f).rings ∧ SameBut [.fns, .hostOut] s t))) ∧
    (∀ (p : Put) pg, s.hostReady f sq 0x07 x → pg = (if x.target = 3 then Config.levelPage ((List.range 8).map (fun i => Tbl.at s.levels i 0))
        else Config.identifyPage x.target f s.freeCtr).take 4096 →
      p = s.draw.bufPut f x (pg ++ List.replicate (4096 - pg.length) 0) →
      Completes (.identify f sq) s (fun t => t = p.st.subDone f x.id p.status)) ∧
    (s.hostReady f sq 0x08 x →
      (x.target = 1 → Completes (.getLog f sq) s (fun t => t = s.logDone f x (s.reportBytes.take x.hlen))) ∧
      (x.target ≠ 1 → x.at 24 1 = 1 → Completes (.getLog f sq) s (fun t =>
        t = s.logDone f x ((s.events.flash.take (x.hlen / 32)).flatMap EvtRec.bytes))) ∧
      (∀ n, x.target ≠ 1 → x.at 24 1 ≠ 1 → n = min (x.hlen / 32) (s.evtBuf f).recs.length → Completes (.getLog f sq) s (fun t =>
        t = (s.afterLog f n).logDone f x (((s.evtBuf f).recs.take n).flatMap EvtRec.bytes)))) ∧
    (s.hostReady f sq 0x07 x → x.sgl = false → Completes (.identify f sq) s (fun t => HostDone f x .ok 0 s t ∧
      (∃ d, d.length = 4096 ∧ SentToHost (.mem f x.haddr d) s t) ∧ SameBut [.fns, .hostOut, .freeCtr] s t)) ∧
    (∀ n d, s.hostReady f sq 0x08 x → x.target = 0 → x.at 24 1 = 0 → n = min (x.hlen / 32) (s.evtBuf f).recs.length →
      d = ((s.evtBuf f).recs.take n).flatMap EvtRec.bytes → (s.evtBuf f).dropped = 0 → x.sgl = false →
      Completes (.getLog f sq) s (fun t => HostDone f x .ok d.length s t ∧
        (n ≠ 0 → SentToHost (.mem f x.haddr d) s t) ∧ (t.evtBuf f).recs = (s.evtBuf f).recs.drop n ∧
        SameBut [.fns, .hostOut, .events] s t)) ∧
    (s.hostReady f sq 0x09 x →
      (x.target = 0xFF → f = 0 → Completes (.setCap f sq) s (fun t => HostDone f x .ok 0 s t ∧
        t.fld MOD_CAP.HOST 0 0 = (if x.at 24 4 = 0 then 3000 else min 3000 (max 300 (x.at 24 4))) ∧
        SameBut [.regs, .fns, .hostOut] s t)) ∧
      (((x.target = 0xFF ∧ f ≠ 0) ∨ (x.target ≠ 0xFF ∧ s.fnPt f ≠ some x.target)) → Completes (.setCap f sq) s (fun t => HostDone f x .auth 0 s t ∧
        SameBut [.fns, .hostOut] s t)) ∧
      (∀ p, x.target = p → p < 8 → s.fnPt f = some p → Completes (.setCap f sq) s (fun t =>
        HostDone f x .ok 0 s t ∧ t.fld PT_CAP.CAP 0 p = (if x.at 24 4 = 0 then s.fld PT_CAP.CEIL 0 p
          else min (s.fld PT_CAP.CEIL 0 p) (max (8 * (s.partTiles p).length) (x.at 24 4))) ∧
        SameBut [.regs, .fns, .hostOut] s t)))

/-- R223, R316, R317, R328: the partition commands that have their turn. PART_SERVE makes a READY partition SERVING;
PART_DRAIN makes a SERVING one DRAINING, or READY where no sequence is live; MOD_DRAIN drains every serving partition;
PART_FENCE fences its tiles, loses its sequences and leaves it FENCED; PART_RESET starts its tiles' resets with its
sequences lost, ends at once where it has none, and conflicts with one that runs; PART_REBLOCK with a partial image that is refused completes with that status, and a good one leaves
the partition RE-BLOCKING. Corners are those of logs 67 and 93. -/
def Obligations.HostPartitions : Prop :=
  ∀ (s : State) f sq x,
    (∀ p, s.hostReady f sq 0x0A x → s.fnPt f = some p → Completes (.partServe f sq) s (fun t => HostDone f x .ok 0 s t ∧
      (t.part p).state = 1 ∧ (t.part p).seqs = (s.part p).seqs ∧
      SameBut [.parts, .fns, .hostOut, .hb, .regs, .freeCtr, .events] s t)) ∧
    (∀ p, s.hostReady f sq 0x0B x → s.fnPt f = some p → Completes (.partDrain f sq) s (fun t => HostDone f x .ok 0 s t ∧
      (t.part p).state = (if (s.part p).seqs = [] then 0 else 2) ∧ (t.part p).seqs = (s.part p).seqs ∧
      SameBut [.parts, .fns, .hostOut, .hb, .regs, .freeCtr, .events] s t)) ∧
    (s.hostReady f sq 0x0F x → Completes (.modDrain f sq) s (fun t => HostDone f x .ok 0 s t ∧
      (∀ p, (s.part p).state = 1 → (t.part p).state = (if (s.part p).seqs = [] then 0 else 2)) ∧
      (∀ p, (t.part p).seqs = (s.part p).seqs) ∧ SameBut [.parts, .fns, .hostOut, .hb, .regs, .freeCtr, .events] s t)) ∧
    (∀ p, x.target = p → s.hostReady f sq 0x0C x → Completes (.partFence f sq) s (fun t =>
      HostDone f x .ok 0 s t ∧ (t.part p).state = 3 ∧ (t.part p).seqs = [] ∧
      (∀ e, e ∈ s.partTiles p → e.site < 72 → t.fld RESET_STAT.TILE_CAUSE e.site 0 ≠ 0))) ∧
    (∀ p, x.target = p → s.hostReady f sq 0x0D x → Tbl.find s.partResets p = none → s.partTiles p ≠ [] →
      Completes (.partReset f sq) s (fun t => (t.part p).seqs = [] ∧
        ∃ r, Tbl.find t.partResets p = some r ∧ r.fn = f ∧ r.sub = x.id)) ∧
    (∀ p, x.target = p → s.hostReady f sq 0x0D x → Tbl.find s.partResets p ≠ none → Completes (.partReset f sq) s (fun t =>
      t = s.subConflict f x)) ∧
    (∀ p u, x.target = p → s.hostReady f sq 0x0D x → Tbl.find s.partResets p = none → s.partTiles p = [] →
      u = ((((s.subBusy f x.id).fenceFns p (List.range 32)).abortXfers p s.brim.xfers).abortGroups p (List.range 64)).loseAll p .fenced →
      Completes (.partReset f sq) s (fun t => t = u.partResetEnd p { fn := f, sub := x.id, sites := [] })) ∧
    (s.hostReady f sq 0x0E x → (Completes (.partReblock f sq .poisoned) s (fun t =>
        HostDone f x .poison 0 s t ∧ t.parts = s.parts ∧ t.image = s.image)) ∧ (∀ k, Completes (.partReblock f sq (.failed k)) s (fun t =>
        HostDone f x .integrity 0 s t ∧ t.parts = s.parts ∧ t.image = s.image)) ∧
      (∀ l b st, l = b.take x.hlen ++ List.replicate (x.hlen - b.length) 0 → s.checkPartial x.target l = .bad st →
        Completes (.partReblock f sq (.ok b)) s (fun t => HostDone f x st 0 s t ∧ t.image = s.image ∧
          t.reblocks = s.reblocks)) ∧
      (∀ l b p g u, l = b.take x.hlen ++ List.replicate (x.hlen - b.length) 0 → s.checkPartial x.target l = .good p g u →
        ∀ olds r w, olds = (s.image.tiles.filter (fun e => p.tiles.contains e.ltile)).map (·.site) →
        r = { fn := f, sub := x.id, olds := olds, news := p.image.tiles.map (fun e => (e.ltile, e.site)), image := g,
              digest := imgDigest l, whole := p.kind == 2 } →
        w = (((s.subBusy f x.id).setPartState x.target 4).retireSites olds).tdiErrors 0 (s.fnsOf x.target) →
        Completes (.partReblock f sq (.ok b)) s (fun t =>
          t = State.subst { w with reblocks := Tbl.set w.reblocks x.target r } u)) ∧
      (∀ l b p g u, l = b.take x.hlen ++ List.replicate (x.hlen - b.length) 0 → s.checkPartial x.target l = .good p g u →
        u = [] → Completes (.partReblock f sq (.ok b)) s (fun t => (t.part x.target).state = 4 ∧
          ∃ r, Tbl.find t.reblocks x.target = some r ∧ r.image = g ∧ r.sub = x.id)))

/-- R12, R32, R217, R223-R226, R409: the data and sequence commands that have their turn. LOAD stores host data by requests, with the
CRC-32C of the data read back where VERIFY asks for it, and refuses a kernel above its partition's level with nothing written;
READ_OUT writes memory to the host, relaxed where the function allows it; a host read that fails completes
INTEGRITY; SUBMIT and KV_RECV admit, complete NO_RESOURCE, or wait for a load of their adapter; CANCEL ends the sequence with END
reason 3; KV_SEND and REFILL start;
an adapter load makes its adapter resident, and conflicts while a live sequence names it; a token enters its ring, at most MAXNEW
of them and none after a stop token; END and LOST end the sequence. -/
def Obligations.HostData : Prop :=
  ∀ (s : State) f sq x,
    (∀ b da, s.hostReady f sq 0x20 x → b.length = x.hlen → da = x.at 24 8 → s.rangeHeld .write (.pcie f) da x.hlen = false →
      (s.loadBelow da b = true → Completes (.load f sq (.ok b)) s (fun t => HostDone f x .featureLevel 0 s t ∧
        SameBut [.fns, .hostOut] s t)) ∧
      (∀ p : Put, s.loadBelow da b = false → p = s.putAt (.pcie f) da b →
        ((p.status ≠ .ok ∨ x.at 32 1 = 0) → Completes (.load f sq (.ok b)) s (fun t => t = p.st.subDone f x.id p.status)) ∧
        (∀ g : Got, p.status = .ok → x.at 32 1 ≠ 0 → g = p.st.moveRead (.pcie f) (splitReq (b.length / 8 + 2) da b.length) →
          Completes (.load f sq (.ok b)) s (fun t =>
            t = g.st.subDone f x.id g.status (if g.status = .ok then crc32c g.data else 0))))) ∧
    (∀ da (g : Got) (p : Put), s.hostReady f sq 0x21 x → da = x.at 24 8 → s.rangeHeld .read (.pcie f) da x.hlen = false →
      g = s.moveRead (.pcie f) (splitReq (x.hlen / 8 + 2) da x.hlen) → p = g.st.bufPut f x g.data (s.fn f).cfg.relaxed →
      Completes (.readOut f sq) s (fun t => t = p.st.subDone f x.id (g.status.orElse p.status))) ∧
    (∀ b da c off, s.hostReady f sq 0x20 x → b.length = x.hlen → b ≠ [] → da = x.at 24 8 → da % 256 + x.hlen ≤ 256 →
      s.rangeHeld .write (.pcie f) da x.hlen = false → s.loadBelow da b = false →
      s.decodeDa da = .sram c off → s.checkReq .write (.pcie f) da x.hlen = .pass → s.lanesClean c off x.hlen →
      (x.at 32 1 = 0 → Completes (.load f sq (.ok b)) s (fun t => HostDone f x .ok 0 s t ∧
        memBytes t.mem (sramByte c off) x.hlen = b ∧ MemBut (sramByte c off) x.hlen s t ∧
        SameBut [.mem, .fns, .hostOut] s t)) ∧
      (x.at 32 1 = 1 → s.checkReq .read (.pcie f) da x.hlen = .pass → Completes (.load f sq (.ok b)) s (fun t =>
        HostDone f x .ok (crc32c b) s t ∧ memBytes t.mem (sramByte c off) x.hlen = b))) ∧
    (s.hostReady f sq 0x20 x → ∀ k, Completes (.load f sq (.failed k)) s (fun t => HostDone f x .integrity 0 s t ∧
      t.mem = s.mem ∧ Raised .HOST_DMA_ERROR 72 uBrim s t)) ∧
    (∀ da c off, s.hostReady f sq 0x21 x → da = x.at 24 8 → 0 < x.hlen → da % 256 + x.hlen ≤ 256 →
      s.rangeHeld .read (.pcie f) da x.hlen = false →
      s.decodeDa da = .sram c off → s.checkReq .read (.pcie f) da x.hlen = .pass → s.lanesClean c off x.hlen → x.sgl = false →
      Completes (.readOut f sq) s (fun t => HostDone f x .ok 0 s t ∧
        SentToHost (.mem f x.haddr (memBytes s.mem (sramByte c off) x.hlen) (s.fn f).cfg.relaxed) s t ∧ SameBut [.fns, .hostOut] s t)) ∧
    (∀ p, s.fnPt f = some p →
      (s.hostReady f sq 0x22 x →
        (s.adapterUsed p x.target = true → ∀ d, Completes (.adapterLoad f sq d) s (fun t => HostDone f x .stateConflict 0 s t ∧
            t.fld HIF_ERR_STAT.SC_COUNT f 0 = satAdd 16 (s.fld HIF_ERR_STAT.SC_COUNT f 0) 1 ∧ t.mem = s.mem ∧
            t.parts = s.parts)) ∧
        (s.adapterUsed p x.target = false → s.adapterSlots p x.target = [] → ∀ d, Completes (.adapterLoad f sq d) s (fun t =>
          HostDone f x .noResource 0 s t ∧ SameBut [.fns, .hostOut] s t)) ∧
        (∀ b (w : Put), s.adapterUsed p x.target = false → s.adapterSlots p x.target ≠ [] → s.slotsHeld f p x.target = false →
          b.length = x.hlen → w = s.writeSlots f b (s.adapterSlots p x.target) →
          ((w.status = .ok ∨ s.loadBegun f b (s.adapterSlots p x.target) = true) → Completes (.adapterLoad f sq (.ok b)) s (fun t =>
            t = w.st.subLoad f x.id w.status)) ∧
          (w.status = .ok → w.st.fns = s.fns → Completes (.adapterLoad f sq (.ok b)) s (fun t => t.subStarted f x ∧ t.mem = w.st.mem)))) ∧
      (∀ a l held, s.adapterLoading p a = true → l = s.loadSubs p a → held = s.heldFor p a →
        Completes (.adapterLoadDone p a) s (fun t =>
          t = ((s.setAdapter p a (l.all (fun y => y.2.2 == .ok))).loadsDone l).resumeHeld p held)) ∧
      (∀ a, s.adapterLoading p a = true → s.heldFor p a = [] → (∀ y, y ∈ s.loadSubs p a → y.2.2 = .ok) →
        Completes (.adapterLoadDone p a) s (fun t => a ∈ (t.part p).adapters ∧ t.mem = s.mem)) ∧
      (∀ b a, s.hostReady f sq 0x30 x → a = x.at 28 2 → b.length = x.hlen →
        (Tbl.find (s.part p).seqs x.target ≠ none → Completes (.submit f sq (.ok b)) s (fun t =>
          HostDone f x .stateConflict 0 s t ∧ t.parts = s.parts)) ∧
        (Tbl.find (s.part p).seqs x.target = none → (s.fn f).e2eKey = none →
          ((s.part p).adapters.contains a = true → s.adapterLoading p a = true → Completes (.submit f sq (.ok b)) s (fun t =>
            t = s.subHold f x.id)) ∧
          (((s.part p).adapters.contains a && s.adapterLoading p a) = false → Completes (.submit f sq (.ok b)) s (fun t =>
            t = s.acceptSub f x p (x.hlen / 4))) ∧
          (a ≠ 0xFFFF → (s.part p).adapters.contains a = false → Completes (.submit f sq (.ok b)) s (fun t =>
            HostDone f x .noResource 0 s t ∧ t.parts = s.parts))) ∧
        (∀ key, Tbl.find (s.part p).seqs x.target = none → (s.fn f).e2eKey = some key →
          (∀ u, s.openPrompt f x key b = .ok u → ((s.part p).adapters.contains a && s.adapterLoading p a) = false →
            Completes (.submit f sq (.ok b)) s (fun t => t = u.acceptSub f x p ((x.hlen - 28) / 4))) ∧
          (∀ r, s.openPrompt f x key b = .error r → Completes (.submit f sq (.ok b)) s (fun t =>
            HostDone f x .auth 0 s t ∧ t.parts = s.parts)))) ∧
      (∀ b, s.hostReady f sq 0x30 x → (s.fn f).e2eKey = none → x.at 28 2 = 0xFFFF →
        (s.part p).adapters.contains 0xFFFF = false → Tbl.find (s.part p).seqs x.target = none →
        Completes (.submit f sq (.ok b)) s (fun t =>
          (HostDone f x .ok 0 s t ∧ Tbl.find (t.part p).seqs x.target =
            some { fn := f, ring := x.at 26 2, stream := x.at 24 2, adapter := 0xFFFF, pos := x.hlen / 4, left := x.at 30 2,
                   temp := x.at 32 4, topP := x.at 36 4, topK := x.at 40 2, seed := x.at 44 4, stop0 := x.at 48 4,
                   stop1 := x.at 52 4 }) ∨
          (HostDone f x .noResource 0 s t ∧ t.parts = s.parts))) ∧
      (∀ q g, s.hostReady f sq 0x31 x → Tbl.find (s.part p).seqs x.target = some q → (s.fn q.fn).e2eKey = none →
        Tbl.find (s.fn q.fn).rings q.ring = some g → g.pull = false → g.held = [] → g.tail - g.head < g.size →
        Completes (.cancel f sq) s (fun t => HostDone f x .ok 0 s t ∧ Tbl.find (t.part p).seqs x.target = none ∧
          SentToHost (.mem q.fn (g.base + 8 * (g.tail % g.size))
            (leBytes 8 (ringEntry 1 q.stream q.pos 3 + passBit g.size g.tail * 2 ^ 63))) s t)) ∧
      (s.hostReady f sq 0x31 x → Tbl.find (s.part p).seqs x.target ≠ none → Completes (.cancel f sq) s (fun t =>
        t = ((s.seqEnd p x.target kindEnd 3).drainSettle p).subDone f x.id .ok)) ∧
      (∀ cmd o, (o, cmd) ∈ [(0x31, Instr.cancel f sq), (0x38, .kvSend f sq)] → s.hostReady f sq o x →
        Tbl.find (s.part p).seqs x.target = none → Completes cmd s (fun t =>
        HostDone f x .stateConflict 0 s t ∧ t.parts = s.parts)) ∧
      (s.hostReady f sq 0x38 x → Tbl.find (s.part p).seqs x.target ≠ none → Completes (.kvSend f sq) s (fun t =>
        t.subStarted f x ∧ SameBut [.fns] s t)) ∧
      (∀ b a, s.hostReady f sq 0x39 x → a = x.at 28 2 →
        (Tbl.find (s.part p).seqs x.target ≠ none → Completes (.kvRecv f sq (.ok b)) s (fun t =>
          HostDone f x .stateConflict 0 s t ∧ t.parts = s.parts)) ∧
        (Tbl.find (s.part p).seqs x.target = none →
          ((s.part p).adapters.contains a = true → s.adapterLoading p a = true → Completes (.kvRecv f sq (.ok b)) s (fun t =>
            t = s.subHold f x.id)) ∧
          (((s.part p).adapters.contains a && s.adapterLoading p a) = false → Completes (.kvRecv f sq (.ok b)) s (fun t =>
            t = s.recvStart f x p)))) ∧
      (∀ b, s.hostReady f sq 0x39 x → x.at 28 2 = 0xFFFF → (s.part p).adapters.contains 0xFFFF = false →
        Tbl.find (s.part p).seqs x.target = none → Completes (.kvRecv f sq (.ok b)) s (fun t =>
          (t.subStarted f x ∨ HostDone f x .noResource 0 s t) ∧ t.parts = s.parts)) ∧
      (∀ h q v, Tbl.find (s.part p).seqs h = some q →
        (s.ringChoked q = false → q.left ≠ 0 → q.stopped = false → Completes (.tokenRingWrite p h 0 v) s (fun t =>
          Tbl.find (t.part p).seqs h = some { q with pos := q.pos + 1, left := q.left - 1, stopped := q.isStop v } ∧
          t.mem = s.mem)) ∧
        ((q.left = 0 ∨ q.stopped = true) → Completes (.tokenRingWrite p h 0 v) s (fun t => t = s)) ∧
        (q.mayEnd v = true → Completes (.tokenRingWrite p h 1 v) s (fun t =>
          t = (s.seqEnd p h kindEnd v).drainSettle p)) ∧
        (v ∈ lostCodes → Completes (.tokenRingWrite p h 2 v) s (fun t => Tbl.find (t.part p).seqs h = none ∧ t.mem = s.mem))) ∧
      (∀ h q g v, Tbl.find (s.part p).seqs h = some q → (s.fn q.fn).e2eKey = none → Tbl.find (s.fn q.fn).rings q.ring = some g →
        q.left ≠ 0 → q.stopped = false →
        g.pull = false → g.held = [] → g.full = false → g.tail - g.head < g.size → Completes (.tokenRingWrite p h 0 v) s (fun t =>
          SentToHost (.mem q.fn (g.base + 8 * (g.tail % g.size))
            (leBytes 8 (ringEntry 0 q.stream q.pos v + passBit g.size g.tail * 2 ^ 63))) s t ∧
          Tbl.find (t.part p).seqs h = some { q with pos := q.pos + 1, left := q.left - 1, stopped := q.isStop v } ∧ SameBut [.fns, .parts, .hostOut] s t))) ∧
    (∀ p, s.hostReady f sq 0x3A x → s.partOfTile x.target = some p →
      (s.reblocks.any (fun r => r.2.news.any (fun n => n.1 == x.target)) = false) → Completes (.refill f sq) s (fun t =>
        t.subStarted f x ∧ t.mem = s.mem ∧ ∃ r, r ∈ t.brim.refills ∧ r.fn = f ∧ r.sub = x.id ∧ r.ltile = x.target ∧
          r.src = x.at 24 2 ∧ r.mask = x.at 26 2)) ∧
    (∀ p, s.hostReady f sq 0x3A x → s.partOfTile x.target = some p →
      (s.reblocks.any (fun r => r.2.news.any (fun n => n.1 == x.target)) = true) → Completes (.refill f sq) s (fun t =>
        HostDone f x .stateConflict 0 s t ∧ SameBut [.fns, .hostOut] s t))

/-- R207, R228, R229, R231, R301: enabling the admin queue places queue 0 as its registers say; a function-level reset ends the
function's sequences without a ring entry and stops it until its commands have ended, when its queues, rings and registers but
APERTURE are at reset and FLR_DONE tells; PF0's takes every VF and VF Enable; PERST#, a hot reset and a link-down act as PF0's and
leave memory alone; the link trains when PERST# is deasserted, comes up at a width and speed R206 names, and reports a change
of them. -/
def Obligations.HostLinks : Prop :=
  ∀ (s : State) f, f < 32 → s.fnExists f = true →
    (∀ v, v.toNat % 2 = 1 → (s.fn f).cfg.d3hot = false → s.fld FN_CTL.EN f 0 = 0 → (s.fn f).flr = none → Completes (.fnCtlWrite f v) s (fun t =>
      t.fld FN_STAT.RDY f 0 = 1 ∧ t.fld FN_CTL.EN f 0 = 1 ∧
      (∃ q, Tbl.find (t.fn f).sqs 0 = some q ∧ q.base = s.fld ASQ_ACQ.BASE f 0 * 64 ∧ q.size = s.fld AQ_SIZE.ASQS f 0 + 1) ∧
      (∃ c, Tbl.find (t.fn f).cqs 0 = some c ∧ c.base = s.fld ASQ_ACQ.BASE f 1 * 64 ∧ c.size = s.fld AQ_SIZE.ACQS f 0 + 1) ∧
      SameBut [.regs, .fns] s t)) ∧
    (∀ v, v.toNat % 2 = 0 → (s.fn f).cfg.d3hot = false → s.fld FN_CTL.EN f 0 = 1 → (s.fn f).flr = none →
      Completes (.fnCtlWrite f v) s (fun t => (t.fn f).flr ≠ none ∧ (t.fn f).flrSoft = true ∧ t.fld FN_CTL.EN f 0 = 0 ∧
        t.mem = s.mem)) ∧
    (f ≠ 0 → (s.fn f).flr ≠ none → Completes (.functionLevelReset f) s (fun t => (t.fn f).flr = (s.fn f).flr ∧
      (t.fn f).flrSoft = false ∧ SameBut [.fns] s t)) ∧
    (∀ n, (s.fn f).flr = some n → (s.fn f).subs = [] → (s.fn f).flrSoft = true → Completes (.flrComplete f) s (fun t =>
      t.fn f = { cfg := (s.fn f).cfg } ∧ t.fld FN_STAT.RDY f 0 = 0 ∧ t.reg .HIF_ERR_DA f 0 = s.reg .HIF_ERR_DA f 0 ∧
      Raised .FLR_DONE 72 uBrim s t ∧ t.mem = s.mem)) ∧
    ((s.fn f).flr = none → Completes (.functionLevelReset f) s (fun t => (t.fn f).flr ≠ none ∧
      (∀ y, y ∈ (t.fn f).subs → y.busy = true) ∧
      (∀ p h q, Tbl.find (t.part p).seqs h = some q → q.fn ≠ f) ∧ t.hostOut = s.hostOut ∧ t.mem = s.mem ∧
      (f = 0 → t.pcie.vfEnable = false))) ∧
    (∀ n, (s.fn f).flr = some n → (s.fn f).subs = [] → (s.fn f).flrSoft = false → Completes (.flrComplete f) s (fun t =>
      t.fn f = {} ∧ t.reg .APERTURE f 0 = s.reg .APERTURE f 0 ∧ t.reg .HIF_ERR_DA f 0 = 0 ∧ t.fld FN_STAT.RDY f 0 = 0 ∧
      Raised .FLR_DONE 72 uBrim s t ∧ t.mem = s.mem)) ∧
    (∀ n, n ≤ 31 → Completes (.vfEnable n true) s (fun t => t.pcie.numVfs = n ∧ t.pcie.vfEnable = true ∧
      (∀ g, n < g → g < 32 → s.fnExists g = true → (t.fn g).flr ≠ none) ∧ t.mem = s.mem)) ∧
    (∀ n, Completes (.vfEnable n false) s (fun t => t.pcie.numVfs = min 31 n ∧ t.pcie.vfEnable = false ∧
      (∀ g, 0 < g → g < 32 → s.fnExists g = true → (t.fn g).flr ≠ none) ∧ t.mem = s.mem)) ∧
    Completes .perstAssert s (fun t => t.pcie.perst = true ∧ t.pcie.up = false ∧ t.pcie.training = false ∧
      t.pcie.vfEnable = false ∧ (t.fn 0).flr ≠ none ∧ t.mem = s.mem ∧ t.hostOut = s.hostOut) ∧
    (∀ k, s.pcie.perst = true → Completes (.perstDeassert k) s (fun t => t.pcie.perst = false ∧ t.pcie.sris = !k ∧
      t.pcie.training = (s.supply.on && s.linkMay) ∧ SameBut [.pcie] s t)) ∧
    (s.pcie.up = true → (Completes .hotReset s (fun t => t.pcie.up = false ∧ t.pcie.training = true ∧ (t.fn 0).flr ≠ none ∧
        t.mem = s.mem) ∧
      (∀ r st, Completes (.linkDown [(f, r, st)]) s (fun t => t.pcie.up = false ∧ t.pcie.training = !s.pcie.perst ∧
        t.fld HIF_ERR_STAT.PULL_LOST f 0 = satAdd 8 (s.fld HIF_ERR_STAT.PULL_LOST f 0) 1 ∧ t.mem = s.mem)) ∧
      (∀ l, Completes (.linkDown l) s (fun t => t.pcie.up = false ∧ t.pcie.training = (!s.pcie.perst) ∧ (t.fn 0).flr ≠ none ∧
        t.mem = s.mem)))) ∧
    (∀ w g u, linkLegal w g = true → u = { s with pcie := { s.pcie with training := false, up := true, width := w, speed := g } } →
      (s.pcie.training = true → Completes (.linkUp w g) s (fun t => t = (u.linkEvent w g).enterReady)) ∧
      (s.pcie.training = false → s.pcie.up = true → (w ≠ s.pcie.width ∨ g ≠ s.pcie.speed) → Completes (.linkUp w g) s (fun t =>
        t.pcie = u.pcie ∧ Raised .PCIE_LINK 72 uBrim s t ∧ SameBut [.pcie, .regs, .freeCtr, .events] s t))) ∧
    (∀ w g, linkLegal w g = true → s.pcie.training = true → s.hb.stage = 7 → Completes (.linkUp w g) s (fun t => t.pcie.up = true ∧
      t.pcie.training = false ∧ t.pcie.width = w ∧ t.pcie.speed = g ∧ Raised .PCIE_LINK 72 uBrim s t ∧
      SameBut [.pcie, .regs, .freeCtr, .events] s t))

/-! ## Brimlink (12) -/

/-- R234, R235, R238-R240, R249: a port keeps the widest width its good lanes allow, none below MINW; a partner starts
training; qualification and a retrain mark the bad lanes and bring the port UP at the width kept, or DOWN; a lane that fails
pauses the port where width or spare change; a pause ends UP at the kept width, or DOWN; FENCE takes the port to FENCED and its
clearing trains it again, or leaves it DOWN where it may not train; a packet without credit for 10 ms is discarded and counted. -/
def Obligations.BrimlinkPorts : Prop :=
  (∀ f bad, f < 2 ^ 17 → bad = maskBits 17 f →
    (bad.length ≤ 1 → (portWidth f none).1 = 3) ∧
    (2 ≤ bad.length → ∀ low, low = (bad.filter (· < 8)).length → ∀ high, high = (bad.filter (fun k => 8 ≤ k ∧ k < 16)).length →
      ((low = 0 ∨ high = 0 ∨ ((low = 1 ∨ high = 1) ∧ 16 ∉ bad)) → (portWidth f none).1 = 2) ∧
      (low ≠ 0 → high ≠ 0 → (low ≠ 1 ∧ high ≠ 1 ∨ 16 ∈ bad) →
        (portWidth f none).1 = if ∃ g, g < 4 ∧ ∀ k, k < 4 → 4 * g + k ∉ bad then 1 else 0))) ∧
  ∀ (s : State) p, p < 16 →
    (∀ f w, w = portWidth f (s.blPort p).spareFor → s.keptWidth p f =
      if w.1 = 0 ∨ (w.1 = 1 ∧ 1 ≤ s.fld PORT_CFG.MINW 0 p) ∨ (w.1 = 2 ∧ 2 ≤ s.fld PORT_CFG.MINW 0 p) then (0, none) else w) ∧
    (s.portState p = 0 → s.brimReady p = true → (s.hb.stage < 5 ∨ s.fld PORT_CFG.ROLE 0 p = 1) →
      Completes (.blPartnerDetect p) s (fun t => t.portState p = 1 ∧ t.fld PORT_STAT.LANE_FAIL 0 p = 0 ∧
        Raised .BL_PORT_STATE (72 + p / 4) uBrim s t ∧ SameBut [.regs, .brim, .freeCtr, .events] s t)) ∧
    (∀ bad : BitVec 17, ∀ f, f = s.fld PORT_STAT.LANE_FAIL 0 p ||| bad.toNat →
      ∀ c, c ∈ [Instr.blPortQualified p bad, .blRetrainEnd p bad] →
      (c = .blPortQualified p bad → s.portState p = 1) →
      (c = .blRetrainEnd p bad → s.portState p = 4 ∧ (s.blPort p).pause = 2) →
      ((s.keptWidth p f).1 ≠ 0 ∨ ∀ g, g < 64 → s.fld GRP_CFG.EN 0 g = 0) → Completes c s (fun t => t.fld PORT_STAT.LANE_FAIL 0 p = f ∧ t.fld PORT_STAT.WIDTH 0 p = (s.keptWidth p f).1 ∧
        t.portState p = (if (s.keptWidth p f).1 = 0 then 0 else 3) ∧
        ((s.keptWidth p f).1 ≠ 0 → t.fld PORT_STAT.SPARE_USED 0 p = (if (s.keptWidth p f).2.isSome then 1 else 0)) ∧
        RegsBut [(.PORT_STAT, 0, p), (.EVT_STAT, 0, 0)] s t ∧ SameBut [.regs, .brim, .freeCtr, .events] s t)) ∧
    (∀ bad : BitVec 17, s.portState p = 1 → Completes (.blPortQualified p bad) s (fun t =>
      t = (((s.setPortState p 2).failLanes p bad.toNat).setFld PORT_STAT.PLEVEL 0 p 1).portRise p (firstLane bad.toNat))) ∧
    (∀ (bad : BitVec 17) u, s.portState p = 4 → (s.blPort p).pause = 2 → u = s.failLanes p bad.toNat →
      Completes (.blRetrainEnd p bad) s (fun t => t = (u.setBlPort p { u.blPort p with replays := 0 }).portRise p
        (if bad = 0 then (s.blPort p).lane else firstLane bad.toNat))) ∧
    (∀ k f w, k < 17 → s.portState p = 4 → (s.fld PORT_STAT.LANE_FAIL 0 p).testBit k = false →
      f = s.fld PORT_STAT.LANE_FAIL 0 p ||| 2 ^ k → w = s.keptWidth p f → w.1 ≠ 0 → Completes (.blLaneFail p k) s (fun t =>
        t.fld PORT_STAT.LANE_FAIL 0 p = f ∧ t.portState p = 4 ∧ (t.blPort p).wait = (s.blPort p).wait ∧
        (t.blPort p).lane = k ∧ SameBut [.regs, .brim, .freeCtr, .events] s t)) ∧
    (∀ k u, k < 17 → (s.portState p = 3 ∨ s.portState p = 4) → (s.fld PORT_STAT.LANE_FAIL 0 p).testBit k = false →
      u = s.failLanes p (2 ^ k) → (s.keptWidth p (u.fld PORT_STAT.LANE_FAIL 0 p)).1 = 0 → Completes (.blLaneFail p k) s (fun t =>
        t = (u.setBlPort p { u.blPort p with lane := k }).portDrop p k)) ∧
    (∀ k f w, k < 17 → s.portState p = 3 → (s.fld PORT_STAT.LANE_FAIL 0 p).testBit k = false →
      f = s.fld PORT_STAT.LANE_FAIL 0 p ||| 2 ^ k → w = s.keptWidth p f → (s.blPort p).pause = 0 →
      (w.1 ≠ 0 ∨ ∀ g, g < 64 → s.fld GRP_CFG.EN 0 g = 0) → Completes (.blLaneFail p k) s (fun t => t.fld PORT_STAT.LANE_FAIL 0 p = f ∧
        t.portState p = (if w.1 = 0 then 0 else if w.1 = s.fld PORT_STAT.WIDTH 0 p ∧ w.2 = (s.blPort p).spareFor then 3 else 4) ∧
        (w.1 ≠ 0 → (t.blPort p).wait = (s.blPort p).wait) ∧ SameBut [.regs, .brim, .freeCtr, .events] s t)) ∧
    (∀ w, s.portState p = 4 → (s.blPort p).pause = 1 → w = s.keptWidth p (s.fld PORT_STAT.LANE_FAIL 0 p) → w.1 ≠ 0 →
      Completes (.blPortResume p) s (fun t => t.portState p = 3 ∧ t.fld PORT_STAT.WIDTH 0 p = w.1 ∧
        t.fld PORT_STAT.SPARE_USED 0 p = (if w.2.isSome then 1 else 0) ∧ SameBut [.regs, .brim, .freeCtr, .events] s t)) ∧
    (∀ w, s.portState p = 4 → (s.blPort p).pause = 1 → w = s.keptWidth p (s.fld PORT_STAT.LANE_FAIL 0 p) → w.1 = 0 →
      Completes (.blPortResume p) s (fun t => t = s.portDrop p (s.blPort p).lane)) ∧
    (∀ a, s.denied a (.brimCsr (p / 4) (0x100000 + 0x100 * (p % 4))) = none →
      Completes (.blPortFence a p) s (fun t => t = s.portFence p true) ∧
      (s.portState p ≠ 5 → (∀ g, g < 64 → s.fld GRP_CFG.EN 0 g = 0) → Completes (.blPortFence a p) s (fun t => t.portState p = 5 ∧ t.fld PORT_CFG.FENCE 0 p = 1 ∧
        t.fld PORT_STAT.WIDTH 0 p = 0 ∧ t.blPort p = {} ∧ LastRaised .BL_PORT_STATE (72 + p / 4) uBrim t ∧
        SameBut [.regs, .brim, .freeCtr, .events] s t)) ∧
      (s.portState p = 5 → s.brimReady p = true → (s.hb.stage < 5 ∨ s.fld PORT_CFG.ROLE 0 p = 1) →
        Completes (.blPortUnfence a p) s (fun t => t.portState p = 1 ∧ t.fld PORT_CFG.FENCE 0 p = 0 ∧
          Raised .BL_PORT_STATE (72 + p / 4) uBrim s t ∧ SameBut [.regs, .brim, .freeCtr, .events] s t)) ∧
      (s.portState p = 5 → s.portMayTrain p = false → Completes (.blPortUnfence a p) s (fun t => t.portState p = 0 ∧
        t.fld PORT_CFG.FENCE 0 p = 0 ∧ SameBut [.regs, .freeCtr, .events] s t))) ∧
    (∀ a c, c ∈ [Instr.blPortFence a p, .blPortUnfence a p] →
      s.denied a (.brimCsr (p / 4) (0x100000 + 0x100 * (p % 4))) ≠ none →
      Completes c s (fun t => t.portState p = s.portState p ∧ t.fld PORT_CFG.FENCE 0 p = s.fld PORT_CFG.FENCE 0 p ∧
        SameBut [.regs, .freeCtr, .events] s t)) ∧
    (∀ vc i k, (s.blPort p).nextOf vc = some (i, k) → (s.blPort p).credits.getD vc 0 = 0 →
      Completes (.blCreditWaitExpiry p vc) s (fun t =>
        t.fld PORT_STAT.STUCK 0 p = satAdd 3 (s.fld PORT_STAT.STUCK 0 p) 1 ∧ SameBut [.regs, .brim, .freeCtr, .events] s t)) ∧
    (∀ vc k, (s.blPort p).wait = [k] → (s.blPort p).cur = [] → vcOf k.typ = vc → (s.blPort p).credits.getD vc 0 = 0 →
      s.withheld .BL_STUCK_DISCARD (72 + p / 4) uBrim p = false →
      Completes (.blCreditWaitExpiry p vc) s (fun t => (t.blPort p).wait = [] ∧ t.brim.sent = s.brim.sent ∧
        t.fld PORT_STAT.STUCK 0 p = satAdd 3 (s.fld PORT_STAT.STUCK 0 p) 1 ∧
        Raised .BL_STUCK_DISCARD (72 + p / 4) uBrim s t ∧ SameBut [.regs, .brim, .freeCtr, .events] s t))

/-- R234, R236, R237, R241-R245, R247, R248, R410, R411: a message under an open session leaves sealed, with the next PN, where the
port has credit; a transit packet that arrives on an UP port leaves on PRI, else on ALT, with TTL one less, or is lost for want of
a route or of TTL; a packet for this module is delivered by the command of its type (data not while its channel is held); a packet that fails authentication or is not admitted is counted and has no effect; MGMT reaches the Hatband; a flit out of CRC is
discarded, an accepted one returns credits and joins its packet; sessions open, are refused, time out and end their grace. -/
def Obligations.BrimlinkPackets : Prop :=
  ∀ (s : State),
    (∀ m q, m.port = none → s.canSend m.dst m.body.length (vcOf m.typ) q → PacketSent m q s (s.blSend m) ∧
      SameBut [.brim] s (s.blSend m)) ∧
    (∀ k c, (c, k.typ) ∈ [(Instr.open_ k, 0), (.accept k, 1), (.reject k, 2), (.data k, 3), (.close k, 4), (.missing k, 5),
        (.done k, 6), (.abort k, 7), (.refillReq k, 8), (.coll k, 9), (.blMgmt k, 0xA)] → k.dst = s.moduleId →
      (k.typ = 3 → s.dataHeld k = false) → Completes c s (fun t =>
        t = State.blDeliver { s with brim := { s.brim with looped := s.brim.looped.erase k } } k none)) ∧
    (∀ p k, s.portState p = 3 → s.brim.fenced.contains (p / 4) = false → k.dst = s.moduleId →
      (k.typ = 3 → s.dataHeld k = false) → Completes (.blForward p k) s (fun t => t = s.blDeliver k (some p))) ∧
    (∀ p q k v, p < 16 → s.portState p = 3 → s.brim.fenced.contains (p / 4) = false → k.dst ≠ s.moduleId → k.dst < 4096 →
      (k.ttl ≠ 0 → s.blRoute k.dst = some q → Completes (.blForward p k) s (fun t =>
        t = s.portSend q { k with ttl := k.ttl - 1 })) ∧
      (k.ttl = 0 → s.withheld .BL_TTL_EXPIRED (72 + p / 4) uBrim p = false → Completes (.blForward p k) s (fun t =>
        Raised .BL_TTL_EXPIRED (72 + p / 4) uBrim s t ∧ SameBut [.regs, .freeCtr, .events] s t)) ∧
      (k.ttl ≠ 0 → s.fld BL_ROUTE.V 0 k.dst = 1 →
        (q = s.fld BL_ROUTE.PRI 0 k.dst ∨ (s.portState (s.fld BL_ROUTE.PRI 0 k.dst) ∉ [3, 4] ∧
          s.fld BL_ROUTE.ALT_V 0 k.dst = 1 ∧ q = s.fld BL_ROUTE.ALT 0 k.dst)) →
        s.portState q = 3 → v = vcOf k.typ → 0 < k.nflit → k.nflit ≤ (s.blPort q).credits.getD v 0 →
        (s.blPort q).replay.length + k.nflit ≤ 2048 → (s.blPort q).wait = [] → (s.blPort q).cur = [] →
        Completes (.blForward p k) s (fun t => t.brim.sent = s.brim.sent ++ [(q, { k with ttl := k.ttl - 1 })] ∧
          (t.blPort q).unacked = (s.blPort q).unacked + k.nflit ∧
          (t.blPort q).credits = (s.blPort q).credits.set v ((s.blPort q).credits.getD v 0 - k.nflit) ∧
          SameBut [.brim] s t)) ∧
      (k.ttl ≠ 0 → s.fld BL_ROUTE.V 0 k.dst = 0 → s.withheld .BL_NO_ROUTE (72 + p / 4) uBrim p = false →
        Completes (.blForward p k) s (fun t => t.fld SEC_STAT.NO_ROUTE 0 0 = satAdd 16 (s.fld SEC_STAT.NO_ROUTE 0 0) 1 ∧
          Raised .BL_NO_ROUTE (72 + p / 4) uBrim s t ∧ SameBut [.regs, .freeCtr, .events] s t))) ∧
    (∀ k c, (c, k.typ) ∈ [(Instr.accept k, 1), (.reject k, 2), (.close k, 4), (.missing k, 5), (.done k, 6), (.abort k, 7),
        (.coll k, 9)] → k.dst = s.moduleId →
      ((s.session k.src = none ∨ (∃ z, s.session k.src = some z ∧ k.epoch = z.epoch ∧
          (k.pn + 65536 ≤ z.window.top ∨ k.pn ∈ z.window.seen ∨
            Config.blOpen (sessionKey z.secret (dirOf k.src s.moduleId)) (sessionSalt z.secret (dirOf k.src s.moduleId)) k.pn
              (pktHeader k 0) k.body k.tag = none)) ∨
          (∃ z, s.session k.src = some z ∧ k.epoch ≠ z.epoch ∧ z.prev = none)) →
        s.withheld .BL_AUTH_FAIL 72 uBrim 16 = false →
        Completes c s (fun t => t.fld SEC_STAT.AUTH_FAIL 0 0 = satAdd 32 (s.fld SEC_STAT.AUTH_FAIL 0 0) 1 ∧
          Raised .BL_AUTH_FAIL 72 uBrim s t ∧ t.brim = { s.brim with looped := s.brim.looped.erase k } ∧
          SameBut [.regs, .brim, .freeCtr, .events] s t)) ∧
      (∀ b, (s.authenticate k).2 = .ok b → s.admits k.dpt k.src = false → s.withheld .BL_PEER_REFUSED 72 uBrim 16 = false →
        Completes c s (fun t => t.fld SEC_STAT.PEER_REFUSED 0 0 = satAdd 16 (s.fld SEC_STAT.PEER_REFUSED 0 0) 1 ∧
          Raised .BL_PEER_REFUSED 72 uBrim s t ∧ t.brim.xfers = s.brim.xfers ∧ t.brim.groups = s.brim.groups ∧
          SameBut [.regs, .brim, .freeCtr, .events] s t))) ∧
    (∀ k z b, s.session k.src = some z → k.epoch = z.epoch → z.window.top < k.pn + 65536 → k.pn ∉ z.window.seen →
      Config.blOpen (sessionKey z.secret (dirOf k.src s.moduleId)) (sessionSalt z.secret (dirOf k.src s.moduleId)) k.pn
        (pktHeader k 0) k.body k.tag = some b →
      (s.authenticate k).2 = .ok b ∧ ((s.authenticate k).1.authenticate k).2 = .error 2) ∧
    (∀ k, k.dst = s.moduleId → k.typ = 0xA → k.pn = 0 → k.tag = 0 → Completes (.blMgmt k) s (fun t =>
      t.brim.mgmtIn = s.brim.mgmtIn ++ [(k.src, k.body)] ∧ SameBut [.brim] s t)) ∧
    (∀ p (f : BlFlit) h x, p < 16 → s.portState p = 3 → h = f.header.toNat → x = s.blPort p →
      ((f.fecOk = false ∨ bitsOf h 19 18 = 3 ∨ flitCrc x.rxSeq (bitsOf h 31 0) f.payload ≠ bitsOf h 63 32) →
        Completes (.blFlitRx p f) s (fun t => t.fld PORT_STAT.CRC_ERR 0 p = satAdd 16 (s.fld PORT_STAT.CRC_ERR 0 p) 1 ∧
          (t.blPort p).rxSeq = x.rxSeq ∧ (t.blPort p).naked = true ∧ (t.blPort p).part = x.part ∧
          (x.naked = false → ∃ g, t.brim.flits = s.brim.flits ++ [(p, g)] ∧ bitsOf g.header.toNat 19 18 = 2) ∧
          RegsBut [(.PORT_STAT, 0, p)] s t ∧ SameBut [.regs, .brim, .freeCtr] s t)) ∧
      (f.fecOk = true → flitCrc x.rxSeq (bitsOf h 31 0) f.payload = bitsOf h 63 32 → x.wait = [] → x.cur = [] →
        ((bitsOf h 19 18 = 0 ∧ bitsOf h 14 14 = 0) ∨ bitsOf h 19 18 = 1) →
        Completes (.blFlitRx p f) s (fun t => (t.blPort p).rxSeq = (x.rxSeq + 1) % 4096 ∧ (t.blPort p).naked = false ∧
          (t.blPort p).credits = x.credits.set (bitsOf h 13 12) (x.credits.getD (bitsOf h 13 12) 0 + bitsOf h 11 6) ∧
          Tbl.find (t.blPort p).part (bitsOf h 17 16) = (if bitsOf h 19 18 = 1 then Tbl.find x.part (bitsOf h 17 16)
            else some ((if bitsOf h 15 15 = 1 then [] else (Tbl.find x.part (bitsOf h 17 16)).getD []) ++ f.payload)) ∧
          t.brim.sent = s.brim.sent ∧ SameBut [.brim] s t))) ∧
    (∀ m svn, s.nv.fleetMinSvn ≤ svn → (∃ p, p < 8 ∧ s.admits p m = true) → Completes (.fleetSessionSetup m true svn) s (fun t =>
      t = s.openSession m)) ∧
    (∀ m svn, (∀ w, w ∈ s.brim.waiting → w.dst ≠ m) →
      (s.nv.fleetMinSvn ≤ svn → (∃ p, p < 8 ∧ s.admits p m = true) → Completes (.fleetSessionSetup m true svn) s (fun t =>
        (∃ z, t.session m = some z ∧ z.epoch = 0 ∧ z.txPn = 1 ∧ z.window = {} ∧ z.prev = none) ∧
        Raised .FLEET_SESSION (72 + s.hb.active) uHatband s t ∧ SameBut [.regs, .brim, .freeCtr, .events] s t)) ∧
      (∀ ok, ok = false ∨ svn < s.nv.fleetMinSvn ∨ (∀ p, p < 8 → s.admits p m = false) →
        Completes (.fleetSessionSetup m ok svn) s (fun t => t.brim.sessions = s.brim.sessions ∧
          Raised .FLEET_SESSION (72 + s.hb.active) uHatband s t ∧ SameBut [.regs, .brim, .freeCtr, .events] s t))) ∧
    (∀ m w l, s.session m = none → l = s.brim.waiting.filter (fun w => w.dst == m) → w ∈ l →
      Completes (.fleetSessionTimeout m) s (fun t => t.brim.waiting = s.brim.waiting.filter (fun w => w.dst != m) ∧
        t.fld SEC_STAT.AUTH_FAIL 0 0 = satAdd 32 (s.fld SEC_STAT.AUTH_FAIL 0 0) l.length ∧
        SameBut [.regs, .brim, .freeCtr, .events] s t)) ∧
    (∀ m z, s.session m = some z → z.fresh = false → Completes (.epochGraceEnd m) s (fun t =>
      t.session m = some { z with prev := none } ∧ SameBut [.brim] s t))

/-- R250-R255: bad doorbells are ignored and reported; SEND opens a transfer, RECV arms an XID and clears its bitmap,
a descriptor that breaks the table completes with BAD_FORMAT; an OPEN is accepted, or rejected with NO_RESOURCE or
STATE_CONFLICT, the armed transfer ending with NO_RESOURCE too; ACCEPT and MISSING send the packets and CLOSE; DATA writes its bytes and sets its bit; CLOSE answers
DONE, MISSING, or ends the transfer with INTEGRITY or AUTH; DONE, REJECT, ABORT and the time limits end it with their
status and the packets known to be missing, in the completion record and then at the semaphore; a REFILL_REQ that holds starts a transfer of the weights.
Body layouts are those of logs 40 and 73. -/
def Obligations.BulkTransfers : Prop :=
  ∀ (s : State) q,
    (∀ a die pt (val : Word) c j, (c, j) ∈ [(Instr.sendDoorbell a die pt val, 0), (.recvDoorbell a die pt val, 8),
        (.collDoorbell a die pt val, 16)] → (a = .hatband ∨ s.agentPt a = some pt) →
      s.bellHeld die pt val.toNat = false →
      (bitsOf val.toNat 39 0 % 64 ≠ 0 ∨ (j ≠ 16 ∧ s.descAt val.toNat = false) ∨ (j = 16 ∧ s.descAt (bitsOf val.toNat 39 0) = false) ∨
        (j = 16 ∧ s.fld GRP_CFG.PT 0 (bitsOf val.toNat 63 58) ≠ pt)) →
      Completes c s (fun t => Raised .BL_DOORBELL_BAD (72 + die) uBrim s t ∧
        SameBut [.regs, .freeCtr, .events] s t)) ∧
    (∀ a die pt (val : Word), (a = .hatband ∨ s.agentPt a = some pt) → s.bellHeld die pt val.toNat = false →
      Completes (.sendDoorbell a die pt val) s (fun t => t = s.sendBell die pt val.toNat) ∧
      Completes (.recvDoorbell a die pt val) s (fun t => t = s.recvBell die pt val.toNat)) ∧
    (∀ a die pt (val : Word) c o d, (a = .hatband ∨ s.agentPt a = some pt) → val.toNat % 64 = 0 →
      s.bellHeld die pt val.toNat = false →
      s.sramAt .read (.brimlink die pt) val.toNat 64 c o → d = leNat (memBytes s.mem (sramByte c o) 64) → bitsOf d 215 215 = 0 →
      (bitsOf d 391 368 % 256 = 0 ∧ bitsOf d 391 368 ≠ 0 ∧ bitsOf d 214 0 = 0 ∧ s.sramWord (bitsOf d 471 432) = true →
        (s.canSend (bitsOf d 295 284) 13 0 q → Completes (.sendDoorbell a die pt val) s (fun t =>
          (∃ x, Tbl.find t.brim.xfers s.brim.nextXfer = some x ∧ x.sender = true ∧ x.phase = 0 ∧ x.peer = bitsOf d 295 284) ∧
          PacketSent { dst := bitsOf d 295 284, dpt := 0, spt := pt, typ := 0,
                       body := leBytes 4 (bitsOf d 327 296) ++ leBytes 8 (bitsOf d 367 328) ++ leBytes 1 (bitsOf d 215 215) } q s t ∧
          SameBut [.brim] s t)) ∧
        (s.session (bitsOf d 295 284) = none → Completes (.sendDoorbell a die pt val) s (fun t =>
          (∃ x, Tbl.find t.brim.xfers s.brim.nextXfer = some x ∧ x.sender = true ∧ x.phase = 0 ∧ x.peer = bitsOf d 295 284 ∧
            x.total = bitsOf d 367 328 ∧ x.matchId = bitsOf d 327 296 ∧ x.mask = bitsOf d 283 268 ∧ x.pt = pt) ∧
          t.brim.nextXfer = s.brim.nextXfer + 1 ∧
          (∃ m, t.brim.waiting = s.brim.waiting ++ [m] ∧ m.typ = 0 ∧ m.dst = bitsOf d 295 284 ∧ m.spt = pt ∧
            m.body = leBytes 4 (bitsOf d 327 296) ++ leBytes 8 (bitsOf d 367 328) ++ leBytes 1 0) ∧ SameBut [.brim] s t)) ∧
        (bitsOf d 267 256 / 512 = pt → (∀ y, y ∈ s.brim.xfers → y.2.sender = false → y.2.xid ≠ bitsOf d 267 256) →
          ∀ cb ob n, n = (xferPkts (bitsOf d 367 328) + 7) / 8 → n ≤ 256 →
          s.sramAt .write (.brimlink die pt) (bitsOf d 255 216) n cb ob →
          Completes (.recvDoorbell a die pt val) s (fun t =>
            (∃ x, Tbl.find t.brim.xfers s.brim.nextXfer = some x ∧ x.sender = false ∧ x.phase = 0 ∧
              x.xid = bitsOf d 267 256 ∧ x.peer = bitsOf d 295 284 ∧ x.total = bitsOf d 367 328) ∧
            (∀ j, j < n → memByte t.mem (sramByte cb (ob + j)) = 0) ∧ MemBut (sramByte cb ob) n s t ∧
            SameBut [.brim, .mem] s t))) ∧
      (∀ cmd, cmd ∈ [Instr.sendDoorbell a die pt val, .recvDoorbell a die pt val] →
        (bitsOf d 391 368 % 256 ≠ 0 ∨ bitsOf d 391 368 = 0 ∨ bitsOf d 214 0 ≠ 0 ∨ s.sramWord (bitsOf d 471 432) = false ∨
          (cmd = .recvDoorbell a die pt val ∧ bitsOf d 267 256 / 512 ≠ pt) ∨
          (cmd = .recvDoorbell a die pt val ∧ ∃ y, y ∈ s.brim.xfers ∧ y.2.sender = false ∧ y.2.xid = bitsOf d 267 256)) →
        Completes cmd s (fun t => Tbl.find t.brim.xfers s.brim.nextXfer = none ∧ t.brim.sent = s.brim.sent ∧
          RecordWritten (.brimlink die pt) (bitsOf d 511 472) (bitsOf d 471 432)
            (xferRecord 0x0D 0 (if cmd = .recvDoorbell a die pt val then bitsOf d 267 256 else 0)) s t))) ∧
    (∀ k b mt tot, k.typ = 0 → s.accepts k b → mt = leNat (b.take 4) → tot = leNat ((b.drop 4).take 8) →
      (∀ n x, s.oneXfer (fun y => y.sender = false ∧ y.matchId = mt ∧ y.peer = k.src ∧ s.admits y.pt k.src = true) n x →
        x.phase = 0 →
        (tot ≤ x.total → s.canSend k.src 10 1 q → Completes (.open_ k) s (fun t =>
          Tbl.find t.brim.xfers n = some { x with phase := 1, total := tot } ∧
          PacketSent { dst := k.src, dpt := k.spt, spt := x.pt, typ := 1,
                       body := leBytes 4 mt ++ leBytes 2 x.xid ++ leBytes 4 (xferPkts tot) } q s t ∧ SameBut [.brim] s t)) ∧
        (∀ u, x.total < tot → u = (State.authenticate { s with brim := { s.brim with looped := s.brim.looped.erase k } } k).1 →
          Completes (.open_ k) s (fun t =>
            t = (u.xferEnd n x .noResource).blSend (rejectMsg k.src k.spt x.pt mt .noResource))) ∧
        (x.total < tot → x.sub = none → x.hatband = false → Completes (.open_ k) s (fun t => Tbl.find t.brim.xfers n = none ∧
          RecordWritten x.agent x.statDa x.semDa (xferRecord 0x0E 0 x.xid) s t))) ∧
      (∀ n x, s.oneXfer (fun y => y.sender = false ∧ y.matchId = mt ∧ y.peer = k.src ∧ s.admits y.pt k.src = true) n x →
        x.phase = 1 → s.canSend k.src 10 1 q → Completes (.open_ k) s (fun t => Tbl.find t.brim.xfers n = some x ∧
          PacketSent { dst := k.src, dpt := k.spt, spt := x.pt, typ := 1,
                       body := leBytes 4 mt ++ leBytes 2 x.xid ++ leBytes 4 (xferPkts x.total) } q s t ∧ SameBut [.brim] s t)) ∧
      ((∀ y, y ∈ s.brim.xfers → y.2.sender = true ∨ y.2.matchId ≠ mt ∨ y.2.peer ≠ k.src ∨ s.admits y.2.pt k.src = false) →
        s.canSend k.src 5 1 q → Completes (.open_ k) s (fun t => t.brim.xfers = s.brim.xfers ∧
          PacketSent { dst := k.src, dpt := k.spt, spt := 0, typ := 2, body := leBytes 4 mt ++ leBytes 1 0x0C } q s t ∧
          SameBut [.brim] s t))) ∧
    (∀ k b n x xid c cm om cd od da z, s.accepts k b → s.session k.src = some z → z.txPn + 2 < 2 ^ 47 →
      ((c = .accept k ∧ k.typ = 1 ∧ s.oneXfer (fun y => y.sender = true ∧ y.matchId = leNat (b.take 4) ∧ y.peer = k.src ∧ y.phase < 2) n x ∧
          xid = leNat ((b.drop 4).take 2)) ∨
        (c = .missing k ∧ k.typ = 5 ∧ xid = leNat (b.take 2) ∧ leNat ((b.drop 3).take 2) = 1 ∧ leNat ((b.drop 5).take 4) = 0 ∧
          s.oneXfer (fun y => y.sender = true ∧ y.xid = xid ∧ y.peer = k.src ∧ y.phase = 2) n x)) →
      x.hatband = false → x.weights = false → 0 < x.total → x.total ≤ 256 → x.total ≤ x.unit → (x.mask = 0 ∨ (x.mask = 2 ^ q ∧ q < 16)) →
      s.sramAt .read x.agent x.mapDa 8 cm om → da = leNat (memBytes s.mem (sramByte cm om) 8) % 2 ^ 40 →
      s.sramAt .read x.agent da x.total cd od → s.canSend k.src x.total 2 q → s.canSend k.src 6 0 q →
      (s.blPort q).replay.length + flitsFor x.total + 1 ≤ 2048 →
      Completes c s (fun t => ∃ k1 k2, t.brim.sent = s.brim.sent ++ [(q, k1), (q, k2)] ∧
        k1.typ = 3 ∧ k1.pn = z.txPn ∧ k1.fields = xid * 2 ^ 84 + x.total * 2 ^ 39 ∧ k1.dst = k.src ∧
        (k1.body, k1.tag) = Config.blSeal (sessionKey z.secret (dirOf s.moduleId k.src))
          (sessionSalt z.secret (dirOf s.moduleId k.src)) k1.pn (pktHeader k1 0) (padBody (memBytes s.mem (sramByte cd od) x.total)) ∧
        k2.typ = 4 ∧ k2.pn = z.txPn + 1 ∧ k2.dst = k.src ∧
        (∃ y, Tbl.find t.brim.xfers n = some y ∧ y.phase = 2 ∧ y.xid = xid) ∧ SameBut [.brim] s t)) ∧
    (∀ k b n x off len w cm om cd od cb ob, k.typ = 3 → s.accepts k b → s.dataHeld k = false → x.hatband = false → k.dpt = x.pt →
      s.oneXfer (fun y => y.sender = false ∧ y.xid = bitsOf k.fields 95 84 ∧ y.peer = k.src ∧ y.pt = k.dpt ∧ y.phase = 1) n x →
      off = 8 * bitsOf k.fields 83 53 → len = bitsOf k.fields 52 39 → off = 0 → len = x.total → 0 < len → len ≤ 256 →
      len ≤ x.unit → len ≤ b.length → s.sramAt .read x.agent x.mapDa 8 cm om →
      s.sramAt .write x.agent (leNat (memBytes s.mem (sramByte cm om) 8) % 2 ^ 40) len cd od →
      s.sramAt .read x.agent x.bitmap 1 cb ob → s.sramAt .write x.agent x.bitmap 1 cb ob →
      (cd ≠ cb ∨ ob < od ∨ od + len ≤ ob) → w = leNat (memBytes s.mem (sramByte cb ob) 1) →
      Completes (.data k) s (fun t => memBytes t.mem (sramByte cd od) len = b.take len ∧
        leNat (memBytes t.mem (sramByte cb ob) 1) = w ||| 1 ∧ t.brim.xfers = s.brim.xfers ∧
        SameBut [.mem, .brim] s t)) ∧
    (∀ k b n x np v lack cb ob, k.typ = 4 → s.accepts k b → x.sub = none → x.hatband = false → x.weights = false →
      s.oneXfer (fun y => y.sender = false ∧ y.xid = leNat (b.take 2) ∧ y.peer = k.src ∧ y.pt = k.dpt ∧ y.phase = 1) n x →
      np = xferPkts x.total → 0 < np → np ≤ 2048 → s.sramAt .read x.agent x.bitmap ((np + 7) / 8) cb ob →
      v = leNat (memBytes s.mem (sramByte cb ob) ((np + 7) / 8)) → lack = (List.range np).filter (fun i => !v.testBit i) →
      (lack = [] → Completes (.close k) s (fun t => Tbl.find t.brim.xfers n = none ∧
        RecordWritten x.agent x.statDa x.semDa (xferRecord 0 0 x.xid) s t)) ∧
      (lack ≠ [] → x.rounds < 3 → s.canSend k.src (5 + 4 * lack.length) 1 q → Completes (.close k) s (fun t =>
        Tbl.find t.brim.xfers n = some { x with rounds := x.rounds + 1 } ∧
        PacketSent { dst := x.peer, dpt := k.spt, spt := x.pt, typ := 5,
                     body := leBytes 2 x.xid ++ leBytes 1 (x.rounds + 1) ++ leBytes 2 lack.length ++
                       lack.flatMap (leBytes 4) } q s t ∧ SameBut [.brim] s t)) ∧
      (lack ≠ [] → 3 ≤ x.rounds → Completes (.close k) s (fun t => Tbl.find t.brim.xfers n = none ∧
        RecordWritten x.agent x.statDa x.semDa (xferRecord (if x.authFail then 0x20 else 0x10) lack.length x.xid) s t))) ∧
    (∀ k b n x c st miss, s.accepts k b → x.sub = none → x.hatband = false →
      ((x.sender = true ∧ miss = (if c = .done k ∧ st = .ok then 0 else x.missing)) ∨ (x.sender = false ∧ x.phase = 0 ∧ miss = 0) ∨
        (x.sender = false ∧ x.phase ≠ 0 ∧ 0 < xferPkts x.total ∧ xferPkts x.total ≤ 2048 ∧
          ∃ cb ob, s.sramAt .read x.agent x.bitmap ((xferPkts x.total + 7) / 8) cb ob ∧
            miss = ((List.range (xferPkts x.total)).filter (fun i =>
              !(leNat (memBytes s.mem (sramByte cb ob) ((xferPkts x.total + 7) / 8))).testBit i)).length)) →
      ((c = .done k ∧ k.typ = 6 ∧ st = Status.ofCode (leNat ((b.drop 2).take 1)) ∧
          s.oneXfer (fun y => y.sender = true ∧ y.xid = leNat (b.take 2) ∧ y.peer = k.src ∧ y.phase = 2) n x) ∨
        (c = .abort k ∧ k.typ = 7 ∧ st = Status.ofCode (leNat ((b.drop 4).take 1)) ∧
          s.oneXfer (fun y => y.peer = k.src ∧ ((y.phase = (if y.sender then 2 else 1) ∧ y.xid = leNat (b.take 4)) ∨
            (y.phase < 2 ∧ y.matchId = leNat (b.take 4)))) n x) ∨
        (c = .reject k ∧ k.typ = 2 ∧ st = Status.ofCode (leNat ((b.drop 4).take 1)) ∧ st ≠ .stateConflict ∧
          s.oneXfer (fun y => y.sender = true ∧ y.matchId = leNat (b.take 4) ∧ y.peer = k.src ∧ y.phase < 2) n x)) →
      Completes c s (fun t => Tbl.find t.brim.xfers n = none ∧ t.brim.sent = s.brim.sent ∧
        RecordWritten x.agent x.statDa x.semDa (xferRecord st.code miss x.xid) s t)) ∧
    (∀ k b n x, k.typ = 2 → s.accepts k b → Status.ofCode (leNat ((b.drop 4).take 1)) = .stateConflict →
      s.oneXfer (fun y => y.sender = true ∧ y.matchId = leNat (b.take 4) ∧ y.peer = k.src ∧ y.phase < 2) n x →
      Completes (.reject k) s (fun t =>
        Tbl.find t.brim.xfers n = some { x with phase := 1, reject := some .stateConflict } ∧ SameBut [.brim] s t)) ∧
    (∀ n x, Tbl.find s.brim.xfers n = some x →
      (x.sender = true → x.phase = 1 → s.canSend x.peer 13 0 q → Completes (.openRetryTimer n) s (fun t =>
        Tbl.find t.brim.xfers n = some { x with phase := 0 } ∧
        PacketSent { dst := x.peer, dpt := 0, spt := x.pt, typ := 0,
                     body := leBytes 4 x.matchId ++ leBytes 8 x.total ++ leBytes 1 (if x.weights then 1 else 0) } q s t ∧
        SameBut [.brim] s t)) ∧
      (x.sub = none → x.hatband = false → (x.sender = true → x.phase < 2 → Completes (.openTimeout n) s (fun t =>
        Tbl.find t.brim.xfers n = none ∧ t.brim.sent = s.brim.sent ∧
        RecordWritten x.agent x.statDa x.semDa (xferRecord (x.reject.getD .aborted).code x.missing x.xid) s t)) ∧
      (x.sender = true → x.phase = 2 → Completes (.xferInactivityTimeout n) s (fun t =>
        Tbl.find t.brim.xfers n = none ∧ t.brim.sent = s.brim.sent ∧
        RecordWritten x.agent x.statDa x.semDa (xferRecord 0x02 x.missing x.xid) s t))) ∧
      (x.sender = true → x.phase < 2 → Completes (.openTimeout n) s (fun t => t = s.xferFail n x (x.reject.getD .aborted))) ∧
      ((x.phase = (if x.sender then 2 else 1) ∨ (x.sender = false ∧ x.sub.isSome = true)) →
        Completes (.xferInactivityTimeout n) s (fun t => t = s.xferFail n x .aborted))) ∧
    (∀ k b, k.typ = 8 → s.accepts k b → s.partOfTile (leNat ((b.drop 4).take 1)) = none → s.canSend k.src 5 1 q →
      Completes (.refillReq k) s (fun t => t.brim.xfers = s.brim.xfers ∧
        PacketSent { dst := k.src, dpt := k.spt, spt := 0, typ := 2, body := leBytes 4 (leNat (b.take 4)) ++ leBytes 1 0x0C } q s t ∧
        SameBut [.brim] s t)) ∧
    (∀ k b l pt, k.typ = 8 → s.accepts k b → l = leNat ((b.drop 4).take 1) → s.partOfTile l = some pt →
      ((s.part pt).state < 2 → s.admits pt k.src = true → (s.part pt).weight = some (BitVec.ofNat 512 (leNat ((b.drop 5).take 64))) →
        s.canSend k.src 13 0 q → Completes (.refillReq k) s (fun t =>
          (∃ x, Tbl.find t.brim.xfers s.brim.nextXfer = some x ∧ x.sender = true ∧ x.hatband = true ∧ x.weights = true ∧
            x.peer = k.src ∧ x.matchId = leNat (b.take 4) ∧ x.ranges = s.weightRegions l ∧
            PacketSent { dst := k.src, dpt := 0, spt := pt, typ := 0,
                         body := leBytes 4 x.matchId ++ leBytes 8 x.total ++ leBytes 1 1 } q s t) ∧
          SameBut [.brim, .freeCtr] s t)) ∧
      ((2 ≤ (s.part pt).state ∨ s.admits pt k.src = false ∨
          (s.part pt).weight ≠ some (BitVec.ofNat 512 (leNat ((b.drop 5).take 64)))) → s.canSend k.src 5 1 q →
        Completes (.refillReq k) s (fun t => t.brim.xfers = s.brim.xfers ∧
          PacketSent { dst := k.src, dpt := k.spt, spt := pt, typ := 2, body := leBytes 4 (leNat (b.take 4)) ++ leBytes 1 0x0C } q s t ∧
          SameBut [.brim] s t)))

/-- R257-R262: a BARRIER or a BROADCAST of a group of one member completes at its doorbell, with the result, the
record, the semaphore and SEQ_DONE; a descriptor that breaks R258 completes with BAD_FORMAT and sends nothing; a COLL
packet of no enabled group or of another SEQ is discarded and counted; LATE is counted and reported; LOST, and a
silent child, end the group with MEMBER_LOST and clear EN; a deadline that passes sends LATE to those that wait for this member.
Body layouts are those of log 41. -/
def Obligations.Collectives : Prop :=
  ∀ (s : State) g, g < 64 →
    (∀ a die (val : Word) c o d, (a = .hatband ∨ s.agentPt a = some (s.fld GRP_CFG.PT 0 g)) → bitsOf val.toNat 63 58 = g →
      s.bellHeld die (s.fld GRP_CFG.PT 0 g) val.toNat = false →
      Completes (.collDoorbell a die (s.fld GRP_CFG.PT 0 g) val) s (fun t => t = s.collBell die (s.fld GRP_CFG.PT 0 g) val.toNat) ∧
      (bitsOf val.toNat 39 0 % 64 = 0 → s.sramAt .read (.brimlink die (s.fld GRP_CFG.PT 0 g)) (bitsOf val.toNat 39 0) 64 c o →
      d = leNat (memBytes s.mem (sramByte c o) 64) →
      (s.fld GRP_CFG.EN 0 g = 1 → s.fld GRP_CFG.ROOT 0 g = 1 → s.fld GRP_CFG.NKIDS 0 g = 0 → (s.group g) = {} →
        bitsOf d 351 336 = (s.fld GRP_STAT.SEQ_DONE 0 g + 1) % 65536 → bitsOf d 314 0 = 0 → bitsOf d 317 316 ≠ 3 →
        s.sramWord (bitsOf d 471 432) = true →
        (bitsOf d 319 318 = 3 → Completes (.collDoorbell a die (s.fld GRP_CFG.PT 0 g) val) s (fun t =>
          t.fld GRP_STAT.SEQ_DONE 0 g = bitsOf d 351 336 ∧ t.fld GRP_STAT.LAST_STATUS 0 g = 0 ∧ t.group g = {} ∧
          RecordWritten (.brimlink die (s.fld GRP_CFG.PT 0 g)) (bitsOf d 511 472) (bitsOf d 471 432)
            (leBytes 1 0 ++ leBytes 1 0 ++ [0, 0] ++ leBytes 4 0 ++ leBytes 2 (bitsOf d 351 336) ++ List.replicate 6 0) s t)) ∧
        (∀ n cs os cd od c1 o1 c2 o2 ag, bitsOf d 319 318 = 0 → n = bitsOf d 335 320 → n % 4 = 0 → 4 ≤ n → n ≤ 256 →
          s.ptSram (s.fld GRP_CFG.PT 0 g) (bitsOf d 431 392) = true → s.ptSram (s.fld GRP_CFG.PT 0 g) (bitsOf d 431 392 + n - 1) = true →
          ag = Agent.brimlink die (s.fld GRP_CFG.PT 0 g) → s.sramAt .read ag (bitsOf d 391 352) n cs os →
          s.sramAt .write ag (bitsOf d 431 392) n cd od → s.sramAt .write ag (bitsOf d 511 472) 16 c1 o1 →
          s.sramAt .atomic ag (bitsOf d 471 432) 4 c2 o2 → c1 ≠ cd → c2 ≠ cd →
          Completes (.collDoorbell a die (s.fld GRP_CFG.PT 0 g) val) s (fun t =>
            memBytes t.mem (sramByte cd od) n = memBytes s.mem (sramByte cs os) n ∧
            (∀ j, ¬(sramByte cd od ≤ j ∧ j < sramByte cd od + n) → ¬(sramByte c1 o1 ≤ j ∧ j < sramByte c1 o1 + 16) →
              ¬(sramByte c2 o2 ≤ j ∧ j < sramByte c2 o2 + 4) → memByte t.mem j = memByte s.mem j) ∧
            t.fld GRP_STAT.SEQ_DONE 0 g = bitsOf d 351 336 ∧ t.fld GRP_STAT.LAST_STATUS 0 g = 0))) ∧
      ((s.fld GRP_CFG.EN 0 g ≠ 1 ∨ bitsOf d 351 336 ≠ (s.fld GRP_STAT.SEQ_DONE 0 g + 1) % 65536 ∨ bitsOf d 314 0 ≠ 0 ∨
          bitsOf d 317 316 = 3 ∨ s.sramWord (bitsOf d 471 432) = false ∨ (s.group g).desc ≠ none ∨
          (bitsOf d 319 318 = 0 ∧ s.ptSram (s.fld GRP_CFG.PT 0 g) (bitsOf d 431 392) = false) ∨
          (bitsOf d 319 318 ≠ 3 ∧ bitsOf d 335 320 % 4 ≠ 0)) →
        Completes (.collDoorbell a die (s.fld GRP_CFG.PT 0 g) val) s (fun t => t.fld GRP_STAT.LAST_STATUS 0 g = 0x0D ∧
          t.brim = s.brim ∧ t.fld GRP_STAT.SEQ_DONE 0 g = s.fld GRP_STAT.SEQ_DONE 0 g ∧
          RecordWritten (.brimlink die (s.fld GRP_CFG.PT 0 g)) (bitsOf d 511 472) (bitsOf d 471 432)
            (leBytes 1 0x0D ++ leBytes 1 0 ++ [0, 0] ++ leBytes 4 0 ++ leBytes 2 (bitsOf d 351 336) ++ List.replicate 6 0) s t)))) ∧
    (∀ k b kind, k.typ = 9 → s.accepts k b → kind = bitsOf k.fields 37 34 → s.fld GRP_KIDS.GTAG 0 (2 * g) = bitsOf k.fields 95 80 →
      (∀ j, j < 64 → s.fld GRP_KIDS.GTAG 0 (2 * j) = bitsOf k.fields 95 80 → j = g) →
      ((s.fld GRP_CFG.EN 0 g = 0 ∨ bitsOf k.fields 79 64 ≠ (s.fld GRP_STAT.SEQ_DONE 0 g + 1) % 65536) →
        Completes (.coll k) s (fun t => t.fld GRP_STAT.DISCARDED 0 g = satAdd 8 (s.fld GRP_STAT.DISCARDED 0 g) 1 ∧
          t.brim.groups = s.brim.groups ∧ t.brim.sent = s.brim.sent ∧ SameBut [.regs, .brim] s t)) ∧
      (s.fld GRP_CFG.EN 0 g = 1 → bitsOf k.fields 79 64 = (s.fld GRP_STAT.SEQ_DONE 0 g + 1) % 65536 → k.src ∈ s.grpKids g →
        (kind = 2 → s.fld GRP_CFG.POLICY 0 g = 0 → Completes (.coll k) s (fun t =>
          t.fld GRP_STAT.LATE_RCVD 0 g = satAdd 16 (s.fld GRP_STAT.LATE_RCVD 0 g) 1 ∧ k.src ∈ (t.group g).late ∧
          (t.group g).without = (s.group g).without ∧ Raised .BL_COLL_LATE 72 uBrim s t ∧
          SameBut [.regs, .brim, .freeCtr, .events] s t)) ∧
        (kind = 3 → Completes (.coll k) s (fun t => t.fld GRP_CFG.EN 0 g = 0 ∧ t.fld GRP_STAT.LAST_STATUS 0 g = 0x21 ∧
          t.group g = {})))) ∧
    (∀ child, s.fld GRP_CFG.EN 0 g = 1 → (s.group g).desc ≠ none → child ∈ s.grpKids g → child ∉ (s.group g).heard →
      child ∉ (s.group g).late → Completes (.collLostTimeout g child) s (fun t => t.fld GRP_CFG.EN 0 g = 0 ∧
        t.fld GRP_STAT.LAST_STATUS 0 g = 0x21 ∧ t.group g = {} ∧
        (∀ d, (s.group g).desc = some d → t.fld GRP_STAT.SEQ_DONE 0 g = d.seq % 2 ^ 16))) ∧
    (s.fld GRP_CFG.EN 0 g = 1 → ∀ u, u = (if (s.group g).sent then s else s.sendLate g (s.waitedBy g)) →
      Completes (.collDeadline g) s (fun t =>
        t = if (s.group g).desc.any (fun d => d.op == 2) = true ∧ s.fld GRP_CFG.ROOT 0 g = 1 then u.collStep g else u)) ∧
    (∀ q, s.fld GRP_CFG.EN 0 g = 1 → (s.group g).sent = false → s.fld GRP_CFG.ROOT 0 g = 0 →
      ((s.group g).desc ≠ none ∨ s.fld GRP_CFG.NKIDS 0 g = 0) → (∀ d, (s.group g).desc = some d → d.op ≠ 0) → s.canSend (s.fld GRP_CFG.PARENT 0 g) 0 3 q →
      Completes (.collDeadline g) s (fun t => t.fld GRP_STAT.LATE_SENT 0 g = satAdd 16 (s.fld GRP_STAT.LATE_SENT 0 g) 1 ∧
        Raised .BL_COLL_LATE 72 uBrim s t ∧
        (∃ k, t.brim.sent = s.brim.sent ++ [(q, k)] ∧ k.typ = 9 ∧ k.dst = s.fld GRP_CFG.PARENT 0 g ∧
          bitsOf k.fields 37 34 = 2 ∧ bitsOf k.fields 95 80 = s.fld GRP_KIDS.GTAG 0 (2 * g)) ∧
        SameBut [.regs, .brim, .freeCtr, .events] s t))

/-! ## Panel mesh (13) -/

/-- R25, R264, R267, R270, R271, R274, R275, R285, R107: a packet for another endpoint leaves on the port its table names, or
waits there and is not discarded; without a valid route a request is answered FENCED; one that fails its source tile's checks
goes no further; while injection is paused it is held back; a packet with a reserved OP or a must-be-zero field set is
discarded, counted and, a request, answered BAD_FORMAT; a READ, WRITE or RESPONSE packet at its router is that command; a
multicast is copied; a response completes its request, or is absorbed after a reset; MGMT accesses what it names, or answers
with the first check that fails; a request that waited is served at its wake. -/
def Obligations.MeshPackets : Prop :=
  ∀ (s : State),
    (∀ r k p c, s.egressCheck r k = .pass → (s.mesh.paused = [] ∨ k.src ≠ r) → c = classOf k.op →
      (c = if k.op = 3 then 1 else if k.op = 4 then 3 else 0) → k.dst ≠ r → k.dst < 76 → p = s.fld (ROUTE.PORT c) r k.dst →
      (s.fld ROUTE.V r k.dst = 1 → s.fld ROUTE.UNREACH r k.dst = 0 → p ≠ 0 → linkOk r (p - 1) = true →
        Completes (.meshForward r k) s (fun t => t = s.meshPut r p k) ∧
        (s.linkState r (p - 1) = 2 → meshFlits k ≤ (s.meshEnd r (p - 1)).credits.getD c 0 →
          (s.meshEnd r (p - 1)).replay.length + meshFlits k ≤ 128 → (s.meshEnd r (p - 1)).out = [] →
          (∀ w, w ∈ s.mesh.waiting → w.1 = r → w.2.1 ≠ p) →
          Completes (.meshForward r k) s (fun t => t.mesh.moved = s.mesh.moved ++ [(r, p, k)] ∧
            t.mesh.waiting = s.mesh.waiting ∧
            (∃ l, t.mesh.flits = s.mesh.flits ++ l ∧ l.length = meshFlits k ∧ ∀ x, x ∈ l → x.1 = r ∧ x.2.1 = p - 1) ∧
            (t.meshEnd r (p - 1)).credits.getD c 0 = (s.meshEnd r (p - 1)).credits.getD c 0 - meshFlits k ∧
            SameBut [.mesh] s t)) ∧
        (s.linkState r (p - 1) ≠ 2 → Completes (.meshForward r k) s (fun t =>
          t.mesh.waiting = s.mesh.waiting ++ [(r, p, k)] ∧ t.mesh.moved = s.mesh.moved ∧ t.mesh.flits = s.mesh.flits ∧
          SameBut [.mesh] s t))) ∧
      (k.op ≤ 2 → k.unit < 4 →
        (s.fld ROUTE.V r k.dst = 0 ∨ s.fld ROUTE.UNREACH r k.dst = 1 ∨ p = 0 ∨ linkOk r (p - 1) = false) →
        Completes (.meshForward r k) s (fun t => t.mesh.responses = s.mesh.responses ++
          [⟨.core (coreKey k.src k.unit), k.tag, .fenced, k.len, []⟩] ∧ SameBut [.mesh] s t))) ∧
    (∀ r k, (s.egressCheck r k ≠ .pass → Completes (.meshForward r k) s (fun t =>
        t.mesh.responses = s.mesh.responses ++
          [⟨s.pktAgent k.unit k.src k.spt, k.tag, (s.egressCheck r k).status, k.len, []⟩] ∧
        t.mesh.moved = s.mesh.moved ∧ t.mesh.waiting = s.mesh.waiting ∧ t.mem = s.mem)) ∧
      (s.egressCheck r k = .pass → s.mesh.paused ≠ [] → k.src = r → k.dst ≠ r → Completes (.meshForward r k) s (fun t =>
        t.mesh.inject = s.mesh.inject ++ [(r, k)] ∧ t.mesh.moved = s.mesh.moved ∧ t.mesh.waiting = s.mesh.waiting ∧
        SameBut [.mesh] s t)) ∧
      (s.egressCheck r k = .pass → (s.mesh.paused = [] ∨ k.src ≠ r) → k.op = 4 → k.dst = 127 → k.mbz = 0 →
        Completes (.meshForward r k) s (fun t =>
          t = s.mcastAt r (bitsOf k.da 39 32) (bitsOf k.da 31 0) k.tag k.data))) ∧
    (∀ r k, s.egressCheck r k = .pass → k.dst = r → k.unit < 4 →
      ((6 ≤ k.op ∨ ((k.op ≤ 2 ∨ k.op = 5) ∧ k.mbz ≠ 0)) → Completes (.meshForward r k) s (fun t =>
        t.mesh.badPkts = s.mesh.badPkts + 1 ∧ t.mesh.responses = s.mesh.responses ++
          [⟨.core (coreKey k.src k.unit), k.tag, .badFormat, k.len, []⟩] ∧ SameBut [.mesh] s t)) ∧
      ((k.op = 3 ∨ k.op = 4) → k.mbz ≠ 0 → Completes (.meshForward r k) s (fun t => t.mesh.badPkts = s.mesh.badPkts + 1 ∧
        t.mesh.responses = s.mesh.responses ∧ SameBut [.mesh] s t)) ∧
      (k.mbz = 0 → (k.op = 0 → exec (.meshForward r k) s = exec (.read (.core (coreKey k.src k.unit)) k.tag k.da k.len) s) ∧
        (k.op = 1 → exec (.meshForward r k) s = exec (.write (.core (coreKey k.src k.unit)) k.tag k.da k.data) s) ∧
        (∀ x, k.op = 3 → x ∈ s.mesh.responses → x.by_ = .core (coreKey r k.unit) → x.tag = k.tag →
          exec (.meshForward r k) s = exec (.response (.core (coreKey r k.unit)) k.tag) s))) ∧
    (∀ a tag r, r ∈ s.mesh.responses → r.by_ = a → r.tag = tag →
      (∀ y, y ∈ s.mesh.responses → y.by_ = a → y.tag = tag → y = r) →
      ((a, tag) ∉ s.mesh.absorbing → Completes (.response a tag) s (fun t => t.mesh.answered = r :: s.mesh.answered ∧
        t.mesh.responses = s.mesh.responses.erase r ∧ SameBut [.mesh] s t)) ∧
      ((a, tag) ∈ s.mesh.absorbing → Completes (.response a tag) s (fun t => t.mesh.answered = s.mesh.answered ∧
        t.mesh.responses = s.mesh.responses.erase r ∧
        t.fld RESET_STAT.ABSORBED (s.agentSite a) 0 = satAdd 8 (s.fld RESET_STAT.ABSORBED (s.agentSite a) 0) 1 ∧
        SameBut [.mesh, .regs] s t))) ∧
    (∀ site core n, site < 72 → core < 4 → n < 34 →
      Completes (.mgmt site (.clearFuller core n)) s (fun t => t.fld FUL_STAT.FENCED (coreKey site core) n = 0 ∧
        t.mesh.answered = ⟨.hatband, 0, .ok, 0, []⟩ :: s.mesh.answered ∧ RegsBut [(.FUL_STAT, coreKey site core, n)] s t ∧
        SameBut [.mesh, .regs] s t) ∧
      (∀ d, grOk d 1 = true → s.fld FUL_STAT.FENCED (coreKey site core) n = 0 → s.fulInSwap (coreKey site core) n = false →
        s.fld FUL_STAT.STATE (coreKey site core) n = 0 → Completes (.mgmt site (.gatherReduce core n d)) s (fun t =>
          t.fld FUL_STAT.STATE (coreKey site core) n = 2 ∧ (t.ful (coreKey site core) n).gr = some ⟨d, 0, true⟩ ∧
          SameBut [.regs, .fullers] s t)) ∧
      (∀ off size v, off / 0x200000 = core → (size = 4 ∨ size = 8) → off % size = 0 → s.coreFenced (coreKey site core) = true →
        Completes (.mgmt site (.write off size v)) s (fun t =>
          t.mesh.answered = ⟨.hatband, 0, .fenced, size, []⟩ :: s.mesh.answered ∧ SameBut [.mesh] s t)) ∧
      (∀ off size, (s.mgmtCheck .read site off size = .ok → ∀ g, g = s.targetRead .hatband (siteTarget site off) size →
          Completes (.mgmt site (.read off size)) s (fun t =>
            t.mesh.answered = ⟨.hatband, 0, g.status, size, g.data⟩ :: g.st.mesh.answered ∧ SameBut [.mesh] g.st t)) ∧
        (s.mgmtCheck .read site off size ≠ .ok → Completes (.mgmt site (.read off size)) s (fun t =>
          t.mesh.answered = ⟨.hatband, 0, s.mgmtCheck .read site off size, size, []⟩ :: s.mesh.answered ∧ SameBut [.mesh] s t)) ∧
        (∀ v : Word, s.mgmtCheck .write site off size = .ok →
          ∀ p, p = s.targetWriteAt .hatband (siteTarget site off) (leBytes size v.toNat) →
          Completes (.mgmt site (.write off size v)) s (fun t =>
            t.mesh.answered = ⟨.hatband, 0, p.status, size, []⟩ :: p.st.mesh.answered ∧ SameBut [.mesh] p.st t)))) ∧
    (∀ a c l da, s.ltileOf (siteOf c) = some l → da = 2 * 2 ^ 38 + l * 2 ^ 24 + 0x200000 * coreNo c + 0x90 →
      s.decodeDa da = .coreCsr c 0x90 → s.checkReq .read a da 8 = .pass →
      (∀ q tag rest, (s.core c).msgFifo = (q, tag) :: rest → q < 4 → tag < 2 ^ 32 → Completes (.msgFifoPop a c) s (fun t =>
        (t.core c).msgFifo = rest ∧
        t.mesh.answered = ⟨a, 0, .ok, 8, leBytes 8 (2 ^ 63 + q * 2 ^ 32 + tag)⟩ :: s.mesh.answered ∧
        SameBut [.cores, .mesh] s t)) ∧
      ((s.core c).msgFifo = [] → Completes (.msgFifoPop a c) s (fun t =>
        t.mesh.answered = ⟨a, 0, .ok, 8, leBytes 8 0⟩ :: s.mesh.answered ∧ SameBut [.mesh] s t))) ∧
    (∀ core, Completes (.aclkWake core) s (fun t =>
      t = State.serveEach { s with held := [], stalled := [] } (s.held ++ s.stalled))) ∧
    (∀ core a tag da n c o, s.held = [.read a tag da n] → s.stalled = [] → s.sramAt .read a da n c o →
      s.fld SRAM_STAT.CLEARING c 0 = 0 → Completes (.aclkWake core) s (fun t => t.held = [] ∧ t.mesh.responses = s.mesh.responses ++
        [⟨a, tag, .ok, n, memBytes s.mem (sramByte c o) n⟩] ∧ SameBut [.held, .mesh] s t))

/-- R264, R266, R272-R275, R277, R280, R286: the links join each site to its neighbours and the brim dies, each from
both ends; width follows the failed wires and never grows; a resumed link is UP at both ends and sends again what it kept, or
DOWN, as a lost one is, and waits for new tables, what was not delivered waiting at its router; FENCE takes a link out; only
acyclic tables come into force, once no router holds more than waiting packets, and the pause ends when the mesh is empty; a
flit out of CRC is discarded and counted, and an accepted one returns its credits; a lost lock stops and fences the tile; lost
REFCLK halts the module; an overrun leaves its flag, is a discard on a link, and on a die fences the unit, whose requests
complete INTEGRITY. Codes are those of log 76. -/
def Obligations.MeshLinks : Prop :=
  (∀ e d, linkOk e d = true → linkOk (linkPeer e d).1 (linkPeer e d).2 = true ∧
    linkPeer (linkPeer e d).1 (linkPeer e d).2 = (e, d)) ∧
  (∀ (bad : List (Nat × Nat)) sb, ∀ good : Nat → Nat → Prop,
    good = (fun lo n => ∀ g, lo ≤ g → g < lo + n → (bad.filter (fun w => w.1 == g)).length ≤ 1) →
    (2 < sb → linkWidth bad sb = 0) ∧ (sb ≤ 2 → (good 0 32 → linkWidth bad sb = 3) ∧
      (¬good 0 32 → ((good 0 16 ∨ good 16 16) → linkWidth bad sb = 2) ∧
        (¬good 0 16 → ¬good 16 16 → ((∃ q, q < 4 ∧ good (8 * q) 8) → linkWidth bad sb = 1) ∧
          ((∀ q, q < 4 → ¬good (8 * q) 8) → linkWidth bad sb = 0))))) ∧
  ∀ (s : State),
    (∀ e d p tx rx sb lvl wr wt, linkOk e d = true → p = linkPeer e d → s.dieHeld e = false → s.dieHeld p.1 = false →
      (s.linkState e d = 1 ∨ s.linkState e d = 3 ∨ (s.linkState e d = 0 ∧ 5 < s.hb.stage)) →
      wr = narrower (s.fld MESH_LINK.RX_WIDTH e d) (linkWidth ((s.meshEnd e d).bad ++ rx).eraseDups ((s.meshEnd e d).sbBad + sb)) →
      wt = narrower (s.fld MESH_LINK.RX_WIDTH p.1 p.2) (linkWidth ((s.meshEnd p.1 p.2).bad ++ tx).eraseDups (s.meshEnd p.1 p.2).sbBad) →
      Completes (.meshLinkResume e d tx rx sb lvl) s (fun t => t.fld MESH_LINK.RX_WIDTH e d = wr ∧
        t.fld MESH_LINK.TX_WIDTH e d = wt ∧ t.fld MESH_LINK.RX_WIDTH p.1 p.2 = wt ∧ t.fld MESH_LINK.TX_WIDTH p.1 p.2 = wr ∧
        (wr ≠ 0 → wt ≠ 0 → t.linkState e d = 2 ∧ t.linkState p.1 p.2 = 2 ∧
          (∃ l, t.mesh.flits = s.mesh.flits ++ (s.meshEnd e d).resend.map (fun f => (e, d, f.mesh)) ++
            (s.meshEnd p.1 p.2).resend.map (fun f => (p.1, p.2, f.mesh)) ++ l) ∧
          SameBut [.regs, .mesh, .freeCtr, .events] s t) ∧
        (wr = 0 ∨ wt = 0 → t.linkState e d = 0 ∧ t.linkState p.1 p.2 = 0 ∧ t.mesh.paused = s.mesh.paused ++ [(e, d)]))) ∧
    (∀ e d p, linkOk e d = true → p = linkPeer e d → (s.linkState e d = 2 ∨ s.linkState e d = 3) →
      Completes (.meshLinkDown e d) s (fun t => t.linkState e d = 0 ∧ t.linkState p.1 p.2 = 0 ∧
        t.mesh.paused = s.mesh.paused ++ [(e, d)] ∧ t.mesh.switched = false ∧
        t.mesh.waiting = (s.undelivered p.1 p.2).map (fun k => (p.1, p.2 + 1, k)) ++
          (s.undelivered e d).map (fun k => (e, d + 1, k)) ++ s.mesh.waiting ∧ t.mem = s.mem)) ∧
    (∀ e d p, linkOk e d = true → p = linkPeer e d → (72 ≤ e ∨ ∃ l, s.ltileOf e = some l) → s.linkState e d ≠ 4 →
      ∀ a, a = .hatband ∨ a = .pcie 0 → Completes (.meshLinkFence a e d) s (fun t => t.linkState e d = 4 ∧
        t.linkState p.1 p.2 = 4 ∧ t.fld MESH_LINK.FENCE e d = 1 ∧ t.mesh.paused = s.mesh.paused ++ [(e, d)])) ∧
    (∀ tables, s.mesh.paused ≠ [] → s.mesh.switched = false → s.meshHoldsOnlyWaiting = true →
      routesAcyclic (s.tablesWith tables) = true → Completes (.meshTableSwitch tables) s (fun t =>
        t = (s.switchTables tables).meshSettle)) ∧
    (∀ e d tables, s.mesh.paused = [(e, d)] → s.mesh.switched = false →
      (routesAcyclic (s.tablesWith tables) = true → s.meshEmpty = true → s.mesh.inject = [] → (∀ x, x ∈ tables → x.2.1 < 76) →
        Completes (.meshTableSwitch tables) s (fun t => t.mesh.paused = [] ∧ t.mesh.switched = false ∧ Raised .MESH_REROUTE (72 + s.hb.active) uHatband s t ∧
          (∀ r d w, (r, d, w) ∈ tables → (∀ w', (r, d, w') ∈ tables → w' = w) →
            t.reg .ROUTE r d = setBits w 17 17 (s.fld ROUTE.UNREACH r d)) ∧
          SameBut [.regs, .mesh, .freeCtr, .events] s t)) ∧
      ((routesAcyclic (s.tablesWith tables) = false ∨ s.meshHoldsOnlyWaiting = false) → Completes (.meshTableSwitch tables) s (fun t => SameBut [] s t))) ∧
    (∀ e d f r, linkOk e d = true → r = s.meshFlit e d f → Completes (.meshFlitRx e d f) s (fun t =>
      t = (r.1.forwardEach e r.2).meshSettle)) ∧
    (∀ e d (f : MeshFlit) h x, linkOk e d = true → s.linkState e d = 2 → s.mesh.switched = false → h = f.sideband.toNat → x = s.meshEnd e d →
      ((bitsOf h 23 22 = 3 ∨ meshCrc x.rxSeq (bitsOf h 31 0) f.data ≠ bitsOf h 63 32) →
        Completes (.meshFlitRx e d f) s (fun t => t.fld MESH_LINK.CRC_ERR e d = satAdd 16 (s.fld MESH_LINK.CRC_ERR e d) 1 ∧
          (t.meshEnd e d).rxSeq = x.rxSeq ∧ (t.meshEnd e d).naked = true ∧ (t.meshEnd e d).part = x.part ∧
          t.linkState e d = (if 64 ≤ x.discards + 1 then 3 else 2) ∧ SameBut [.regs, .mesh, .freeCtr, .events] s t)) ∧
      (bitsOf h 23 22 = 1 → meshCrc x.rxSeq (bitsOf h 31 0) f.data = bitsOf h 63 32 → x.out = [] → (∀ v, v ∈ x.owed → v = 0) →
        (∀ w, w ∈ s.mesh.waiting → w.1 = e → w.2.1 ≠ d + 1) →
        Completes (.meshFlitRx e d f) s (fun t => (t.meshEnd e d).rxSeq = (x.rxSeq + 1) % 256 ∧ (t.meshEnd e d).naked = false ∧
          (t.meshEnd e d).credits = x.credits.set (bitsOf h 15 14) (x.credits.getD (bitsOf h 15 14) 0 + bitsOf h 13 8) ∧
          SameBut [.mesh] s t))) ∧
    (∀ e, e < 72 → Completes (.pllLossOfLock e) s (fun t => t.fld CLK_STAT.LOCK e 0 = 0 ∧ t.fld CLK_STAT.FALLBACK e 0 = 1 ∧
      t.fld RESET_STAT.TILE_CAUSE e 0 ≠ 0 ∧ (t.mil e).running = false ∧ LastRaised .CLK_UNLOCK e uCommon t ∧
      (∀ r d, t.reg .ROUTE r d = s.reg .ROUTE r d) ∧ t.mem = s.mem)) ∧
    (∀ e, 72 ≤ e → e < 76 → Completes (.pllLossOfLock e) s (fun t => Raised .CLK_UNLOCK e uBrim s t ∧ RegsBut [(.EVT_STAT, 0, 0)] s t ∧
      SameBut [.regs, .freeCtr, .events] s t)) ∧
    (∀ die, die < 4 → s.supply.on = true → s.hb.halted = false → Completes (.refclkMissing die) s (fun t =>
      t.hb.halted = true ∧ t.cores = [] ∧ t.mils = [] ∧ t.fullers = [] ∧ t.mem = [] ∧
      ∃ r : EvtRec, r ∈ t.events.undelivered ∧ r.code = (Ev.REFCLK_LOST).code ∧ r.site = 72 + die)) ∧
    (∀ site c, site < 72 → c < 4 →
      (∀ d, linkOk site d = true → Completes (.crossingOverrun site none (some d)) s (fun t =>
        t.fld CLK_STAT.XING_OVR site 0 = satAdd 16 (s.fld CLK_STAT.XING_OVR site 0) 1 ∧
        (site, 8 + d) ∈ t.mesh.overrun ∧
        t.fld MESH_LINK.CRC_ERR site d = satAdd 16 (s.fld MESH_LINK.CRC_ERR site d) 1)) ∧
      Completes (.crossingOverrun site (some c) none) s (fun t =>
        t.fld CLK_STAT.XING_OVR site 0 = satAdd 16 (s.fld CLK_STAT.XING_OVR site 0) 1 ∧
        t.fld (RESET_STAT.CORE_CAUSE c) site 0 ≠ 0 ∧ LastRaised .XING_OVERRUN site uCommon t ∧
        (site, c) ∈ t.mesh.overrun ∧
        (∀ h k, h ∈ t.held ++ t.stalled → h.key = some k → k.1 ≠ .core (coreKey site c)) ∧
        (∀ r, r ∈ t.mesh.responses → r.by_ = .core (coreKey site c) → r.status = .integrity)) ∧
      Completes (.crossingOverrun site none none) s (fun t => t.fld RESET_STAT.TILE_CAUSE site 0 ≠ 0 ∧
        LastRaised .XING_OVERRUN site uCommon t ∧ (site, 4) ∈ t.mesh.overrun ∧
        (∀ r k, r ∈ t.mesh.responses → r.by_ = .core k → siteOf k = site → r.status = .integrity)))

/-! ## Bring-up (14) and the first stage (19) -/

/-- R289, R290, R292-R296, R298-R301, R304, R311: each stage passes on to the next with its report and
STAGE_END, or fails on its own conditions only: Carding without firmware in either slot, REFCLK or lock; Batting without flow
or with fewer than four bricks; Fulling without the management path; Blocking without a good image or when a site falls
silent; Sizing without the meter or BD0's diode. Fulling leaves memory clear, and repairs a bank while its spares last;
Blocking puts the image in force; Finishing waits for the Brimlink ports, and ends in service, at once or when the link's time
is over. Corners are those of logs 88 to 91. -/
def Obligations.BringupStages : Prop :=
  ∀ (s : State),
    (∀ fw rf pl sb bad, s.inStage 1 = true →
      (fw = true → rf = true → pl = true → s.slotBoots s.nv.active = true →
        Completes (.cardingDone fw rf pl sb bad) s (fun t => StagePassed 1 s t ∧
          t.fld BOOT_STAGE.BOOT_COUNT 0 0 = (s.nv.bootCount + 1) % 2 ^ 32 ∧ t.nv.bootCount = (s.nv.bootCount + 1) % 2 ^ 32 ∧
          t.therm.counts = s.nv.cycles ∧ t.boot.fwSlot = s.nv.active)) ∧
      (fw = true → rf = true → pl = true → s.slotBoots s.nv.active = false → s.slotStandsIn (1 - s.nv.active) = true →
        s.slotBoots (1 - s.nv.active) = true →
        Completes (.cardingDone fw rf pl sb bad) s (fun t => StagePassed 1 s t ∧ t.boot.fwSlot = 1 - s.nv.active)) ∧
      ((fw = false ∨ rf = false ∨ pl = false ∨ (s.slotBoots s.nv.active = false ∧
          (s.slotStandsIn (1 - s.nv.active) = false ∨ s.slotBoots (1 - s.nv.active) = false))) →
        Completes (.cardingDone fw rf pl sb bad) s (fun t => StageFailed 1 0x10 s t))) ∧
    (s.inStage 2 = true →
      (∀ flow, flow < 2000 → Completes (.battingFlowTimeout flow) s (fun t => StageFailed 2 0x0E s t)) ∧
      (∀ flow, 2000 ≤ flow → Completes (.battingFlowTimeout flow) s (fun t => SameBut [] s t)) ∧
      (∀ (b : BitVec 5) bad, (4 ≤ popCount 5 b.toNat → Completes (.battingDone b bad) s (fun t => StagePassed 2 s t ∧
          t.fld PWR_MEAS.BRICKS 0 0 = b.toNat ∧ ∀ c, c < 288 → s.badPhases (siteOf c) (coreNo c) = 0 → bad = [] →
            t.fld CORE_PWR_STAT.STATE (siteOf c) (coreNo c) = 0 ∧ t.fld CORE_PWR_STAT.PHASES (siteOf c) (coreNo c) = 0xF)) ∧
        (popCount 5 b.toNat < 4 → Completes (.battingDone b bad) s (fun t => StageFailed 2 0x0E s t)))) ∧
    (s.inStage 3 = true →
      Completes .retentionHoldEnd s (fun t => t.boot.holdDone = true ∧ SameBut [.boot] s t) ∧
      (∀ bad, Completes (.fullingDone true bad) s (fun t => StageFailed 3 0x10 s t) ∧
        Completes (.fullingDone false bad) s (fun t => StagePassed 3 s t ∧
          (∀ k, 2 ^ 40 ≤ k → k < 2 ^ 41 → memByte t.mem k = 0 ∧ Tbl.find t.marks k = none) ∧
          (∀ k, k < 2 ^ 40 → (∀ u, u ∈ t.boot.bad → u.kind = 4 → chKey (coreKey u.site u.core) u.index ≠ k / 2 ^ 26) →
            memByte t.mem k = 0 ∧ Tbl.find t.marks k = none))) ∧
      (∀ (b : BankTest) c x ra ca, c = coreKey b.site b.core → x = s.chan c b.chan → b.beats ≠ [] →
        ra = (bankRows b).length + (b.rowsAgain.filter (fun r => (bankRows b).contains r)).length →
        ca = (bankCols b).length + (b.colsAgain.filter (fun r => (bankCols b).contains r)).length →
        ((ra ≤ x.rowsLeft b.bank ∧ ca ≤ x.colsLeft b.bank) → Completes (.fullingDone false ⟨[], [b]⟩) s (fun t =>
          (t.chan c b.chan).rowSoft = x.rowSoft ++ (bankRows b).map (fun r => (b.bank, r)) ∧
          (t.chan c b.chan).colSoft = x.colSoft ++ (bankCols b).map (fun k => (b.bank, k)))) ∧
        ((x.rowsLeft b.bank < ra ∨ x.colsLeft b.bank < ca) → Completes (.fullingDone false ⟨[], [b]⟩) s (fun t =>
          t.chan c b.chan = x ∧
          ∃ u, u ∈ t.boot.bad ∧ u.kind = 4 ∧ u.cause = 6 ∧ u.site = b.site ∧ u.core = b.core ∧ u.index = b.chan)))) ∧
    (∀ a la, s.inStage 4 = true → a = s.nv.active → la = Tbl.at (s.slot a).images 4 [] →
      (∀ g subs, s.checkImage la = .good g subs →
        Completes (.blockingDone none) s (fun t => StagePassed 4 s t ∧ t.image = g ∧ t.boot.imgSlot = a ∧
          t.sec.layout = imgDigest la ∧ ∃ r l, t.boot.reports.head? = some (l ++ [r]) ∧ imageEntry a 0 0 ∈ r.entries) ∧
        (∀ e, Completes (.blockingDone (some e)) s (fun t => StageFailed 4 0x10 s t ∧ t.image = s.image))) ∧
      (∀ k off st, s.checkImage la = .bad k off st →
        (s.slotStandsIn (1 - a) = false → Completes (.blockingDone none) s (fun t => StageFailed 4 st.code s t ∧ t.image = s.image)) ∧
        (∀ g subs, s.slotStandsIn (1 - a) = true → s.checkImage (Tbl.at (s.slot (1 - a)).images 4 []) = .good g subs →
          Completes (.blockingDone none) s (fun t => StagePassed 4 s t ∧ t.image = g ∧ t.boot.imgSlot = 1 - a ∧
            ∃ r, r ∈ t.events.undelivered ∧ r.code = (Ev.IMAGE_FALLBACK).code)) ∧
        (∀ k2 off2 st2, s.slotStandsIn (1 - a) = true → s.checkImage (Tbl.at (s.slot (1 - a)).images 4 []) = .bad k2 off2 st2 →
          Completes (.blockingDone none) s (fun t => StageFailed 4 st.code s t ∧ t.image = s.image)))) ∧
    (∀ meter diode bad, s.inStage 5 = true →
      (meter = true ∧ diode = true → Completes (.sizingDone meter diode bad) s (fun t => StagePassed 5 s t)) ∧
      (meter = false ∨ diode = false → Completes (.sizingDone meter diode bad) s (fun t => StageFailed 5 0x10 s t))) ∧
    (s.inStage 6 = true → s.portsBusy = true → Completes .finishingDone s (fun t => SameBut [] s t)) ∧
    (s.inStage 6 = true → s.portsBusy = false →
      (s.pcie.perst = true → Completes .finishingDone s (fun t => t.hb.stage = 7 ∧ t.boot.linkTurn = false ∧
        t.fld BOOT_STAGE.LAST_STATUS 0 0 = 0 ∧ t.nv.lastRecord.drop 32 = t.boot.record.drop 32 ∧
        ∃ r, r ∈ t.events.undelivered ∧ r.code = (Ev.STAGE_END).code)) ∧
      (s.pcie.perst = false → Completes .finishingDone s (fun t => t.hb.stage = 6 ∧ t.boot.linkTurn = true ∧
        t.pcie.training = true ∧ t.nv.lastRecord.drop 32 = t.boot.record.drop 32))) ∧
    (s.hb.stage = 6 → s.boot.linkTurn = true → Completes .linkTrainTimeout s (fun t => t.hb.stage = 7 ∧
      t.boot.linkTurn = false ∧ t.fld BOOT_STAGE.LAST_STATUS 0 0 = 0 ∧ t.pcie = s.pcie ∧ t.mem = s.mem))

/-- R309, R330, R331, R422, R423: bring-up begins when the input is at 40 V, MOD_EN is high and no latch holds; MOD_EN's
fall starts a power-down that keeps the cycle counts and the severe records and takes the ports down; its end, a lost
VBRIM_L and a lost input leave the module OFF with flash and fuses; the latch clears; a RESTART that may act removes power
and after its wait begins at CARDING with STOP_AFTER kept, and any other is counted. R291, R310, R324: a re-block that
succeeds puts its image and sites in force, with the partition's level, ends the re-block and completes its host command OK;
one that fails marks the site bad and completes with its status. -/
def Obligations.PowerUpAndReblock : Prop :=
  (∀ (s : State),
      (∀ c, (c = .inputRise40v ∧ s.supply.modEn = true) ∨ (c = .modEnRise ∧ s.supply.input = true) →
        (s.supply.latch = false → s.supply.on = false → Completes c s (fun t => t.supply.on = true ∧ t.supply.input = true ∧
          t.supply.modEn = true ∧ t.hb = {} ∧ t.hb.stage = 1)) ∧
        ((s.supply.latch = true ∨ s.supply.on = true) → Completes c s (fun t => t.supply.on = s.supply.on ∧
          t.supply.input = true ∧ t.supply.modEn = true ∧ SameBut [.supply] s t))) ∧
      (s.supply.on = true → s.supply.powerDown = false → Completes .modEnFall s (fun t => t.supply.powerDown = true ∧
        t.supply.modEn = false ∧ t.nv.cycles = s.therm.counts ∧
        t.events.flash = ((s.events.undelivered.filter (fun r => decide (2 ≤ r.sev))).reverse ++ s.events.flash).take 4096 ∧
        ∀ p, p < 16 → s.portState p ≠ 5 → t.portState p = 0)) ∧
      (s.supply.powerDown = true → Completes .firstStageOpen s (fun t => t.supply.on = false ∧ t.supply.latch = true ∧
        t.nv = s.nv ∧ t.mem = [] ∧ t.cores = [] ∧ t.fns = State.reset.fns ∧ t.hb.stage = 0)) ∧
      (s.supply.modEn = false → s.supply.on = false → Completes .firstStageLatchClear s (fun t => t.supply.latch = false ∧
        t.supply.on = false ∧ SameBut [.supply] s t)) ∧
      (Completes .inputBelow30v s (fun t => t.supply.input = false ∧ t.supply.latch = false ∧ t.nv = s.nv ∧
        (s.supply.on = false → SameBut [.supply] s t))) ∧
      (Completes (.inputSag false) s (fun t => SameBut [] s t)) ∧
      (s.supply.on = true → Completes (.inputSag true) s (fun t => t.supply.on = false ∧ t.supply.input = false ∧ t.nv = s.nv ∧
        t.mem = [] ∧ t.cores = [] ∧ t.hb.stage = 0)) ∧
      (∀ a (v : Word), a = .hatband ∨ a = .pcie 0 →
        (getBits v 0 0 = 0 → Completes (.restart a v) s (fun t => t.fld BOOT_CTL.STOP_AFTER 0 0 = getBits v 3 1 ∧
          RegsBut [(.BOOT_CTL, 0, 0)] s t ∧ SameBut [.regs] s t)) ∧
        (getBits v 0 0 = 1 → s.supply.on = true → s.boot.restarting = false →
          ((s.hb.halted = true ∨ s.boot.failed = true ∨ s.boot.stopped = true ∨
              (∀ x, x ∈ s.parts → x.2.state ≠ 1 ∧ x.2.state ≠ 2)) →
            Completes (.restart a v) s (fun t => t.boot.restarting = true ∧ t.fld BOOT_CTL.STOP_AFTER 0 0 = getBits v 3 1 ∧
              t.mils = [] ∧ t.nv = s.nv ∧ ∀ p, p < 16 → s.portState p ≠ 5 → t.portState p = 0)) ∧
          (s.hb.halted = false → s.boot.failed = false → s.boot.stopped = false →
            (∃ x, x ∈ s.parts ∧ (x.2.state = 1 ∨ x.2.state = 2)) → Completes (.restart a v) s (fun t =>
              t.fld BOOT_STAGE.SC_COUNT 0 0 = satAdd 8 (s.fld BOOT_STAGE.SC_COUNT 0 0) 1 ∧
              t.fld BOOT_CTL.STOP_AFTER 0 0 = getBits v 3 1 ∧ SameBut [.regs] s t)))) ∧
      (s.boot.restarting = true → s.supply.on = true → s.supply.powerDown = false → Completes .restartWaitEnd s (fun t =>
        t.hb = {} ∧ t.boot.restarting = false ∧ t.boot.reports = s.boot.reports ∧ t.mem = [] ∧ t.fns = State.reset.fns ∧
        t.fld BOOT_CTL.STOP_AFTER 0 0 = s.fld BOOT_CTL.STOP_AFTER 0 0 ∧ t.nv.bootCount = s.nv.bootCount))) ∧
  (∀ (s : State) p r y, Tbl.find s.reblocks p = some r → r.sub = y.id → y ∈ (s.fn r.fn).subs → y.busy = true →
      (∀ z, z ∈ (s.fn r.fn).subs → z.id = y.id → z = y) → (s.fn r.fn).flr = none →
      (∀ z, z ∈ (s.fn r.fn).subs → z.busy = true → z.opc ≠ 4) →
      (∀ site, Completes (.siteBringupDone p 0 site) s (fun t => t.image = r.image ∧ Tbl.find t.reblocks p = none ∧
        (t.part p).state = 0 ∧ HostDone r.fn y .ok 0 s t)) ∧
      (∀ st site, st ≠ .ok → Completes (.siteBringupDone p st.code site) s (fun t => t.image = s.image ∧
        Tbl.find t.reblocks p = none ∧ (∃ u, u ∈ t.boot.bad ∧ u.kind = 1 ∧ u.site = site) ∧ HostDone r.fn y st 0 s t)))

/-! ## Partial reset and fencing (15) -/

/-- R312-R315, R318-R320, R322, R326, R327: FENCE gives the units of its mask cause 1, or leaves a hardware cause; a
reset and a test begin BUSY, the reset under a fence and the test only on fenced units; UNFENCE clears what is not a
hardware fence or has passed a test, and is refused otherwise; while an operation runs another is refused, but a tile
reset takes over a core reset; a drain's end resets the CORE or TILE domain, keeps memory and MODULE registers, clears
the soft fences and reports RESET_DONE; a test's end records its passes and clears the SRAM. Corners are those of logs
48, 85 and 86. -/
def Obligations.FencesAndResets : Prop :=
  ∀ (s : State) a site l, (a = .hatband ∨ a = .pcie 0) → s.ltileOf site = some l → site < 72 →
    (Tbl.find s.resets site = none →
      (∀ m, m < 16 → Completes (.fenceCore a site m) s (fun t => t.fld RESET_STAT.STATUS site 0 = 0 ∧
        t.fld RESET_CTL.CMASK site 0 = m ∧
        (∀ n, n < 4 → t.fld (RESET_STAT.CORE_CAUSE n) site 0 = if m.testBit n then
          (if s.fld (RESET_STAT.CORE_CAUSE n) site 0 ∈ [0, 1, 9] then 1 else s.fld (RESET_STAT.CORE_CAUSE n) site 0)
          else s.fld (RESET_STAT.CORE_CAUSE n) site 0) ∧
        t.fld RESET_STAT.TILE_CAUSE site 0 = s.fld RESET_STAT.TILE_CAUSE site 0 ∧ t.mem = s.mem ∧ t.mesh = s.mesh ∧
        t.mils = s.mils)) ∧
      Completes (.fenceTile a site) s (fun t => t.fld RESET_STAT.STATUS site 0 = 0 ∧
        t.fld RESET_STAT.TILE_CAUSE site 0 = (if s.fld RESET_STAT.TILE_CAUSE site 0 ∈ [0, 1, 9] then 1
          else s.fld RESET_STAT.TILE_CAUSE site 0) ∧ t.mem = s.mem ∧ t.mesh = s.mesh ∧ t.mils = s.mils) ∧
      (∀ m, m < 16 → Completes (.resetCore a site m) s (fun t => t.fld RESET_STAT.BUSY site 0 = 1 ∧
        (∀ n, n < 4 → m.testBit n = true → t.fld (RESET_STAT.CORE_CAUSE n) site 0 ≠ 0) ∧
        (∃ r, Tbl.find t.resets site = some r ∧ r.op = 2 ∧ r.cmask = m ∧ r.part = none) ∧ t.mem = s.mem)) ∧
      Completes (.resetTile a site) s (fun t => t.fld RESET_STAT.BUSY site 0 = 1 ∧
        t.fld RESET_STAT.TILE_CAUSE site 0 ≠ 0 ∧ (t.mil site).running = false ∧
        (∃ r, Tbl.find t.resets site = some r ∧ r.op = 6 ∧ r.part = none) ∧ t.mem = s.mem) ∧
      (∀ m, m < 16 →
        ((∀ n, n < 4 → m.testBit n = true → s.fld (RESET_STAT.CORE_CAUSE n) site 0 ∈ [0, 1, 9] ∨
            (s.fld RESET_STAT.TEST_PASS site 0).testBit n = true) → Completes (.unfenceCore a site m) s (fun t =>
          t.fld RESET_STAT.STATUS site 0 = 0 ∧ (∀ n, n < 4 → t.fld (RESET_STAT.CORE_CAUSE n) site 0 =
            if m.testBit n then 0 else s.fld (RESET_STAT.CORE_CAUSE n) site 0) ∧
          SameBut [.regs, .freeCtr, .events, .parts] s t)) ∧
        (∀ n, n < 4 → m.testBit n = true → s.fld (RESET_STAT.CORE_CAUSE n) site 0 ∉ [0, 1, 9] →
          (s.fld RESET_STAT.TEST_PASS site 0).testBit n = false → Completes (.unfenceCore a site m) s (fun t =>
            t.fld RESET_STAT.STATUS site 0 = 0x0C ∧
            (∀ k, k < 4 → t.fld (RESET_STAT.CORE_CAUSE k) site 0 = s.fld (RESET_STAT.CORE_CAUSE k) site 0) ∧
            SameBut [.regs, .freeCtr, .events] s t))) ∧
      ((s.fld RESET_STAT.TILE_CAUSE site 0 ∈ [0, 1, 9] ∨ site ∈ s.tilePass) → Completes (.unfenceTile a site) s (fun t =>
        t.fld RESET_STAT.STATUS site 0 = 0 ∧ t.fld RESET_STAT.TILE_CAUSE site 0 = 0 ∧
        SameBut [.regs, .freeCtr, .events, .parts] s t)) ∧
      (s.fld RESET_STAT.TILE_CAUSE site 0 ∉ [0, 1, 9] → site ∉ s.tilePass → Completes (.unfenceTile a site) s (fun t =>
        t.fld RESET_STAT.STATUS site 0 = 0x0C ∧ t.fld RESET_STAT.TILE_CAUSE site 0 = s.fld RESET_STAT.TILE_CAUSE site 0 ∧
        SameBut [.regs, .freeCtr, .events] s t)) ∧
      (∀ c m op, (c = .testCore a site m ∧ op = 4 ∧ m < 16) ∨ (c = .testTile a site ∧ op = 8 ∧ m = 0) →
        (s.fld RESET_STAT.TILE_CAUSE site 0 ≠ 0 → Completes c s (fun t => t.fld RESET_STAT.BUSY site 0 = 1 ∧
          (∃ r, Tbl.find t.resets site = some r ∧ r.op = op ∧ r.cmask = m) ∧ SameBut [.regs, .resets] s t)) ∧
        (s.fld RESET_STAT.TILE_CAUSE site 0 = 0 → (op = 4 → ∃ n, n < 4 ∧ m.testBit n = true ∧
            s.fld (RESET_STAT.CORE_CAUSE n) site 0 = 0) → Completes c s (fun t =>
          t.fld RESET_STAT.STATUS site 0 = 0x0C ∧ t.fld RESET_STAT.BUSY site 0 = s.fld RESET_STAT.BUSY site 0 ∧
          SameBut [.regs, .freeCtr, .events] s t)))) ∧
    (∀ r c m, Tbl.find s.resets site = some r → m < 16 →
      c ∈ [Instr.fenceCore a site m, .resetCore a site m, .unfenceCore a site m, .testCore a site m, .fenceTile a site,
        .unfenceTile a site, .testTile a site, .resetTile a site] → (c = .resetTile a site → r.op ≠ 2) →
      Completes c s (fun t => t.fld RESET_STAT.STATUS site 0 = 0x0C ∧
        (∀ n, n < 4 → t.fld (RESET_STAT.CORE_CAUSE n) site 0 = s.fld (RESET_STAT.CORE_CAUSE n) site 0) ∧
        SameBut [.regs, .freeCtr, .events] s t)) ∧
    (∀ r, Tbl.find s.resets site = some r → r.op = 2 → Completes (.resetTile a site) s (fun t =>
      ∃ r', Tbl.find t.resets site = some r' ∧ r'.op = 6 ∧ ∀ w, w ∈ r.writes → w ∈ r'.writes)) ∧
    (∀ r mask passed mil, Tbl.find s.resets site = some r →
      ((r.op = 4 ∧ mask = r.cmask ∧ mask < 16) ∨ (r.op = 8 ∧ mask = 0xF)) → passed < 16 →
      Completes (.testDone site passed mil) s (fun t => t.fld RESET_STAT.BUSY site 0 = 0 ∧ Tbl.find t.resets site = none ∧
        (∀ n, n < 4 → (t.fld RESET_STAT.TEST_PASS site 0).testBit n =
          if mask.testBit n then passed.testBit n else (s.fld RESET_STAT.TEST_PASS site 0).testBit n) ∧
        ((∀ n, n < 4 → mask.testBit n = true → passed.testBit n = true) → (r.op = 4 ∨ mil = true) →
          t.fld RESET_STAT.STATUS site 0 = 0) ∧
        (∀ n j, n < 4 → mask.testBit n = true → j < 2 ^ 23 → memByte t.mem (sramByte (coreKey site n) j) = 0) ∧
        (∀ k, k < 2 ^ 40 → memByte t.mem k = memByte s.mem k) ∧
        SameBut [.regs, .freeCtr, .mem, .marks, .resets, .tilePass] s t)) ∧
    (∀ r, Tbl.find s.resets site = some r → (r.op = 2 ∨ r.op = 6) → Completes (.resetDrainEnd site) s (fun t =>
      t.fld RESET_STAT.BUSY site 0 = 0 ∧ Tbl.find t.resets site = none)) ∧
    (∀ r, Tbl.find s.resets site = some r → r.part = none → r.writes = [] → s.held = [] → s.stalled = [] →
      (r.op = 2 → r.cmask < 16 → Completes (.resetDrainEnd site) s (fun t => t.fld RESET_STAT.BUSY site 0 = 0 ∧
        t.fld RESET_STAT.STATUS site 0 = 0 ∧ Tbl.find t.resets site = none ∧ LastRaised .RESET_DONE site uCommon t ∧
        (∀ n, n < 4 → r.cmask.testBit n = true →
          t.fld (RESET_STAT.CORE_CAUSE n) site 0 = (if s.fld (RESET_STAT.CORE_CAUSE n) site 0 ∈ [0, 1, 9] then 0
            else s.fld (RESET_STAT.CORE_CAUSE n) site 0) ∧
          (∀ q, q < 4 → t.queue (coreKey site n) q = {} ∧
            (Tbl.find s.loaded (regKey .QCFG (coreKey site n) q) = none → t.fld QCFG.EN (coreKey site n) q = 0)) ∧
          (∀ i, t.reg .ARRAY_MAP (coreKey site n) i = s.reg .ARRAY_MAP (coreKey site n) i ∧
            t.reg .CH_REMAP (coreKey site n) i = s.reg .CH_REMAP (coreKey site n) i)) ∧
        (∀ k, k < 2 ^ 41 → memByte t.mem k = memByte s.mem k) ∧ t.mils = s.mils)) ∧
      (r.op = 6 → Completes (.resetDrainEnd site) s (fun t => t.fld RESET_STAT.BUSY site 0 = 0 ∧
        Tbl.find t.resets site = none ∧ LastRaised .RESET_DONE site uCommon t ∧
        (s.fld RESET_STAT.TILE_CAUSE site 0 ∈ [0, 1, 9] → t.fld RESET_STAT.TILE_CAUSE site 0 = 0 ∧
          (t.mil site).running = true) ∧
        (s.fld RESET_STAT.TILE_CAUSE site 0 ∉ [0, 1, 9] → t.fld RESET_STAT.TILE_CAUSE site 0 = s.fld RESET_STAT.TILE_CAUSE site 0 ∧
          t.mil site = {}) ∧
        (∀ k, k < 2 ^ 41 → memByte t.mem k = memByte s.mem k) ∧
        (∀ d, t.reg .ROUTE site d = s.reg .ROUTE site d)))) ∧
    (∀ d, (d = 1 ∨ d = 3) → d ∉ s.brim.fenced → Completes (.brimDieFence d) s (fun t => d ∈ t.brim.fenced ∧
      (∀ p, p / 4 = d → s.portState p ≠ 5 → t.portState p = 0))) ∧
    (s.hb.active = 0 → 2 ∉ s.brim.fenced → Completes (.brimDieFence 2) s (fun t => 2 ∈ t.brim.fenced ∧
      t.fld EVT_STAT.STANDBY_OK 0 0 = 0 ∧ SameBut [.regs, .brim] s t))

/-! ## Power (16) -/

/-- R332, R334-R337, R346, R348: bricks counted, with the 2,200 W limit and rung 8 at three and the first stage open below;
voltage sensors left out, with the fallback and rung 16; a first phase lost is shed, a second one or an overvoltage darkens
the domain, with what the table of R336 says follows; a failed isolation opens the first stage. -/
def Obligations.PowerFaults : Prop :=
  ∀ (s : State),
    (∀ good : BitVec 5, s.supply.on = true → s.fld PWR_MEAS.BRICKS 0 0 ≠ 0 →
      (popCount 5 good.toNat ≤ 2 → Completes (.brickPoll good) s (fun t => t.supply.on = false ∧ t.supply.latch = true ∧
        t.hb.halted = true ∧ t.hb.stage = 0 ∧ t.mem = [])) ∧
      (3 ≤ popCount 5 good.toNat → Completes (.brickPoll good) s (fun t => t.fld PWR_MEAS.BRICKS 0 0 = good.toNat ∧
        t.fld THERM_LIMITS.BRICK_W 0 0 = (if popCount 5 good.toNat = 3 then 2200 else 3000) ∧
        (∀ b, b < 5 → (s.fld PWR_MEAS.BRICKS 0 0).testBit b = true → good.getLsbD b = false →
          AlsoRaised .BRICK_FAIL (72 + s.hb.active) uHatband s t) ∧
        (popCount 5 good.toNat = 3 → ∀ c, c ∈ s.enabledCores → 8 ≤ t.rung c) ∧ t.mem = s.mem))) ∧
    (∀ core readings (lasted : BitVec 8), s.pwrState core = 0 → readings.length = 8 →
      Completes (.vsenseCheck core readings lasted) s (fun t =>
        (∀ i, i ∈ (t.cpw core).vsBad ↔ i < 8 ∧ (readings.getD i 0 < 400 ∨ 1000 < readings.getD i 0 ∨
          (lasted.getLsbD i = true ∧ (median (readings.eraseIdx i) + 60 < readings.getD i 0 ∨
            readings.getD i 0 + 60 < median (readings.eraseIdx i))))) ∧
        t.fld CORE_PWR_STAT.VS_GOOD (siteOf core) (coreNo core) = 8 - (t.cpw core).vsBad.length ∧
        (t.fld CORE_PWR_STAT.VS_FALLBACK (siteOf core) (coreNo core) = 1 ↔ 8 - (t.cpw core).vsBad.length < 5) ∧
        (8 - (t.cpw core).vsBad.length < 5 → 16 ≤ t.rung core) ∧
        (∀ i, i ∈ (t.cpw core).vsBad → i ∉ (s.cpw core).vsBad →
          AlsoRaised .VSENSE_BROKEN (siteOf core) (coreNo core) s t) ∧ t.mem = s.mem)) ∧
    (∀ d p commanded measured, domOk d = true → p < domPhases d.code → s.domOn d = true → (s.dom d).lost = [] →
      Completes (.phaseLoss d p commanded measured) s (fun t => (t.dom d).lost = [p] ∧ (t.dom d).dark = false ∧
        Raised .PHASE_SHED d.site (domUnit d) s t ∧
        (d.site < 72 → t.fld DOM_STAT.SHEDS d.site 0 = satAdd 16 (s.fld DOM_STAT.SHEDS d.site 0) 1) ∧
        (d.code = 0 → t.fld CORE_PWR_STAT.PHASES d.site d.core = putBits (s.fld CORE_PWR_STAT.PHASES d.site d.core) p p 0 ∧
          t.ilim (domCore d) ≤ 18 * 512 ∧ t.fld CORE_PWR_STAT.ILIM d.site d.core = t.ilim (domCore d) / 64) ∧
        SameBut [.regs, .freeCtr, .events, .doms, .cores] s t)) ∧
    (∀ d c, domOk d = true → s.domOn d = true →
      ((∃ p commanded measured, c = .phaseLoss d p commanded measured ∧ p < domPhases d.code ∧ p ∉ (s.dom d).lost ∧
          (s.dom d).lost ≠ []) ∨
        (∃ mv set v, c = .overvoltageDetect d mv ∧ s.setPoint d = (set, v) ∧
          (set * 100 + 12 * v < mv * 100 ∨ (d.code = 0 ∧ 920 < mv)))) →
      Completes c s (fun t =>
        (¬(d.site = 72 ∧ d.code = 5) → (t.dom d).dark = true ∧ AlsoRaised .DOMAIN_DARK d.site (domUnit d) s t) ∧
        (d.site < 72 → d.code = 0 → t.fld CORE_PWR_STAT.STATE d.site d.core = 3 ∧
          t.fld (RESET_STAT.CORE_CAUSE d.core) d.site 0 =
            (if s.fld (RESET_STAT.CORE_CAUSE d.core) d.site 0 ∈ [0, 1, 9] then 5
             else s.fld (RESET_STAT.CORE_CAUSE d.core) d.site 0)) ∧
        (d.site < 72 → d.code ∈ [1, 2, 3] → t.fld RESET_STAT.MIL_HELD d.site 0 = 1 ∧
          ∀ n, n < 4 → t.fld (RESET_STAT.CORE_CAUSE n) d.site 0 ≠ 0 ∧ 2 ≤ t.fld CORE_PWR_STAT.STATE d.site n) ∧
        (d.site < 72 → d.code = 4 → ∀ k, k < 4 → t.linkLive d.site k = false) ∧
        (d.site = 73 ∨ d.site = 75 ∨ (72 ≤ d.site ∧ 6 ≤ d.code) → ∀ k, k < 4 →
          t.portState (4 * (d.site - 72) + k) = 0 ∨ t.portState (4 * (d.site - 72) + k) = 5) ∧
        (d.site = 74 → d.code = 5 → t.fld EVT_STAT.STANDBY_OK 0 0 = 0) ∧
        (d.site = 72 → d.code = 5 → t.supply.on = false ∧ t.hb.stage = 0 ∧ t.mem = []))) ∧
    (∀ d mv set v, s.setPoint d = (set, v) → mv * 100 ≤ set * 100 + 12 * v → (d.code = 0 → mv ≤ 920) →
      Completes (.overvoltageDetect d mv) s (fun t => t = s)) ∧
    (∀ d mv, (s.dom d).isolated = true →
      ((s.setPoint d).1 * 110 < mv * 100 → Completes (.isolationCheck d mv) s (fun t => t.supply.on = false ∧
        t.supply.latch = true ∧ t.hb.stage = 0)) ∧
      (mv * 100 ≤ (s.setPoint d).1 * 110 → Completes (.isolationCheck d mv) s (fun t => (t.dom d).isolated = false ∧
        SameBut [.doms] s t)))

/-- R22, R339-R341: a core is asked to be ON, in RETAIN or OFF; it moves off only when its queues are disabled and its fullers
stopped, else the request is refused and counted; switching on is admitted or slow, ends the ramp with the core ON, and
clears its SRAM when it comes from OFF; a voltage move ends with the divider. -/
def Obligations.PowerSwitching : Prop :=
  ∀ (s : State),
    (∀ a site l n, s.ltileOf site = some l → s.denied a (.tileCsr site 0x5000) = none → n < 4 →
      s.coreEnabled (coreKey site n) = true →
      (s.coreFenced (coreKey site n) = false →
        (s.pwrState (coreKey site n) = 1 ∨ s.pwrState (coreKey site n) = 2 → (s.dom (vcore (coreKey site n))).ramp = 0 →
          Completes (.corePwrOn a site n) s (fun t => (t.dom (vcore (coreKey site n))).ramp = 1 ∧
            t.fld (CORE_PWR.REQ n) site 0 = 0 ∧
            (t.cpw (coreKey site n)).fromOff = decide (s.pwrState (coreKey site n) = 2) ∧
            RegsBut [(.CORE_PWR, site, 0)] s t ∧ SameBut [.regs, .doms, .cpwr] s t)) ∧
        (s.pwrState (coreKey site n) = 0 → s.coreIdle (coreKey site n) = true →
          Completes (.corePwrRetain a site n) s (fun t => t.pwrState (coreKey site n) = 1 ∧
            t.fld SRAM_STAT.RETAINED (coreKey site n) 0 = 1 ∧ SameBut [.regs, .doms] s t)) ∧
        ((s.pwrState (coreKey site n) = 0 ∧ s.coreIdle (coreKey site n) = true) ∨ s.pwrState (coreKey site n) = 1 →
          Completes (.corePwrOff a site n) s (fun t => t.pwrState (coreKey site n) = 2 ∧
            t.fld SRAM_STAT.RETAINED (coreKey site n) 0 = 0 ∧ SameBut [.regs, .doms] s t))) ∧
      (∀ c, (c ∈ [Instr.corePwrOn a site n, .corePwrRetain a site n, .corePwrOff a site n] ∧
            (s.coreFenced (coreKey site n) = true ∨ s.pwrState (coreKey site n) = 3)) ∨
          (c ∈ [Instr.corePwrRetain a site n, .corePwrOff a site n] ∧ s.pwrState (coreKey site n) = 0 ∧
            s.coreIdle (coreKey site n) = false) →
        Completes c s (fun t => t.pwrState (coreKey site n) = s.pwrState (coreKey site n) ∧
          t.fld CORE_PWR_STAT.REFUSED site n = 1 ∧
          t.fld SEQ_STAT.SC_COUNT (coreKey site n) 0 = satAdd 32 (s.fld SEQ_STAT.SC_COUNT (coreKey site n) 0) 1 ∧
          SameBut [.regs, .freeCtr, .events] s t))) ∧
    (∀ d, (s.dom d).ramp = 1 →
      Completes (.admissionHeadroom d) s (fun t => (t.dom d).ramp = 2 ∧ SameBut [.doms] s t) ∧
      Completes (.admissionTimeout d) s (fun t => (t.dom d).ramp = 3 ∧
        (s.withheld .ADMIT_SLOW d.site (domUnit d) 0 = false → Raised .ADMIT_SLOW d.site (domUnit d) s t) ∧
        SameBut [.doms, .regs, .freeCtr, .events] s t)) ∧
    (∀ d, 2 ≤ (s.dom d).ramp → d.core < 4 →
      (d.code = 0 → Completes (.rampDone d) s (fun t => (t.dom d).ramp = 0 ∧ t.pwrState (domCore d) = 0 ∧
        ((s.cpw (domCore d)).fromOff = true → t.fld SRAM_STAT.CLEARING (domCore d) 0 = 1 ∧
          (∀ j, j < 2 ^ 23 → memByte t.mem (sramByte (domCore d) j) = 0) ∧
          (∀ k, k < 2 ^ 40 → memByte t.mem k = memByte s.mem k)) ∧
        ((s.cpw (domCore d)).fromOff = false → t.mem = s.mem ∧ t.marks = s.marks) ∧
        SameBut [.regs, .doms, .cpwr, .mem, .marks, .fullers] s t)) ∧
      (d.code ≠ 0 → Completes (.rampDone d) s (fun t => (t.dom d).ramp = 0 ∧ SameBut [.doms] s t))) ∧
    (∀ core p, (s.cpw core).move = some p → p < 4 → Completes (.voltageMoveDone core) s (fun t =>
      t.fld CORE_PWR_STAT.POINT (siteOf core) (coreNo core) = p ∧
      t.fld CLK_STAT.DIV (siteOf core) 0 / 4 ^ coreNo core % 4 = p ∧ (t.cpw core).move = none ∧
      RegsBut [(.CORE_PWR_STAT, siteOf core, coreNo core), (.CLK_STAT, siteOf core, 0)] s t ∧
      SameBut [.regs, .cpwr] s t))

/-- R342-R349: droop stretches are counted; the issue duty halves above ILIM and doubles at 15/16 of it; a gain moves a quarter
of the way within its bounds; the efficiency stays in its range; each core under an over cap goes down one rung, those with a
reservation last; a core whose caps held 15/16 goes up one; a management cap is clamped. -/
def Obligations.PowerControl : Prop :=
  ∀ (s : State),
    (∀ core depth cycles share, s.pwrState core = 0 → 3 < depth → Completes (.droopOnset core depth cycles share) s (fun t =>
      t.fld CLK_STAT.STRETCHES (siteOf core) 0 = satAdd 32 (s.fld CLK_STAT.STRETCHES (siteOf core) 0) cycles ∧
      (10 < share → s.withheld .DROOP_MANY (siteOf core) (coreNo core) 0 = false →
        Raised .DROOP_MANY (siteOf core) (coreNo core) s t) ∧ (share ≤ 10 → t.events = s.events) ∧
      SameBut [.regs, .freeCtr, .events] s t)) ∧
    (∀ core, s.pwrState core = 0 → Completes (.estimatorInterval core) s (fun t =>
      t.fld CORE_PWR_STAT.DUTY (siteOf core) (coreNo core) =
        (if s.rung core = 20 then 3
         else if s.ilim core < t.fld CORE_PWR_STAT.EST (siteOf core) (coreNo core) * 64 then
           min 3 (s.fld CORE_PWR_STAT.DUTY (siteOf core) (coreNo core) + 1)
         else if t.fld CORE_PWR_STAT.EST (siteOf core) (coreNo core) * 64 * 16 ≤ 15 * s.ilim core then
           s.fld CORE_PWR_STAT.DUTY (siteOf core) (coreNo core) - 1
         else s.fld CORE_PWR_STAT.DUTY (siteOf core) (coreNo core)) ∧
      RegsBut [(.CORE_PWR_STAT, siteOf core, coreNo core)] s t ∧ SameBut [.regs, .cpwr, .freeCtr] s t)) ∧
    (∀ core telemetry estimate held, s.pwrState core = 0 → estimate ≠ 0 →
      Completes (.gainCalibration core telemetry estimate held) s (fun t => ∀ g g',
        g = s.fld CORE_PWR_STAT.GAIN (siteOf core) (coreNo core) → g' = t.fld CORE_PWR_STAT.GAIN (siteOf core) (coreNo core) →
        2048 ≤ g' ∧ g' ≤ 8192 ∧
        (2048 < g' → 4 * estimate * g' < 3 * g * estimate + 4096 * telemetry + 4 * estimate) ∧
        (g' < 8192 → 3 * g * estimate + 4096 * telemetry < 4 * estimate * g' + 4 * estimate) ∧
        (held = true → (g' = 2048 ∨ g' = 8192) → s.withheld .EST_DRIFT (siteOf core) (coreNo core) 0 = false →
          Raised .EST_DRIFT (siteOf core) (coreNo core) s t) ∧ SameBut [.regs, .freeCtr, .events] s t)) ∧
    (∀ w v dom, s.supply.on = true → w < 2 ^ 16 → v < 2 ^ 16 → Completes (.etaRefit w v dom) s (fun t =>
      t.fld PWR_MEAS.INPUT_W 0 0 = w ∧ t.fld PWR_MEAS.INPUT_V 0 0 = v ∧ 800 ≤ t.fld PWR_MEAS.ETA 0 0 ∧
      t.fld PWR_MEAS.ETA 0 0 ≤ 950 ∧ RegsBut [(.PWR_MEAS, 0, 0)] s t ∧ SameBut [.regs, .freeCtr] s t)) ∧
    (∀ other brim u m, s.supply.on = true → s.enabledCores.Nodup →
      m = min (s.fld MOD_CAP.HOST 0 0) (min (s.fld MOD_CAP.MGMT 0 0) (s.fld MOD_CAP.LIMIT 0 0)) →
      u = s.setFld MOD_CAP.EFFECTIVE 0 0 m → Completes (.capEvaluation other brim) s (fun t =>
        t.fld MOD_CAP.EFFECTIVE 0 0 = m ∧ t.mem = s.mem ∧
        ∀ c, c ∈ s.enabledCores →
          (∀ k w, k ∈ u.capKeys → u.capWatts k = some w → w * 1000 < u.capMw other brim k → u.stepsUnder k c = true →
            t.rung c = max (s.rungDown c (s.rung c)) (s.rungFloor c)) ∧
          ((∀ k w, k ∈ u.capKeys → u.capWatts k = some w → w * 1000 < u.capMw other brim k → u.stepsUnder k c = false) →
            t.rung c = s.rung c))) ∧
    (s.supply.on = true → s.enabledCores.Nodup → Completes .rungUp s (fun t => t.pwr.high = [] ∧ t.mem = s.mem ∧
      ∀ c, c ∈ s.enabledCores → t.rung c =
        if s.rung c ≠ 0 ∧ s.rungFloor c < s.rung c ∧ (s.capsAbove c).any (fun k => s.pwr.high.contains k) = false then
          max (s.rungUp c (s.rung c)) (s.rungFloor c)
        else s.rung c)) ∧
    (∀ w, s.supply.on = true → Completes (.managementCapWrite w) s (fun t =>
      t.fld MOD_CAP.MGMT 0 0 = (if w = 0 then 3000 else min 3000 (max 300 w)) ∧
      t.fld MOD_CAP.HOST 0 0 = s.fld MOD_CAP.HOST 0 0 ∧ t.fld MOD_CAP.LIMIT 0 0 = s.fld MOD_CAP.LIMIT 0 0 ∧
      RegsBut [(.MOD_CAP, 0, 0)] s t ∧ SameBut [.regs] s t))

/-- R115, R341, R351, R365, R366: HEAVY completes accepted or refused and counted, refused where P_res does not fit its caps or
its row plane, whose current is measured (`m` mA); a granted core holds the reservation with its LEVEL, its LEAD of at most 50 and its DUR; LIGHT and the end of DUR end it; a forecast that
ends lifts the tile caps it set. -/
def Obligations.PowerHints : Prop :=
  ∀ (s : State),
    (∀ c q f, s.atHead c q 2 0 f → cmdSigCnt f.word = 0 → cmdBits f.word 61 60 < 2 →
      Completes (.heavy c q) s (fun t => s.issued c q t ∧ (∃ m, m ≤ 80000 ∧
        (((∀ x, x ∈ s.hintCores c (cmdBits f.word 61 60) → s.resvFits x (cmdBits f.word 59 56) = true ∧
            s.planeFits x (cmdBits f.word 59 56) m = true) ∧
          t.fld SEQ_STAT.HINT_ACCEPT c 0 = satAdd 16 (s.fld SEQ_STAT.HINT_ACCEPT c 0) 1 ∧
          t.fld SEQ_STAT.HINT_REFUSED c 0 = s.fld SEQ_STAT.HINT_REFUSED c 0 ∧
          ∀ x, x ∈ s.hintCores c (cmdBits f.word 61 60) →
            t.fld CORE_PWR_STAT.RSVD_HINT (siteOf x) (coreNo x) = 1 ∧
            ∃ r, (t.core x).resv = some r ∧ r.level = cmdBits f.word 59 56 ∧ r.lead = min 50 (cmdBits f.word 39 32) ∧
              r.dur = cmdBits f.word 55 40 ∧ r.started = false ∧ r.owner = c ∧ r.pRes = s.pRes x (cmdBits f.word 59 56)) ∨
         ((∃ x, x ∈ s.hintCores c (cmdBits f.word 61 60) ∧ (s.resvFits x (cmdBits f.word 59 56) = false ∨
            s.planeFits x (cmdBits f.word 59 56) m = false)) ∧
          t.fld SEQ_STAT.HINT_REFUSED c 0 = satAdd 16 (s.fld SEQ_STAT.HINT_REFUSED c 0) 1 ∧
          t.fld SEQ_STAT.HINT_ACCEPT c 0 = s.fld SEQ_STAT.HINT_ACCEPT c 0 ∧ ∀ x, (t.core x).resv = (s.core x).resv))) ∧
        t.mem = s.mem)) ∧
    (∀ c q f u, (s.issues c q 2 0 f u → Completes (.heavy c q) s (fun t => t = (u.heavyAct c q f).queueSettle c q)) ∧
      (s.issues c q 2 1 f u → Completes (.light c q) s (fun t =>
        t = ((u.resvEnds (u.lightCores c)).finishNow c q f .ok).queueSettle c q))) ∧
    (∀ c q f, s.atHead c q 2 1 f → cmdSigCnt f.word = 0 → Completes (.light c q) s (fun t => s.issued c q t ∧
      (∀ n, n < 4 → ((t.core (coreKey (siteOf c) n)).resv =
        if coreKey (siteOf c) n ∈ s.lightCores c then none else (s.core (coreKey (siteOf c) n)).resv)) ∧
      (∀ x, siteOf x ≠ siteOf c → t.core x = s.core x) ∧
      SameBut [.regs, .freeCtr, .events, .mils, .cores, .pwr] s t)) ∧
    (∀ core r, (s.core core).resv = some r →
      Completes (.reservationStart core) s (fun t => (t.core core).resv = some { r with started := true } ∧
        (∀ x, x ≠ core → t.core x = s.core x) ∧ SameBut [.cores] s t) ∧
      (r.started = true → Completes (.reservationEnd core) s (fun t => (t.core core).resv = none ∧
        t.fld CORE_PWR_STAT.RSVD_HINT (siteOf core) (coreNo core) = 0 ∧
        (∀ f, f ∈ t.pwr.forecasts → f.core = core → f.ended = true) ∧ SameBut [.regs, .cores, .pwr] s t)) ∧
      (r.started = false → Completes (.reservationEnd core) s (fun t => t = s))) ∧
    (∀ core f, s.pwr.forecasts.find? (fun f => f.core == core && f.ended) = some f →
      Completes (.forecastEnd core) s (fun t => t.pwr.forecasts = s.pwr.forecasts.erase f ∧
        (∀ x p, x ∈ f.caps.map (·.1) → (∀ g v, g ∈ t.pwr.forecasts → (x, v) ∉ g.caps) → p = Tbl.at s.pwr.pf0 x 0 →
          p < 2 ^ 16 → t.fld PWR_CAP.CAP x 0 = p) ∧ SameBut [.regs, .pwr] s t))

/-! ## Temperature and coolant (17) -/

/-- R354, R356-R360, R364, R367: a reading in range moves its die's temperature, with the warning, the stepped floor, the clamp and
the DRAM throttle it calls for, and a trip beyond the trip points; a reading out of range or a missing one breaks the sensor,
which reads T_crit from then on; a brim die lowers BRIM_W; the inlet limit follows its thermistor, 2,000 W when broken; LIMIT
is the lowest of four; half-cycles only gain, and their counts reach flash. -/
def Obligations.ThermalResponses : Prop :=
  ∀ (s : State), s.supply.on = true →
    (∀ x e i v, sensorPlace x = (e, i) → sensorOk x = true → s.sensorRetired e i = false → s.sensorBroken e i = false →
      (-640 ≤ v → v ≤ 2400 → Completes (.tempSample x v) s (fun t => t.reading e i = some v ∧
        (e < 72 → ∀ T, t.dieTemp e = some T →
          t.fld THERM_STAT.DIE_T e 0 = unsignedOf 16 T ∧
          (t.fld THERM_STAT.WARN e 0 = 1 ↔ 98 * 16 ≤ T) ∧
          (t.fld THERM_STAT.CLAMP e 0 = 1 ↔ 110 * 16 ≤ T ∨ (s.fld THERM_STAT.CLAMP e 0 = 1 ∧ 109 * 16 < T)) ∧
          Tbl.at t.therm.steps e 0 = max (stepFloor T) (min (Tbl.at s.therm.steps e 0) (stepFloor (T + 15))) ∧
          t.fld THERM_STAT.FLOOR e 0 = max (Tbl.at t.therm.steps e 0)
            (max (if t.fld THERM_STAT.CLAMP e 0 = 1 then 16 else 0) (if s.shedding then 20 else 0)) ∧
          (∀ c, c ∈ s.enabledCores → siteOf c = e → t.fld THERM_STAT.FLOOR e 0 ≤ t.rung c) ∧
          (118 * 16 < T → t.supply.trip = true ∧ (s.supply.trip = false → t.hb.halted = true ∧
            t.nv.cycles = s.therm.counts ∧ t.nv.trip = some { boot := s.fld BOOT_STAGE.BOOT_COUNT 0 0, source := 1, site := e, temp := T } ∧
            ∀ c, c ∈ s.enabledCores → 20 ≤ t.rung c))) ∧
        (e < 72 → ∀ T, t.dramTemp e = some T →
          t.fld THERM_STAT.DRAM_T e 0 = unsignedOf 16 T ∧
          Tbl.at t.therm.thr e 0 = max (thrOf T) (min (Tbl.at s.therm.thr e 0) (thrOf (T + 15))) ∧
          t.fld THERM_STAT.THR e 0 = (if s.shedding then 15 else Tbl.at t.therm.thr e 0) ∧
          (110 * 16 < T → t.supply.trip = true)) ∧
        (72 ≤ e → ∀ d T, d < 4 → t.dieTemp (72 + d) = some T →
          t.fld THERM_LIMITS.BRIM_W 0 0 ≤ 3000 - 150 * (T - 1600).toNat / 16 ∧
          (e = 72 + d → 115 * 16 < T → t.supply.trip = true)) ∧
        (72 ≤ e → (∀ d T, d < 4 → t.dieTemp (72 + d) = some T → T ≤ 1600) → t.fld THERM_LIMITS.BRIM_W 0 0 = 3000) ∧
        t.mem = s.mem)) ∧
      (∀ c, c = .sensorMissing x ∨ ((v < -640 ∨ 2400 < v) ∧ c = .tempSample x v) → Completes c s (fun t =>
        t.sensorBroken e i = true ∧ t.reading e i = some (tCrit e i) ∧ AlsoRaised .SENSOR_BROKEN e (endUnit e) s t ∧
        t.mem = s.mem))) ∧
    (∀ inlet outlet,
      (∀ v, inlet = some v → -320 ≤ v → v ≤ 1920 → s.fld COOL_STAT.IN_BROKEN 0 0 = 0 →
        Completes (.thermistorSample inlet outlet) s (fun t => t.fld COOL_STAT.INLET 0 0 = unsignedOf 12 v ∧
          t.fld COOL_STAT.IN_BROKEN 0 0 = 0 ∧ t.therm.inMiss = 0 ∧
          max 1050 (3000 - (100 * (v - 720).toNat + 15) / 16) ≤ t.fld THERM_LIMITS.INLET_W 0 0 ∧
          t.fld THERM_LIMITS.INLET_W 0 0 ≤ max 1050 (3000 - 100 * (v - 720).toNat / 16) ∧
          SameBut [.regs, .freeCtr, .events, .therm] s t)) ∧
      (s.fld COOL_STAT.IN_BROKEN 0 0 = 1 ∨ (inlet = none ∧ 9 ≤ s.therm.inMiss) ∨ (∃ v, inlet = some v ∧ (v < -320 ∨ 1920 < v)) →
        Completes (.thermistorSample inlet outlet) s (fun t => t.fld COOL_STAT.IN_BROKEN 0 0 = 1 ∧
          t.fld THERM_LIMITS.INLET_W 0 0 = 2000 ∧ (s.fld COOL_STAT.IN_BROKEN 0 0 = 0 →
            AlsoRaised .THERMISTOR_BROKEN (72 + s.hb.active) uHatband s t) ∧
          SameBut [.regs, .freeCtr, .events, .therm] s t)) ∧
      (inlet = none → s.fld COOL_STAT.IN_BROKEN 0 0 = 0 → s.therm.inMiss < 9 →
        Completes (.thermistorSample inlet outlet) s (fun t => t.fld COOL_STAT.IN_BROKEN 0 0 = 0 ∧
          t.therm.inMiss = s.therm.inMiss + 1 ∧ t.fld THERM_LIMITS.INLET_W 0 0 = s.fld THERM_LIMITS.INLET_W 0 0)) ∧
      (∀ v, outlet = some v → -320 ≤ v → v ≤ 1920 → s.fld COOL_STAT.OUT_BROKEN 0 0 = 0 →
        Completes (.thermistorSample inlet outlet) s (fun t => t.fld COOL_STAT.OUTLET 0 0 = unsignedOf 12 v ∧
          t.fld COOL_STAT.OUT_BROKEN 0 0 = 0))) ∧
    Completes .limitUpdate s (fun t => t.fld MOD_CAP.LIMIT 0 0 = min (s.fld THERM_LIMITS.COOL_W 0 0)
        (min (s.fld THERM_LIMITS.INLET_W 0 0) (min (s.fld THERM_LIMITS.BRIM_W 0 0) (s.fld THERM_LIMITS.BRICK_W 0 0))) ∧
      RegsBut [(.MOD_CAP, 0, 0)] s t ∧ SameBut [.regs] s t) ∧
    Completes .cycleSample s (fun t => (∀ k, Tbl.at s.therm.counts k 0 < 2 ^ 32 →
        Tbl.at s.therm.counts k 0 ≤ Tbl.at t.therm.counts k 0) ∧ t.therm.readings = s.therm.readings ∧ SameBut [.therm] s t) ∧
    Completes .cycleFlashWrite s (fun t => t.nv.cycles = s.therm.counts ∧ t.nv.trip = s.nv.trip ∧ SameBut [.nv] s t)

/-- R360-R363: the coolant state follows the flow of the last five updates over the setpoint, with its limit; SHED, by
pulses or slope, holds every core at floor 20 and every tile at THR 15 and ends only after a second of flow; its slope
or hot dies after a second trip the module, and the first stage opens after any trip. The trip record and the order of
steps are those of logs 46 and 82. -/
def Obligations.CoolantStates : Prop :=
  ∀ (s : State), s.supply.on = true → StepsBounded s.therm →
    Completes .flowPulse s (fun t => t.flowNum = s.flowNum + 240000 ∧ t.therm.pulses.tail = s.therm.pulses.tail ∧
      SameBut [.therm] s t) ∧
    (∀ n d, n = s.flowNum → d = s.fld COOL_CFG.KFACTOR 0 0 * s.fld COOL_CFG.SETPOINT 0 0 →
      (s.shedding = false → Completes .flowUpdate s (fun t =>
        t.fld COOL_STAT.STATE 0 0 = (if 85 * d ≤ 100 * n then 0 else if 70 * d ≤ 100 * n then 1
          else if 50 * d ≤ 100 * n then 2 else 3) ∧
        (t.fld COOL_STAT.STATE 0 0 < 2 → t.fld THERM_LIMITS.COOL_W 0 0 = 3000) ∧
        (t.fld COOL_STAT.STATE 0 0 = 3 → t.fld THERM_LIMITS.COOL_W 0 0 = 1050) ∧
        (t.fld COOL_STAT.STATE 0 0 = 2 → 1050 ≤ t.fld THERM_LIMITS.COOL_W 0 0 ∧ t.fld THERM_LIMITS.COOL_W 0 0 ≤ 3000 ∧
          (t.fld THERM_LIMITS.COOL_W 0 0 - 1050) * (2 * d) < (10 * n - 5 * d) * 1950 + 2 * d ∧
          (10 * n - 5 * d) * 1950 < (t.fld THERM_LIMITS.COOL_W 0 0 - 1050 + 1) * (2 * d)) ∧
        (s.fld COOL_STAT.STATE 0 0 ≠ t.fld COOL_STAT.STATE 0 0 → AlsoRaised .COOL_STATE (72 + s.hb.active) uHatband s t) ∧
        t.therm.pulses = 0 :: s.therm.pulses.take 5 ∧ SameBut [.regs, .freeCtr, .events, .therm] s t)) ∧
      (s.shedding = true → (100 * n < 85 * d ∨ s.therm.pulses.headD 0 = 0 ∨ s.therm.steady < 19) → Completes .flowUpdate s (fun t =>
        t.shedding = true ∧ t.fld THERM_LIMITS.COOL_W 0 0 = s.fld THERM_LIMITS.COOL_W 0 0 ∧
        t.therm.pulses = 0 :: s.therm.pulses.take 5 ∧ SameBut [.regs, .freeCtr, .events, .therm] s t)) ∧
      (s.shedding = true → 85 * d ≤ 100 * n → s.therm.pulses.headD 0 ≠ 0 → 19 ≤ s.therm.steady →
        Completes .flowUpdate s (fun t => t.fld COOL_STAT.STATE 0 0 = 0 ∧ t.fld COOL_STAT.SHED_CAUSE 0 0 = 0 ∧
          t.fld THERM_LIMITS.COOL_W 0 0 = 3000 ∧ ∀ e, e < 72 → t.fld THERM_STAT.FLOOR e 0 =
            max (Tbl.at s.therm.steps e 0) (if s.fld THERM_STAT.CLAMP e 0 = 1 then 16 else 0)))) ∧
    (∀ c cause, s.shedding = false → ((c = .flowPulseTimeout ∧ cause = 1) ∨
        (c = .slopeEvaluation ∧ cause = 2 ∧ 8 ≤ s.hotTiles ∧ 8 ≤ s.therm.hot1)) →
      Completes c s (fun t => t.shedding = true ∧ t.fld COOL_STAT.SHED_CAUSE 0 0 = cause ∧ t.therm.steady = 0 ∧
        t.fld THERM_LIMITS.COOL_W 0 0 = 300 ∧ AlsoRaised .COOL_STATE (72 + s.hb.active) uHatband s t ∧
        LastRaised .COOL_SHED (72 + s.hb.active) uHatband t ∧ (∀ e, e < 72 → t.fld THERM_STAT.THR e 0 = 15) ∧
        (∀ c, c ∈ s.enabledCores → siteOf c < 72 → 20 ≤ t.rung c) ∧ t.mem = s.mem)) ∧
    (s.shedding = true → Completes .flowPulseTimeout s (fun t => t = s)) ∧
    Completes .slopeEvaluation s (fun t => t.therm.hot1 = s.hotTiles ∧ t.therm.hot2 = s.therm.hot1 ∧
      t.therm.prev2 = s.therm.prev1 ∧ t.therm.prev1 = s.dieTemps ∧
      (s.hotTiles < 8 ∨ s.therm.hot1 < 8 ∨ s.shedding = true → SameBut [.therm] s t)) ∧
    (s.shedding = true → s.supply.trip = false →
      ((8 ≤ s.therm.hot1 ∧ 8 ≤ s.therm.hot2) ∨ ∃ e T, e < 72 ∧ s.dieTemp e = some T ∧ 105 * 16 < T) →
      Completes .coolantTripCheck s (fun t => t.supply.on = false ∧ t.supply.latch = true ∧ t.hb.halted = true ∧
        t.nv.trip.map (·.source) = some 4)) ∧
    (s.shedding = false ∨ ((s.therm.hot1 < 8 ∨ s.therm.hot2 < 8) ∧ ∀ e T, e < 72 → s.dieTemp e = some T → T ≤ 105 * 16) →
      Completes .coolantTripCheck s (fun t => t = s)) ∧
    (s.supply.trip = true → Completes .tripEnableOpen s (fun t => t.supply.on = false ∧ t.supply.latch = true ∧
      t.hb.stage = 0 ∧ t.hb.halted = s.hb.halted ∧ t.nv = s.nv)) ∧
    (s.supply.trip = false → Completes .tripEnableOpen s (fun t => t = s))

/-! ## Events (18) -/

/-- R380-R382, R311: the oldest record that waits is taken: one of SEV 2 or 3 is in the flash store and has asked for
an I3C interrupt, one of an enabled class and SEV is in its tile's milliner ring, or lost and counted while that is
full; from READY each function it belongs to has it in its buffer, or has counted it while full, and before READY no
function has; a buffer that was empty, or a SEV above every notice's, gives a notice in CQ0, and nothing else does.
Delivery before READY is that of log 95. -/
def Obligations.EventDelivery : Prop :=
  ∀ (s : State) x xs, s.supply.on = true → s.events.undelivered = x :: xs → s.events.flash.length ≤ 4096 →
    (∀ c, c = Instr.eventDelivery → s.events.early = [] ∨ s.hb.stage ≠ 7 → Completes c s (fun t =>
      t.events.undelivered = xs ∧ t.events.log = s.events.log ∧
      (2 ≤ x.sev → t.events.flash = (x :: s.events.flash).take 4096 ∧ t.events.i3c = s.events.i3c + 1) ∧
      (x.sev < 2 → t.events.flash = s.events.flash ∧ t.events.i3c = s.events.i3c) ∧
      t.fld EVT_STAT.FLASH_COUNT 0 0 = t.events.flash.length ∧
      (x.site < 72 → (s.ltileOf x.site).isSome = true → (s.fld MIL_EVT_CFG.CLASS_EN x.site 0).testBit (x.cls - 1) = true →
        s.fld MIL_EVT_CFG.SEV_MIN x.site 0 ≤ x.sev →
        (x.site ∉ s.events.milFull →
          Tbl.find t.events.milRing (64 * x.site + s.fld MIL_EVT_PTR.TAIL x.site 0) = some x ∧
          t.fld MIL_EVT_PTR.TAIL x.site 0 = (s.fld MIL_EVT_PTR.TAIL x.site 0 + 1) % 64) ∧
        (x.site ∈ s.events.milFull → t.events.milRing = s.events.milRing ∧
          t.fld MIL_EVT_PTR.LOST x.site 0 = satAdd 16 (s.fld MIL_EVT_PTR.LOST x.site 0) 1)) ∧
      (s.hb.stage ≠ 7 → t.events.early = s.events.early ++ [x] ∧ t.events.bufs = s.events.bufs ∧ t.hostOut = s.hostOut) ∧
      SameBut [.regs, .events, .mils, .fns, .hostOut] s t)) ∧
    (∀ r, s.hb.stage = 7 → (s.events.early = [] ∧ r = x) ∨ (∃ rs, s.events.early = r :: rs) →
      Completes .eventDelivery s (fun t => t.events.early = s.events.early.tail ∧
        (s.events.early ≠ [] → t.events.undelivered = s.events.undelivered ∧ t.events.flash = s.events.flash) ∧
        (∀ f, f ∉ s.readers r → t.evtBuf f = s.evtBuf f) ∧
        (∀ f, f ∈ s.readers r → (s.fld HIF_EVT_CFG.CLASS_EN f 0).testBit (r.cls - 1) = false → t.evtBuf f = s.evtBuf f) ∧
        (∀ f, f ∈ s.readers r → (s.fld HIF_EVT_CFG.CLASS_EN f 0).testBit (r.cls - 1) = true →
          (1024 ≤ (s.evtBuf f).recs.length →
            t.evtBuf f = { s.evtBuf f with dropped := (s.evtBuf f).dropped + 1 }) ∧
          ((s.evtBuf f).recs.length < 1024 → (t.evtBuf f).recs = (s.evtBuf f).recs ++ [r] ∧
            (t.evtBuf f).dropped = (s.evtBuf f).dropped ∧
            ∀ c, Tbl.find (s.fn f).cqs 0 = some c → c.tail - c.head < c.size → s.fld HIF_EVT_CFG.NOTICE_SEV f 0 ≤ r.sev →
              ((s.evtBuf f).recs = [] ∨ (s.evtBuf f).noticed = none ∨ ∃ n, (s.evtBuf f).noticed = some n ∧ n < r.sev) →
              ∃ hd, SentToHost (.mem f (c.base + 16 * (c.tail % c.size))
                (leBytes 16 (cqEntry 1 .ok 0xFFFF 0 hd (t.evtBuf f).notice + passBit c.size c.tail * 2 ^ 127))) s t)) ∧
        ((∀ f, f ∈ s.readers r → Tbl.find (s.fn f).cqs 0 = none ∨ r.sev < s.fld HIF_EVT_CFG.NOTICE_SEV f 0 ∨
          (1024 ≤ (s.evtBuf f).recs.length) ∨
          ((s.evtBuf f).recs ≠ [] ∧ ∃ n, (s.evtBuf f).noticed = some n ∧ r.sev ≤ n)) → t.hostOut = s.hostOut)))

/-- R375, R429, R433: the end of a die's window lets every limited event of its sources be raised again and changes no other die's;
the mirror copies the active Hatband's caps, limits and group tables to a good standby; a failing Hatband hands its role
to it, each mirrored register as it was or as mirrored, or halts the module without it. -/
def Obligations.WindowsAndStandby : Prop :=
  ∀ (s : State),
    (∀ die, Completes (.rateWindowEnd die) s (fun t =>
      (∀ e site unit sub, site < 256 → unit < 256 → sub < 2 ^ 32 →
        ((if site = 0xFF then 72 else site) = die → t.withheld e site unit sub = false) ∧
        ((if site = 0xFF then 72 else site) ≠ die → t.withheld e site unit sub = s.withheld e site unit sub)) ∧
      t.events.log = s.events.log ∧ t.events.undelivered = s.events.undelivered ∧
      (∀ d, d < 9 → (t.meshEnd die d).discards = 0) ∧ SameBut [.events, .mesh] s t)) ∧
    (s.supply.on = true → s.hb.halted = false → 2 ≤ s.hb.stage → s.standbyGood = true → Completes .hatbandMirror s (fun t =>
      t.fld EVT_STAT.STANDBY_OK 0 0 = 1 ∧ t.hb.mirror = s.mirrored ∧ t.hb.logged = s.fld EVT_STAT.WRITTEN 0 0 ∧
      t.hb.active = 0 ∧ RegsBut [(.EVT_STAT, 0, 0)] s t ∧ SameBut [.regs, .hb] s t)) ∧
    (s.hb.stage < 2 ∨ s.standbyGood = false → Completes .hatbandMirror s (fun t => t = s)) ∧
    (∀ cause, s.supply.on = true → s.hb.halted = false →
      (s.fld EVT_STAT.STANDBY_OK 0 0 = 1 → s.standbyGood = true → (∀ y, y ∈ s.hb.mirror → y.1 % 2 ^ 7 ∈ mirrorRegs) → Completes (.hatbandWdogExpiry cause) s (fun t =>
        t.hb.active = 2 ∧ t.hb.halted = false ∧ t.fld EVT_STAT.STANDBY_OK 0 0 = 0 ∧ LastRaised .HB_FAILOVER 74 uHatband t ∧
        (∀ r u i, i < 2 ^ 16 → r.num ∈ mirrorRegs → t.reg r u i = s.reg r u i ∨
          t.reg r u i = (Tbl.find s.hb.mirror (regKey r u i)).getD
            ((Tbl.find s.loaded (regKey r u i)).getD (r.resetWord u i))) ∧
        (∀ r u i, i < 2 ^ 16 → r.num ∉ mirrorRegs → (r, u, i) ≠ (.EVT_STAT, 0, 0) → t.reg r u i = s.reg r u i) ∧
        t.mem = s.mem)) ∧
      (s.fld EVT_STAT.STANDBY_OK 0 0 = 0 ∨ s.standbyGood = false → Completes (.hatbandWdogExpiry cause) s (fun t =>
        t.hb.halted = true ∧ t.hb.active = s.hb.active ∧ LastRaised .HB_FAILOVER (72 + s.hb.active) uHatband t ∧
        SameBut [.regs, .freeCtr, .events, .hb, .nv] s t)))

/-! ## Identity, attestation and update (19) -/

/-- R405-R409: an SPDM connection goes from GET_VERSION to capabilities, algorithms, digests, certificate and
challenge of slot 0, measurements and a session, each request refused as unexpected elsewhere; a requester gets the
measurement blocks it may see, a weight block only once it is ready; a session's function programs its IDE stream,
moves its TDI and turns E2E on, whose key ends with the session. The SPDM and TDISP codes are PRESUMED (logs 98, 99). -/
def Obligations.Attestation : Prop :=
  ∀ (s : State) x ph, s.hears x = true → ph = (s.spdm x).phase →
    (∀ c code lo hi slot nonce secret ok all index body, (c, code, lo, hi) ∈ [(Instr.getVersion x, 0x84, 0, 5),
        (.getCapabilities x, 0xE1, 1, 1), (.negotiateAlgorithms x all, 0xE3, 2, 2), (.getDigests x, 0x81, 3, 5),
        (.getCertificate x slot, 0x82, 3, 5), (.challenge x slot nonce, 0x83, 3, 5), (.getMeasurements x index, 0xE0, 3, 5),
        (.keyExchange x secret, 0xE4, 3, 5), (.finish x ok, 0xE5, 4, 4), (.keyUpdate x, 0xE9, 5, 5), (.heartbeat x, 0xE8, 5, 5),
        (.endSession x, 0xEC, 5, 5), (.vendorDefinedRequest x body, 0xFE, 5, 5)] → (ph < lo ∨ hi < ph) →
      Completes c s (fun t => Answered (some x) code false 0x04 [] s t ∧ t.spdm x = s.spdm x ∧ SameBut [.sec] s t)) ∧
    (ph ≤ 5 → Completes (.getVersion x) s (fun t => Answered (some x) 0x84 true 0 [0x13] s t ∧ (t.spdm x).phase = 1 ∧
      SameBut [.sec, .freeCtr] s t)) ∧
    (ph = 1 → Completes (.getCapabilities x) s (fun t => Answered (some x) 0xE1 true 0 [] s t ∧ (t.spdm x).phase = 2 ∧
      SameBut [.sec, .freeCtr] s t)) ∧
    (ph = 2 → Completes (.negotiateAlgorithms x true) s (fun t => Answered (some x) 0xE3 true 0 [] s t ∧ (t.spdm x).phase = 3 ∧
        SameBut [.sec, .freeCtr] s t) ∧
      Completes (.negotiateAlgorithms x false) s (fun t => Answered (some x) 0xE3 false 0x01 [] s t ∧ (t.spdm x).phase = 2 ∧
        SameBut [.sec] s t)) ∧
    (3 ≤ ph → ph ≤ 5 →
      Completes (.getDigests x) s (fun t => Answered (some x) 0x81 true 0 [] s t ∧ t.spdm x = s.spdm x ∧ SameBut [.sec, .freeCtr] s t) ∧
      (∀ n, Completes (.getCertificate x 0) s (fun t => Answered (some x) 0x82 true 0 [] s t ∧ SameBut [.sec, .freeCtr] s t) ∧
        Completes (.challenge x 0 n) s (fun t => Answered (some x) 0x83 true 0 (leBytes 32 n.toNat) s t ∧
          SameBut [.sec, .freeCtr] s t)) ∧
      (∀ slot n, slot ≠ 0 → Completes (.getCertificate x slot) s (fun t => Answered (some x) 0x82 false 0x01 [] s t ∧ SameBut [.sec] s t) ∧
        Completes (.challenge x slot n) s (fun t => Answered (some x) 0x83 false 0x01 [] s t ∧ SameBut [.sec] s t)) ∧
      (∀ key, Completes (.keyExchange x key) s (fun t => Answered (some x) 0xE4 true 0 [] s t ∧ (t.spdm x).phase = 4 ∧
        (t.spdm x).secret = key ∧ SameBut [.sec, .freeCtr] s t)) ∧
      (∀ i, 1 ≤ i → i ≤ 8 → Completes (.getMeasurements x i) s (fun t => Answered (some x) 0xE0 true 0
        (leBytes 1 i ++ leBytes 64 (s.measure 0 i).2.toNat) s t ∧ SameBut [.sec, .freeCtr] s t)) ∧
      (∀ i, s.measureOf x i = none → Completes (.getMeasurements x i) s (fun t => Answered (some x) 0xE0 false 0x01 [] s t ∧
        SameBut [.sec] s t)) ∧
      (∀ i p, s.measureOf x i = some p → (i = 9 ∨ 0x10 ≤ i) →
        (16 + p ∉ (s.spdm x).waits → Completes (.getMeasurements x i) s (fun t => Answered (some x) 0xE0 false 0x42 [] s t ∧
          p ∈ (t.spdm x).waits ∧ SameBut [.sec] s t)) ∧
        (16 + p ∈ (s.spdm x).waits → Completes (.getMeasurements x i) s (fun t => Answered (some x) 0xE0 true 0
          (leBytes 1 i ++ leBytes 64 ((s.part p).weight.getD 0).toNat) s t ∧ SameBut [.sec, .freeCtr] s t))) ∧
      (∀ i p m, s.measureOf x i = some p → (i = 10 ∨ i = 11) → m = s.measure p i → Completes (.getMeasurements x i) s (fun t =>
        Answered (some x) 0xE0 true 0 (leBytes 1 i ++ leBytes 64 m.2.toNat) m.1 t ∧ SameBut [.sec, .freeCtr] m.1 t))) ∧
    (∀ p, p ∈ (s.spdm x).waits → p < 8 → Completes (.measurementReady p) s (fun t => (t.part p).weight.isSome = true ∧
      16 + p ∈ (t.spdm x).waits ∧ p ∉ (t.spdm x).waits)) ∧
    (ph = 4 →
      Completes (.finish x true) s (fun t => Answered (some x) 0xE5 true 0 [] s t ∧ (t.spdm x).phase = 5 ∧
        Raised .SPDM_SESSION (72 + s.hb.active) uHatband s t ∧ SameBut [.sec, .freeCtr, .events, .regs] s t) ∧
      Completes (.finish x false) s (fun t => Answered (some x) 0xE5 false 0x01 [] s t ∧ (t.spdm x).phase = 3 ∧
        (t.spdm x).secret = 0 ∧ Raised .SPDM_SESSION (72 + s.hb.active) uHatband s t ∧ SameBut [.sec, .freeCtr, .events, .regs] s t)) ∧
    (ph = 5 →
      Completes (.keyUpdate x) s (fun t => Answered (some x) 0xE9 true 0 [] s t ∧ t.spdm x = s.spdm x ∧ SameBut [.sec, .freeCtr] s t) ∧
      Completes (.heartbeat x) s (fun t => Answered (some x) 0xE8 true 0 [] s t ∧ t.spdm x = s.spdm x ∧ SameBut [.sec, .freeCtr] s t) ∧
      Completes (.endSession x) s (fun t => Answered (some x) 0xEC true 0 [] s t ∧ (t.spdm x).phase = 3 ∧ (t.spdm x).secret = 0 ∧
        (∀ f, x = .doe f → (t.fn f).e2eKey = none ∧ (t.fn f).lastIv = none) ∧
        Raised .SPDM_SESSION (72 + s.hb.active) uHatband s t ∧ SameBut [.sec, .freeCtr, .events, .regs, .fns] s t) ∧
      (∀ body, byAt body 0 1 ≠ 1 → Completes (.vendorDefinedRequest x body) s (fun t => Answered (some x) 0xFE true 0 [] s t ∧
        SameBut [.sec, .freeCtr] s t)) ∧
      (∀ f, x = .doe f → f ≠ 0 →
        (∀ body m n, byAt body 0 1 = 1 → byAt body 1 1 = m → ((m = 0x83 ∧ (s.ide f).tdi = 0 ∧ n = 1) ∨
            (m = 0x86 ∧ (s.ide f).tdi = 1 ∧ n = 2) ∨ (m = 0x87 ∧ n = 0)) →
          Completes (.vendorDefinedRequest x body) s (fun t => Answered (some x) 0xFE true 0 [] s t ∧ (t.ide f).tdi = n ∧
            (t.ide f).keys = (s.ide f).keys ∧ SameBut [.sec, .freeCtr] s t)) ∧
        Completes (.e2eOn f) s (fun t => Answered (some x) 0xFE true 0 [] s t ∧
          (t.fn f).e2eKey = some (Config.hkdf (s.spdm x).secret 0 32) ∧ SameBut [.sec, .freeCtr, .fns] s t)) ∧
      (∀ f k key, x = .doe f →
        (k < 2 → Completes (.keyProg f k key) s (fun t => Answered (some x) 0xFE true 0 [] s t ∧
          Tbl.find (t.ide f).keys k = some key ∧ (t.ide f).inUse = (s.ide f).inUse ∧ SameBut [.sec, .freeCtr] s t)) ∧
        (2 ≤ k → Completes (.keyProg f k key) s (fun t => Answered (some x) 0xFE false 0x01 [] s t ∧ SameBut [.sec] s t)) ∧
        (Tbl.find (s.ide f).keys k ≠ none → Completes (.kSetGo f k) s (fun t => Answered (some x) 0xFE true 0 [] s t ∧
          (t.ide f).inUse = some k ∧ SameBut [.sec, .freeCtr] s t)) ∧
        (Tbl.find (s.ide f).keys k = none → Completes (.kSetGo f k) s (fun t => Answered (some x) 0xFE false 0x01 [] s t ∧
          SameBut [.sec] s t)) ∧
        ((s.ide f).inUse = some k → Completes (.kSetStop f k) s (fun t => Answered (some x) 0xFE true 0 [] s t ∧
          (t.ide f).inUse = none ∧ SameBut [.sec, .freeCtr] s t)) ∧
        ((s.ide f).inUse ≠ some k → Completes (.kSetStop f k) s (fun t => Answered (some x) 0xFE false 0x01 [] s t ∧
          SameBut [.sec] s t))))

/-- R388, R389, R396, R397, R399, R400: one update agent at a time, none while the ACTIVE slot is TRIAL or CONFIRMING;
components are taken 4,096 bytes at a time, verified, and staged when all have been; activation makes the staged slot
ACTIVE in TRIAL, at once only under R400; CONFIRM raises the counters and makes the slot GOOD, REVERT gives it back at
the next bring-up; an owner slot is enrolled over I3C while blank, and a revocation burns only what R389 lets it. The
PLDM codes are PRESUMED (log 100), an order's layout too (log 102). -/
def Obligations.FirmwareUpdate : Prop :=
  ∀ (s : State) x b, b = 1 - s.nv.active →
    (s.pldmHears x = true →
      Completes (.queryDeviceIdentifiers x) s (fun t => Answered (some x) 0x01 true 0 [] s t ∧ SameBut [.sec, .freeCtr] s t) ∧
      Completes (.getFirmwareParameters x) s (fun t => Answered (some x) 0x02 true 0 s.componentBytes s t ∧
        SameBut [.sec, .freeCtr] s t) ∧
      Completes (.getStatus x) s (fun t => Answered (some x) 0x1B true 0 (leBytes 1 ((s.sec.upd.map (·.state)).getD 0)) s t ∧
        SameBut [.sec] s t) ∧
      (∀ u, s.sec.upd = some u → Completes (.requestUpdate x) s (fun t => Answered (some x) 0x10 false 0x81 [] s t ∧
        t.sec.upd = s.sec.upd ∧ SameBut [.sec] s t)) ∧
      (s.sec.upd = none → ((s.slot s.nv.active).state = 2 ∨ (s.slot s.nv.active).state = 3) →
        Completes (.requestUpdate x) s (fun t => Answered (some x) 0x10 false 0x84 [] s t ∧ t.sec.upd = none ∧ SameBut [.sec] s t)) ∧
      (s.sec.upd = none → (s.slot s.nv.active).state ≠ 2 → (s.slot s.nv.active).state ≠ 3 →
        Completes (.requestUpdate x) s (fun t => Answered (some x) 0x10 true 0 [] s t ∧ t.sec.upd = some { by_ := x } ∧
          SameBut [.sec] s t)) ∧
      (∀ c code cs comp size bytes sc, (∀ u, s.sec.upd = some u → u.by_ ≠ x) → (c, code) ∈ [(Instr.passComponentTable x cs, 0x13),
          (.updateComponent x comp size, 0x14), (.requestFirmwareData x bytes, 0x15), (.activateFirmware x sc, 0x1A),
          (.cancelUpdateComponent x, 0x1C), (.cancelUpdate x, 0x1D)] → Completes c s (fun t =>
        Answered (some x) code false 0x80 [] s t ∧ t.sec.upd = s.sec.upd ∧ SameBut [.sec] s t)) ∧
      (∀ u, s.sec.upd = some u → u.by_ = x →
        (∀ cs, u.state = 1 → (∀ k, k ∈ cs → 1 ≤ k ∧ k ≤ 5) → distinct cs = true → Completes (.passComponentTable x cs) s (fun t =>
          Answered (some x) 0x13 true 0 [] s t ∧ t.sec.upd = some { u with state := 2, comps := cs } ∧ SameBut [.sec] s t)) ∧
        (∀ k n, u.state = 2 → k ∈ u.comps → n ≠ 0 → n ≤ 512 + maxBody (k - 1) → Completes (.updateComponent x k n) s (fun t =>
          Answered (some x) 0x14 true 0 [] s t ∧ t.sec.upd = some { u with state := 3, cur := some (k, n), part := [] } ∧
          (t.slot b).state = 0 ∧ t.nv.active = s.nv.active ∧ SameBut [.sec, .nv, .regs] s t)) ∧
        (∀ k n bytes l, u.cur = some (k, n) → bytes.length = min 4096 (n - u.part.length) → l = u.part ++ bytes →
          (l.length < n → Completes (.requestFirmwareData x bytes) s (fun t => Answered (some x) 0x15 true 0 [] s t ∧
            t.sec.upd = some { u with part := l } ∧ SameBut [.sec] s t)) ∧
          (n ≤ l.length → s.verifyImage l (k - 1) ≠ 0 → Completes (.requestFirmwareData x bytes) s (fun t =>
            Answered (some x) 0x17 false 0x20 [] s t ∧ t.sec.upd = some { u with state := 2, cur := none, part := [] } ∧
            t.nv = s.nv ∧ SameBut [.sec, .regs, .freeCtr, .events] s t)) ∧
          (n ≤ l.length → s.verifyImage l (k - 1) = 0 → ∀ got, got = Tbl.set u.got (k - 1) l →
            ((∃ j, j ∈ u.comps ∧ Tbl.find got (j - 1) = none) → Completes (.requestFirmwareData x bytes) s (fun t =>
              Answered (some x) 0x17 true 0 [] s t ∧
              t.sec.upd = some { u with state := 2, cur := none, part := [], got := got } ∧ SameBut [.sec] s t)) ∧
            (∀ imgs, (∀ j, j ∈ u.comps → Tbl.find got (j - 1) ≠ none) →
              imgs = got.foldl (fun m y => Tbl.set m y.1 y.2) (s.slot s.nv.active).images →
              (∀ y, y ∈ imgs → s.verifyImage y.2 y.1 = 0) → Completes (.requestFirmwareData x bytes) s (fun t =>
                Answered (some x) 0x17 true 0 [] s t ∧ (t.slot b).state = 1 ∧ (t.slot b).images = imgs ∧
                t.nv.active = s.nv.active ∧ LastRaised .UPD_STAGED (72 + s.hb.active) uHatband t ∧
                SameBut [.sec, .nv, .regs, .freeCtr, .events] s t)))) ∧
        (∀ sc, u.cur = none → (s.slot b).state ≠ 1 → Completes (.activateFirmware x sc) s (fun t =>
          Answered (some x) 0x1A false 0x85 [] s t ∧ SameBut [.sec] s t)) ∧
        (∀ sc, u.cur = none → (s.slot b).state = 1 → Completes (.activateFirmware x sc) s (fun t =>
          Answered (some x) 0x1A true 0 [if sc = true ∧ s.liveOk = true then 0 else 1] s t ∧ t.nv.active = b ∧
          (t.slot b).state = 2 ∧ t.nv.tries = 0 ∧ t.sec.upd = none ∧ LastRaised .UPD_ACTIVATED (72 + s.hb.active) uHatband t ∧
          (sc = true → s.liveOk = true → ∀ typ, (typ = if s.imageDiffers 3 then 3 else 2) → s.imageDiffers typ = true →
            ∃ d, t.sec.dist = some d ∧ d.typ = typ ∧ d.live = true ∧ d.phase = 1 ∧
              d.digest = imgDigest (Tbl.at (s.slot b).images typ [])) ∧
          (¬(sc = true ∧ s.liveOk = true) → t.sec.dist = s.sec.dist))) ∧
        (u.cur = none → Completes (.cancelUpdateComponent x) s (fun t => Answered (some x) 0x1C false 0x88 [] s t ∧
          t.sec.upd = some u ∧ SameBut [.sec] s t)) ∧
        (u.cur ≠ none → Completes (.cancelUpdateComponent x) s (fun t => Answered (some x) 0x1C true 0 [] s t ∧
          t.sec.upd = some { u with state := 2, cur := none, part := [] } ∧ SameBut [.sec] s t)) ∧
        Completes (.cancelUpdate x) s (fun t => Answered (some x) 0x1D true 0 [] s t ∧ t.sec.upd = none ∧ SameBut [.sec] s t))) ∧
    (∀ a, s.denied a (.brimCsr 0 0x8004010) = none →
      ((s.slot s.nv.active).state = 2 → s.hb.stage = 7 → Completes (.confirm a) s (fun t => (t.slot s.nv.active).state = 4 ∧
        t.nv.active = s.nv.active ∧ t.nv.tries = 0 ∧
        (∀ k, k < 4 → t.nv.svn.getD k 0 = match Tbl.find (s.slot s.nv.active).images k with
          | some l => max (s.nv.svn.getD k 0) (min 64 (imgSvn l))
          | none => s.nv.svn.getD k 0) ∧
        Raised .UPD_CONFIRMED (72 + s.hb.active) uHatband s t ∧ SameBut [.nv, .regs, .freeCtr, .events] s t)) ∧
      ((s.slot s.nv.active).state ≠ 2 ∨ s.hb.stage ≠ 7 → Completes (.confirm a) s (fun t => t = s)) ∧
      ((s.slot s.nv.active).state = 2 → Completes (.revert a) s (fun t => t.nv.revert = some 4 ∧ SameBut [.nv] s t)) ∧
      ((s.slot s.nv.active).state ≠ 2 → Completes (.revert a) s (fun t => t = s))) ∧
    (∀ slot h, s.hears x = true →
      (x = .i3c → (slot = 2 ∨ slot = 3) → s.nv.prog.testBit slot = false → Completes (.ownerEnroll x slot h) s (fun t =>
        Tbl.find t.nv.owners slot = some h ∧ t.nv.prog.testBit slot = true ∧ t.nv.revoke = s.nv.revoke ∧
        Raised .OWNER_ENROLLED (72 + s.hb.active) uHatband s t ∧ SameBut [.nv, .regs, .freeCtr, .events, .sec] s t)) ∧
      (x ≠ .i3c ∨ (slot ≠ 2 ∧ slot ≠ 3) ∨ s.nv.prog.testBit slot = true → Completes (.ownerEnroll x slot h) s (fun t =>
        Answered (some x) 0x100 false 0x20 [] s t ∧ SameBut [.sec] s t))) ∧
    (∀ i k g, s.supply.on = true → 2 ≤ s.hb.stage → k = byAt (imgBody i) 0 1 → g = imgSlot i →
      (s.verifyImage i 5 = 0 → k < 4 → g ≠ k → (g / 2 = k / 2 ∨ g < 2) →
        (∃ j, j < 2 ∧ j ≠ k ∧ s.nv.revoke.testBit j = false) → Completes (.revocationOrder i) s (fun t =>
          t.nv.revoke = s.nv.revoke ||| 2 ^ k ∧ t.nv.prog = s.nv.prog ∧ Raised .KEY_REVOKED (72 + s.hb.active) uHatband s t ∧
          SameBut [.nv, .regs, .freeCtr, .events, .sec] s t)) ∧
      (s.verifyImage i 5 ≠ 0 ∨ 4 ≤ k ∨ g = k ∨ (g / 2 ≠ k / 2 ∧ 2 ≤ g) ∨
          (∀ j, j < 2 → j = k ∨ s.nv.revoke.testBit j = true) → Completes (.revocationOrder i) s (fun t =>
        Answered none 0x101 false 0x20 [] s t ∧ SameBut [.regs, .freeCtr, .events, .sec] s t)))

/-- R401-R403: the agent of a site writes a packet of the running distribution into the copy of each of its fullers
and marks it; a claimed fuller is stopped with ABORTED after its time; a roll-call asks for another round while
packets are missing, at most three, and then for hashes; each target is reported GOOD, or BAD by its cause; all GOOD,
or policy 1, commit, and a GOOD fuller then runs the copy it held, with its DMEM cleared; otherwise all abort, no microcode
changes and ACTIVE goes back. Corners are those of log 101. -/
def Obligations.Distribution : Prop :=
  ∀ (s : State) d, s.sec.dist = some d → d.sound →
    (∀ site k data, d.phase ≤ 2 → k < distPackets d.body → d.body.length ≤ 8192 → data = (d.body.drop (256 * k)).take 256 →
      (∀ u, u ∈ d.targets → u.site = site → s.targetFenced u = false ∧ ∃ c n, u.ful = some (c, n) ∧ s.fld FUL_STAT.STATE c n = 3) →
      ((s.fld MCAST_MASK.MASK site 0).testBit 0 = true ∨ d.phase = 2) → Completes (.mcast site d.number k d.typ data) s (fun t =>
        ∃ d', t.sec.dist = some d' ∧ d'.phase = d.phase ∧ d'.targets = d.targets ∧
          (∀ u, u ∈ d.targets → u.site = site → k ∈ Tbl.at d'.got u.key [] ∧
            ∀ c n, u.ful = some (c, n) → memBytes t.mem (fulByte c n (0x4000 + 256 * k)) data.length = data) ∧
          (∀ u, u ∈ d.targets → u.site ≠ site → Tbl.at d'.got u.key [] = Tbl.at d.got u.key []) ∧
          (∀ j, j < 2 ^ 41 → memByte t.mem j = memByte s.mem j) ∧ (d.phase = 2 → t.mesh = s.mesh) ∧
          SameBut [.sec, .mem, .mesh] s t)) ∧
    (∀ site dist k typ data, dist ≠ d.number ∨ typ ≠ d.typ → Completes (.mcast site dist k typ data) s (fun t =>
      t.sec = s.sec ∧ SameBut [.mesh] s t)) ∧
    (d.phase = 1 ∨ d.phase = 2 →
      ((∀ u, u ∈ d.targets → s.targetFenced u = true ∨ d.missing u = 0) ∨ d.round = 3 → Completes .rollCall s (fun t =>
        t.fld DIST_STAT.PHASE 0 0 = 3 ∧ t.sec.dist = some { d with phase := 3 } ∧ SameBut [.regs, .sec] s t)) ∧
      (d.round < 3 → (∃ u, u ∈ d.targets ∧ s.targetFenced u = false ∧ d.missing u ≠ 0) → Completes .rollCall s (fun t =>
        t.fld DIST_STAT.PHASE 0 0 = 2 ∧ t.fld DIST_STAT.ROUND 0 0 = d.round + 1 ∧
        t.sec.dist = some { d with phase := 2, round := d.round + 1 } ∧ SameBut [.regs, .sec] s t))) ∧
    (∀ site, d.phase = 3 → site ∉ d.hashed → Completes (.distHashDone site) s (fun t =>
      ∃ d', t.sec.dist = some d' ∧ d'.hashed = d.hashed ++ [site] ∧ d'.targets = d.targets ∧
        d'.result.map (·.1) = d.result.map (·.1) ++ d.targets.filter (fun u => u.site == site))) ∧
    (∀ site, d.phase = 3 → site ∉ d.hashed → (∀ u, u ∈ d.targets → u.site = site → u.ful ≠ none) →
      Completes (.distHashDone site) s (fun t => ∃ d' l, t.sec.dist = some d' ∧ d'.hashed = d.hashed ++ [site] ∧
        d'.result = d.result ++ l ∧ l.map (·.1) = d.targets.filter (fun u => u.site == site) ∧
        (∀ u r, (u, r) ∈ l → (s.targetFenced u = true → r = 4) ∧
          (s.targetFenced u = false → d.missing u ≠ 0 → r = 2) ∧
          (s.targetFenced u = false → d.missing u = 0 → ∀ c n, u.ful = some (c, n) →
            r = if Config.sha512 (memBytes s.mem (fulByte c n 0x4000) d.body.length) = d.digest then 1 else 3)) ∧
        (d'.result.length < 2 ^ 16 → t.fld DIST_STAT.GOOD 0 0 = goodCount d'.result) ∧ SameBut [.regs, .sec] s t)) ∧
    (∀ u c n, u ∈ d.targets → u.ful = some (c, n) → d.phase ≤ 2 → s.targetFenced u = false →
      (s.fld FUL_STAT.STATE c n = 1 ∨ s.fld FUL_STAT.STATE c n = 2) → Completes (.fullerClaimTimeout c n) s (fun t =>
        t.fld FUL_STAT.STATE c n = 3 ∧ t.fld FUL_STAT.LAST_STATUS c n = 2 ∧ SameBut [.regs, .fullers, .cores] s t)) ∧
    (d.phase = 3 → (∀ u, u ∈ d.targets → s.targetFenced u = true ∨ u.site ∈ d.hashed) →
      ((∀ u, u ∈ d.targets → s.finalResult d u = 1 ∨ u.spare = true) ∨ s.fld UPD_CTL.DIST_POLICY 0 0 = 1 →
        Completes .distCommit s (fun t =>
        Tbl.find t.sec.loaded d.typ = some d.digest ∧ LastRaised .DIST_RESULT (72 + s.hb.active) uHatband t ∧
        (∀ e, t.sec.dist = some e → d.typ = 3 ∧ e.typ = 2 ∧ e.phase = 1) ∧
        (∀ u c n, u ∈ d.targets → u.ful = some (c, n) → s.finalResult d u = 1 →
          memBytes t.mem (fulByte c n 0) 0x2000 = memBytes s.mem (fulByte c n 0x4000) 0x2000 ∧
          (∀ j, 0x4000 ≤ j → j < 0x6000 → memByte t.mem (fulByte c n j) = 0) ∧
          (s.fld FUL_STAT.STATE c n = 3 → t.fld FUL_STAT.STATE c n = 0)) ∧
        (∀ j, j < 2 ^ 41 → memByte t.mem j = memByte s.mem j))) ∧
      ((∃ u, u ∈ d.targets ∧ s.finalResult d u ≠ 1 ∧ u.spare = false) → s.fld UPD_CTL.DIST_POLICY 0 0 ≠ 1 →
        Completes .distCommit s (fun t => t.sec.dist = none ∧ t.sec.loaded = s.sec.loaded ∧
          LastRaised .DIST_RESULT (72 + s.hb.active) uHatband t ∧ t.fld DIST_STAT.PHASE 0 0 = 5 ∧
          (∀ c n j, n < 34 → j < 0x2000 → memByte t.mem (fulByte c n j) = memByte s.mem (fulByte c n j)) ∧
          (d.live = true → t.nv.active = 1 - s.nv.active ∧ (t.slot s.nv.active).state = 1) ∧
          (d.live = false → t.nv = s.nv) ∧
          (∀ j, j < 2 ^ 41 → memByte t.mem j = memByte s.mem j))))

/-! ## The whole block -/

/-- What reset leaves: an empty queue, every register at its reset value, memory with nothing written, no event, the module in
CARDING with the Hatband on BD0 (the choices of logs 1 to 3 where the spec gives no value). -/
def Obligations.ResetState : Prop :=
  State.reset.pending = [] ∧ (∀ r u i, State.reset.reg r u i = r.resetWord u i) ∧ (∀ k, memByte State.reset.mem k = 0) ∧
  State.reset.events.log = [] ∧ State.reset.events.undelivered = [] ∧ State.reset.hb.active = 0 ∧ State.reset.hb.stage = 1 ∧
  State.reset.hb.halted = false ∧ (∀ f, State.reset.fld MOD_CAP.EFFECTIVE 0 f = 3000 ∧ State.reset.fld MOD_CAP.HOST 0 f = 3000) ∧
  (∀ u i, State.reset.fld COOL_CFG.SETPOINT u i = 3000 ∧ State.reset.fld COOL_CFG.KFACTOR u i = 600 ∧
    State.reset.fld THERM_LIMITS.COOL_W u i = 3000 ∧ State.reset.fld CORE_PWR_STAT.GAIN u i = 0x1000 ∧
    State.reset.fld MIL_EVT_CFG.CLASS_EN u i = 0xFF ∧ State.reset.fld HIF_EVT_CFG.NOTICE_SEV u i = 1 ∧
    State.reset.fld QCFG.EN u i = 0 ∧ State.reset.fld EVT_STAT.STANDBY_OK u i = 0)

/-- The invariants of the two statements below hold at reset. -/
def Obligations.ResetInvariants : Prop :=
  Memory.wf State.reset.mem = true ∧ HatbandLegal State.reset.hb ∧ LogsBounded State.reset.events ∧ StepsBounded State.reset.therm

/-- Every step keeps the canonical form of memory: keys strictly rising, and no entry equal to what an unlisted byte reads as. -/
def Obligations.MemoryStaysCanonical : Prop :=
  ∀ s t : State, Memory.wf s.mem = true → step s = .next t → Memory.wf t.mem = true

/-- Every step keeps the Hatband in a legal place (R290, R375), the stores of records within their sizes (R380, R381), and the
thermal steps within the five floors of R357. -/
def Obligations.ModuleStaysLegal : Prop :=
  ∀ s t : State, HatbandLegal s.hb → LogsBounded s.events → StepsBounded s.therm → step s = .next t →
    HatbandLegal t.hb ∧ LogsBounded t.events ∧ StepsBounded t.therm

/-- Fuses only ever gain (R387-R389, R397): over every step no revocation or programming is undone, no counter falls and DBG_LOCK
stays; only a revocation order revokes, only OWNER_ENROLL programs an owner slot, and the hash of a programmed slot stays. -/
def Obligations.FusesOnlyGain : Prop :=
  ∀ s t : State, step s = .next t → FusesKept s.nv t.nv ∧
    (t.nv.revoke ≠ s.nv.revoke → ∃ i l, s.pending = .revocationOrder i :: l) ∧
    (t.nv.prog ≠ s.nv.prog → ∃ x k h l, s.pending = .ownerEnroll x k h :: l) ∧
    (∀ k, s.nv.prog.testBit k = true → Tbl.find t.nv.owners k = Tbl.find s.nv.owners k)

/-- Every command answers a next state, whatever the state, and leaves the queue of waiting commands as it was (logs 6 and 7 say
what a command does whose step the spec gives no place). -/
def Obligations.EveryCommandAnswers : Prop := ∀ (c : Instr) (s : State), ∃ t, exec c s = .next t ∧ t.pending = s.pending
end

