-- ==== Sys2Proof/Laws/Tables.lean ====
section
/-! SUPPORT. Laws of the sparse tables and of memory: read after write, what a write leaves alone, and that every operation
keeps the canonical form. -/

namespace Sys2Proof.Machine

/-! ## Reads after writes -/

@[simp] theorem Tbl.find_nil {α : Type} (k : Nat) : Tbl.find ([] : Tbl α) k = none := rfl

@[simp] theorem Tbl.find_set_same {α : Type} (t : Tbl α) (k : Nat) (v : α) : Tbl.find (Tbl.set t k v) k = some v := by
  induction t with
  | nil => simp [Tbl.set, Tbl.find]
  | cons e t ih =>
    obtain ⟨j, w⟩ := e
    simp only [Tbl.set]
    split
    · simp [Tbl.find]
    · split
      · simp [Tbl.find]
      · rename_i _ h
        rw [Tbl.find, if_neg (fun h' => h h'.symm)]
        exact ih

theorem Tbl.find_set_other {α : Type} (t : Tbl α) {k j : Nat} (v : α) (h : k ≠ j) :
    Tbl.find (Tbl.set t k v) j = Tbl.find t j := by
  induction t with
  | nil => simp [Tbl.set, Tbl.find, h]
  | cons e t ih =>
    obtain ⟨i, w⟩ := e
    simp only [Tbl.set]
    split
    · rw [Tbl.find, if_neg h]
    · split
      · rename_i _ hi
        subst hi
        rw [Tbl.find, Tbl.find, if_neg h, if_neg h]
      · rw [Tbl.find, Tbl.find, ih]

@[simp] theorem Tbl.find_del_same {α : Type} (t : Tbl α) (k : Nat) : Tbl.find (Tbl.del t k) k = none := by
  induction t with
  | nil => rfl
  | cons e t ih =>
    obtain ⟨i, w⟩ := e
    simp only [Tbl.del]
    split
    · exact ih
    · rename_i h
      rw [Tbl.find, if_neg h]
      exact ih

theorem Tbl.find_del_other {α : Type} (t : Tbl α) {k j : Nat} (h : k ≠ j) : Tbl.find (Tbl.del t k) j = Tbl.find t j := by
  induction t with
  | nil => rfl
  | cons e t ih =>
    obtain ⟨i, w⟩ := e
    simp only [Tbl.del]
    split
    · rename_i hi
      subst hi
      rw [ih, Tbl.find, if_neg h]
    · rw [Tbl.find, Tbl.find, ih]

theorem Tbl.find_dropKeys {α : Type} (t : Tbl α) (p : Nat → Bool) (k : Nat) :
    Tbl.find (Tbl.dropKeys t p) k = if p k then none else Tbl.find t k := by
  induction t with
  | nil => simp [Tbl.dropKeys]
  | cons e t ih =>
    obtain ⟨i, w⟩ := e
    simp only [Tbl.dropKeys, List.filter_cons] at ih ⊢
    by_cases hp : p i
    · simp only [hp, Bool.not_true, Bool.false_eq_true, if_false, ih, Tbl.find]
      split
      · rfl
      · rename_i h
        rw [if_neg]
        intro hk
        subst hk
        exact h hp
    · simp only [hp, Bool.not_false, if_true, Tbl.find, ih]
      split
      · rename_i hk
        subst hk
        simp [hp]
      · rfl

/-! ## The canonical order -/

/-- Every key of a table lies above a bound. -/
def Tbl.above {α : Type} (k : Nat) (t : Tbl α) : Prop := ∀ e ∈ t, k < e.1

theorem Tbl.sorted_cons {α : Type} (e : Nat × α) (t : Tbl α) :
    Tbl.sorted (e :: t) = true ↔ Tbl.above e.1 t ∧ Tbl.sorted t = true := by
  induction t generalizing e with
  | nil => simp [Tbl.sorted, Tbl.above]
  | cons f t ih =>
    simp only [Tbl.sorted, Bool.and_eq_true, decide_eq_true_eq]
    constructor
    · intro h
      refine ⟨?_, h.2⟩
      intro x hx
      rcases List.mem_cons.1 hx with h' | h'
      · rw [h']
        exact h.1
      · exact Nat.lt_trans h.1 (((ih f).1 h.2).1 x h')
    · intro h
      exact ⟨h.1 f (by simp), h.2⟩

theorem Tbl.mem_set {α : Type} {t : Tbl α} {k : Nat} {v : α} {e : Nat × α} (h : e ∈ Tbl.set t k v) : e = (k, v) ∨ e ∈ t := by
  induction t with
  | nil => simpa [Tbl.set] using h
  | cons f t ih =>
    obtain ⟨i, w⟩ := f
    simp only [Tbl.set] at h
    split at h
    · simpa using h
    · split at h
      · rcases List.mem_cons.1 h with h | h
        · exact .inl h
        · exact .inr (List.mem_cons_of_mem _ h)
      · rcases List.mem_cons.1 h with h | h
        · exact .inr (h ▸ List.mem_cons_self)
        · exact (ih h).imp id (List.mem_cons_of_mem _)

theorem Tbl.sorted_set {α : Type} {t : Tbl α} (k : Nat) (v : α) (h : Tbl.sorted t = true) : Tbl.sorted (Tbl.set t k v) = true := by
  induction t with
  | nil => rfl
  | cons f t ih =>
    obtain ⟨i, w⟩ := f
    have h' := (Tbl.sorted_cons _ _).1 h
    simp only [Tbl.set]
    split
    · rename_i hk
      refine (Tbl.sorted_cons _ _).2 ⟨?_, h⟩
      intro e he
      rcases List.mem_cons.1 he with he | he
      · rw [he]
        exact hk
      · exact Nat.lt_trans hk (h'.1 e he)
    · split
      · rename_i _ hk
        subst hk
        exact (Tbl.sorted_cons _ _).2 h'
      · rename_i h1 h2
        refine (Tbl.sorted_cons _ _).2 ⟨?_, ih h'.2⟩
        intro e he
        rcases Tbl.mem_set he with he | he
        · rw [he]
          show i < k
          omega
        · exact h'.1 e he

theorem Tbl.sorted_filter {α : Type} {t : Tbl α} (p : Nat × α → Bool) (h : Tbl.sorted t = true) :
    Tbl.sorted (t.filter p) = true := by
  induction t with
  | nil => rfl
  | cons f t ih =>
    have h' := (Tbl.sorted_cons _ _).1 h
    rw [List.filter_cons]
    split
    · exact (Tbl.sorted_cons _ _).2 ⟨fun e he => h'.1 e (List.mem_filter.1 he).1, ih h'.2⟩
    · exact ih h'.2

theorem Tbl.del_eq_filter {α : Type} (t : Tbl α) (k : Nat) : Tbl.del t k = t.filter (fun e => e.1 != k) := by
  induction t with
  | nil => rfl
  | cons f t ih =>
    obtain ⟨i, w⟩ := f
    rw [Tbl.del, List.filter_cons, ih]
    by_cases h : i = k <;> simp [h]

theorem Tbl.sorted_del {α : Type} {t : Tbl α} (k : Nat) (h : Tbl.sorted t = true) : Tbl.sorted (Tbl.del t k) = true := by
  rw [Tbl.del_eq_filter]
  exact Tbl.sorted_filter _ h

theorem Tbl.sorted_dropKeys {α : Type} {t : Tbl α} (p : Nat → Bool) (h : Tbl.sorted t = true) :
    Tbl.sorted (Tbl.dropKeys t p) = true := Tbl.sorted_filter _ h

/-! ## Memory keeps its canonical form -/

theorem Memory.wf_filter {m : List Host.Cell} (p : Host.Cell → Bool) (h : Memory.wf m = true) :
    Memory.wf (m.filter p) = true := by
  simp only [Memory.wf, Bool.and_eq_true, List.all_eq_true] at h ⊢
  exact ⟨Tbl.sorted_filter p h.1, fun e he => h.2 e (List.mem_filter.1 he).1⟩

theorem Memory.wf_memPut {m : List Host.Cell} (k : Nat) (v : Byte) (h : Memory.wf m = true) : Memory.wf (memPut m k v) = true := by
  unfold memPut
  split
  · rw [Tbl.del_eq_filter]
    exact Memory.wf_filter _ h
  · rename_i hv
    simp only [Memory.wf, Bool.and_eq_true, List.all_eq_true] at h ⊢
    refine ⟨Tbl.sorted_set k v h.1, fun e he => ?_⟩
    rcases Tbl.mem_set he with he | he
    · rw [he]
      simpa using hv
    · exact h.2 e he

theorem Memory.wf_memPutBytes {m : List Host.Cell} (bs : List Byte) (k : Nat) (h : Memory.wf m = true) :
    Memory.wf (memPutBytes m k bs) = true := by
  induction bs generalizing m k with
  | nil => exact h
  | cons b bs ih => exact ih (k + 1) (Memory.wf_memPut k b h)

theorem Memory.wf_memClear {m : List Host.Cell} (lo hi : Nat) (h : Memory.wf m = true) : Memory.wf (memClear m lo hi) = true :=
  Memory.wf_filter _ h

theorem Memory.wf_dropKeys {m : List Host.Cell} (p : Nat → Bool) (h : Memory.wf m = true) :
    Memory.wf (Tbl.dropKeys m p) = true := Memory.wf_filter _ h

/-! ## Bytes of memory -/

theorem memByte_memPut (m : List Host.Cell) (k j : Nat) (v : Byte) : memByte (memPut m k v) j = if k = j then v else memByte m j := by
  unfold memByte memPut
  by_cases h : k = j
  · subst h
    by_cases hv : v = emptyByte <;> simp [hv]
  · by_cases hv : v = emptyByte <;> simp [hv, h, Tbl.find_set_other, Tbl.find_del_other]

theorem memByte_memPutBytes (bs : List Byte) (m : List Host.Cell) (k j : Nat) :
    memByte (memPutBytes m k bs) j = if k ≤ j ∧ j < k + bs.length then bs.getD (j - k) 0 else memByte m j := by
  induction bs generalizing m k with
  | nil =>
    rw [memPutBytes, if_neg]
    simp only [List.length_nil]
    omega
  | cons b bs ih =>
    rw [memPutBytes, ih, memByte_memPut]
    by_cases hj : k = j
    · subst hj
      rw [if_neg (by omega), if_pos rfl, if_pos (by simp)]
      simp
    · by_cases hin : k + 1 ≤ j ∧ j < k + 1 + bs.length
      · rw [if_pos hin, if_pos (by simp only [List.length_cons]; omega)]
        have : j - k = (j - (k + 1)) + 1 := by omega
        rw [this, List.getD_cons_succ]
      · rw [if_neg hin, if_neg hj, if_neg (by simp only [List.length_cons]; omega)]

theorem memByte_memClear (m : List Host.Cell) (lo hi j : Nat) :
    memByte (memClear m lo hi) j = if lo ≤ j ∧ j < hi then 0 else memByte m j := by
  unfold memByte memClear
  rw [Tbl.find_dropKeys]
  by_cases h : lo ≤ j ∧ j < hi
  · simp [h, emptyByte]
  · have : (decide (lo ≤ j) && decide (j < hi)) = false := by simpa using h
    rw [this, if_neg h]
    rfl

theorem memBytes_memPutBytes_same (m : List Host.Cell) (k : Nat) (bs : List Byte) :
    memBytes (memPutBytes m k bs) k bs.length = bs := by
  apply List.ext_getElem
  · simp [memBytes]
  · intro i h1 h2
    simp only [memBytes, List.getElem_map, List.getElem_range, memByte_memPutBytes]
    rw [if_pos (by omega)]
    simp [List.getD_eq_getElem?_getD, h2]

end Sys2Proof.Machine
end

