-- ==== Sys2Proof/Laws/State.lean ====
section
/-! SUPPORT. Laws of registers and of the named updates of the state: what a read gives after a write, and the fields an update
leaves alone. -/

namespace Sys2Proof.Machine

/-! ## Bit fields -/

theorem getBits_testBit (w : Word) (hi lo i : Nat) :
    (getBits w hi lo).testBit i = (decide (i < hi + 1 - lo) && w.getLsbD (lo + i)) := by
  unfold getBits
  rw [Nat.testBit_mod_two_pow, Nat.testBit_div_two_pow, BitVec.testBit_toNat, Nat.add_comm i lo]

theorem fieldMask_getLsbD (n lo i : Nat) (h : i < 64) :
    (BitVec.ofNat 64 ((2 ^ n - 1) * 2 ^ lo)).getLsbD i = (decide (lo ≤ i) && decide (i < lo + n)) := by
  rw [BitVec.getLsbD_ofNat, Nat.testBit_mul_two_pow, Nat.testBit_two_pow_sub_one]
  by_cases h1 : lo ≤ i <;> simp [h, h1] <;> omega

theorem setBits_getLsbD (w : Word) (hi lo v i : Nat) (h : i < 64) (hl : lo ≤ hi) :
    (setBits w hi lo v).getLsbD i = if lo ≤ i ∧ i ≤ hi then v.testBit (i - lo) else w.getLsbD i := by
  unfold setBits
  simp only [BitVec.getLsbD_or, BitVec.getLsbD_and, BitVec.getLsbD_not, fieldMask_getLsbD _ _ _ h]
  rw [BitVec.getLsbD_ofNat, Nat.testBit_mul_two_pow]
  by_cases h1 : lo ≤ i
  · by_cases h2 : i ≤ hi
    · have : i < lo + (hi + 1 - lo) := by omega
      simp [h, h1, h2, this]
    · have : ¬ i < lo + (hi + 1 - lo) := by omega
      simp [h, h1, h2, this]
  · simp [h, h1]

/-- A field reads as written. -/
theorem getBits_setBits_same (w : Word) (hi lo v : Nat) (h : hi < 64) (hl : lo ≤ hi) :
    getBits (setBits w hi lo v) hi lo = v % 2 ^ (hi + 1 - lo) := by
  apply Nat.eq_of_testBit_eq
  intro i
  rw [getBits_testBit, Nat.testBit_mod_two_pow]
  by_cases hi' : i < hi + 1 - lo
  · rw [setBits_getLsbD _ _ _ _ _ (by omega) hl, if_pos (by omega)]
    simp [hi']
  · simp [hi']

/-- A field keeps its value when another field that does not meet it is written. -/
theorem getBits_setBits_other (w : Word) (hi lo v hi' lo' : Nat) (h : hi' < 64) (hl : lo ≤ hi) (hd : hi' < lo ∨ hi < lo') :
    getBits (setBits w hi lo v) hi' lo' = getBits w hi' lo' := by
  apply Nat.eq_of_testBit_eq
  intro i
  rw [getBits_testBit, getBits_testBit]
  by_cases hi' : i < hi' + 1 - lo'
  · rw [setBits_getLsbD _ _ _ _ _ (by omega) hl, if_neg (by omega)]
  · simp [hi']

/-! ## Registers -/

theorem Reg.num_lt (r : Reg) : r.num < 86 := by cases r <;> decide

theorem Reg.num_inj {r r' : Reg} (h : r.num = r'.num) : r = r' := by
  cases r <;> cases r' <;> first | rfl | (exfalso; revert h; decide)

/-- Keys of registers within their ranges differ with the register, the unit and the index. -/
theorem regKey_inj {r r' : Reg} {u u' i i' : Nat} (hi : i < 2 ^ 16) (hi' : i' < 2 ^ 16)
    (h : regKey r u i = regKey r' u' i') : r = r' ∧ u = u' ∧ i = i' := by
  unfold regKey at h
  have l := r.num_lt
  have l' := r'.num_lt
  have h1 : r.num = r'.num := by omega
  have h2 : u = u' := by omega
  have h3 : i = i' := by omega
  exact ⟨Reg.num_inj h1, h2, h3⟩

/-- Keys of different registers differ, whatever the units and indices. -/
theorem regKey_reg {r r' : Reg} {u u' i i' : Nat} (h : r ≠ r') : regKey r u i ≠ regKey r' u' i' := by
  intro e
  unfold regKey at e
  have l := r.num_lt
  have l' := r'.num_lt
  exact h (Reg.num_inj (by omega))

theorem regKey_index {r : Reg} {u i i' : Nat} (h : regKey r u i = regKey r u i') : i = i' := by
  unfold regKey at h
  omega

@[simp] theorem State.reg_setReg_same (s : State) (r : Reg) (u i : Nat) (w : Word) : (s.setReg r u i w).reg r u i = w := by
  simp [State.reg, State.setReg]

theorem State.reg_setReg_key (s : State) (r r' : Reg) (u u' i i' : Nat) (w : Word) (h : regKey r u i ≠ regKey r' u' i') :
    (s.setReg r u i w).reg r' u' i' = s.reg r' u' i' := by
  simp [State.reg, State.setReg, Tbl.find_set_other _ _ h]

theorem State.setFld_eq (s : State) (f : Fld) (u i v : Nat) :
    s.setFld f u i v = s.setReg f.reg u i (setBits (s.reg f.reg u i) f.hi f.lo v) := rfl

@[simp] theorem State.reg_setFld_same (s : State) (f : Fld) (u i v : Nat) :
    (s.setFld f u i v).reg f.reg u i = setBits (s.reg f.reg u i) f.hi f.lo v := by
  rw [State.setFld_eq, State.reg_setReg_same]

theorem State.reg_setFld_key (s : State) (f : Fld) (r : Reg) (u u' i i' v : Nat) (h : regKey f.reg u i ≠ regKey r u' i') :
    (s.setFld f u i v).reg r u' i' = s.reg r u' i' := by
  rw [State.setFld_eq, State.reg_setReg_key _ _ _ _ _ _ _ _ h]

/-- A field reads as set. -/
theorem State.fld_setFld_same (s : State) (f : Fld) (u i v : Nat) (h : f.hi < 64) (hl : f.lo ≤ f.hi) :
    (s.setFld f u i v).fld f u i = v % 2 ^ (f.hi + 1 - f.lo) := by
  rw [State.fld, State.reg_setFld_same, getBits_setBits_same _ _ _ _ h hl]

/-- A field of the same register that does not meet the field set keeps its value. -/
theorem State.fld_setFld_apart (s : State) (f g : Fld) (u i v : Nat) (hr : f.reg = g.reg) (h : g.hi < 64) (hl : f.lo ≤ f.hi)
    (hd : g.hi < f.lo ∨ f.hi < g.lo) : (s.setFld f u i v).fld g u i = s.fld g u i := by
  rw [State.fld, State.fld, ← hr, State.reg_setFld_same, getBits_setBits_other _ _ _ _ _ _ h hl hd]

/-- A field of another register keeps its value. -/
theorem State.fld_setFld_key (s : State) (f g : Fld) (u u' i i' v : Nat) (h : regKey f.reg u i ≠ regKey g.reg u' i') :
    (s.setFld f u i v).fld g u' i' = s.fld g u' i' := by
  rw [State.fld, State.fld, State.reg_setFld_key _ _ _ _ _ _ _ _ h]

theorem State.fld_setReg_key (s : State) (r : Reg) (g : Fld) (u u' i i' : Nat) (w : Word) (h : regKey r u i ≠ regKey g.reg u' i') :
    (s.setReg r u i w).fld g u' i' = s.fld g u' i' := by
  rw [State.fld, State.fld, State.reg_setReg_key _ _ _ _ _ _ _ _ h]

/-! ## Cores and queues -/

@[simp] theorem State.core_setCore_same (s : State) (c : Nat) (x : Core) : (s.setCore c x).core c = x := by
  simp [State.core, State.setCore, Tbl.at]

theorem State.core_setCore_other (s : State) {c d : Nat} (x : Core) (h : c ≠ d) : (s.setCore c x).core d = s.core d := by
  simp [State.core, State.setCore, Tbl.at, Tbl.find_set_other _ _ h]

@[simp] theorem State.queue_setQueue_same (s : State) (c q : Nat) (x : Queue) : (s.setQueue c q x).queue c q = x := by
  simp [State.queue, State.setQueue, Tbl.at]

theorem State.queue_setQueue_other (s : State) (c : Nat) {q p : Nat} (x : Queue) (h : q ≠ p) :
    (s.setQueue c q x).queue c p = s.queue c p := by
  simp [State.queue, State.setQueue, Tbl.at, Tbl.find_set_other _ _ h]

@[simp] theorem State.reg_setCore (s : State) (c : Nat) (x : Core) (r : Reg) (u i : Nat) :
    (s.setCore c x).reg r u i = s.reg r u i := rfl
@[simp] theorem State.fld_setCore (s : State) (c : Nat) (x : Core) (f : Fld) (u i : Nat) :
    (s.setCore c x).fld f u i = s.fld f u i := rfl
@[simp] theorem State.reg_setQueue (s : State) (c q : Nat) (x : Queue) (r : Reg) (u i : Nat) :
    (s.setQueue c q x).reg r u i = s.reg r u i := rfl
@[simp] theorem State.fld_setQueue (s : State) (c q : Nat) (x : Queue) (f : Fld) (u i : Nat) :
    (s.setQueue c q x).fld f u i = s.fld f u i := rfl
@[simp] theorem State.core_setReg (s : State) (r : Reg) (u i c : Nat) (w : Word) : (s.setReg r u i w).core c = s.core c := rfl
@[simp] theorem State.core_setFld (s : State) (f : Fld) (u i v c : Nat) : (s.setFld f u i v).core c = s.core c := rfl
@[simp] theorem State.queue_setReg (s : State) (r : Reg) (u i c q : Nat) (w : Word) :
    (s.setReg r u i w).queue c q = s.queue c q := rfl
@[simp] theorem State.queue_setFld (s : State) (f : Fld) (u i v c q : Nat) : (s.setFld f u i v).queue c q = s.queue c q := rfl

/-! # What each named update leaves unchanged, field by field -/

/-! ## State.setReg -/

@[simp] theorem State.setReg_pending (s : State) (r : Reg) (u i : Nat) (w : Word) : (s.setReg r u i w).pending = s.pending := rfl
@[simp] theorem State.setReg_freeCtr (s : State) (r : Reg) (u i : Nat) (w : Word) : (s.setReg r u i w).freeCtr = s.freeCtr := rfl
@[simp] theorem State.setReg_loaded (s : State) (r : Reg) (u i : Nat) (w : Word) : (s.setReg r u i w).loaded = s.loaded := rfl
@[simp] theorem State.setReg_mem (s : State) (r : Reg) (u i : Nat) (w : Word) : (s.setReg r u i w).mem = s.mem := rfl
@[simp] theorem State.setReg_marks (s : State) (r : Reg) (u i : Nat) (w : Word) : (s.setReg r u i w).marks = s.marks := rfl
@[simp] theorem State.setReg_chans (s : State) (r : Reg) (u i : Nat) (w : Word) : (s.setReg r u i w).chans = s.chans := rfl
@[simp] theorem State.setReg_swaps (s : State) (r : Reg) (u i : Nat) (w : Word) : (s.setReg r u i w).swaps = s.swaps := rfl
@[simp] theorem State.setReg_lost (s : State) (r : Reg) (u i : Nat) (w : Word) : (s.setReg r u i w).lost = s.lost := rfl
@[simp] theorem State.setReg_repairs (s : State) (r : Reg) (u i : Nat) (w : Word) : (s.setReg r u i w).repairs = s.repairs := rfl
@[simp] theorem State.setReg_cores (s : State) (r : Reg) (u i : Nat) (w : Word) : (s.setReg r u i w).cores = s.cores := rfl
@[simp] theorem State.setReg_mils (s : State) (r : Reg) (u i : Nat) (w : Word) : (s.setReg r u i w).mils = s.mils := rfl
@[simp] theorem State.setReg_fullers (s : State) (r : Reg) (u i : Nat) (w : Word) : (s.setReg r u i w).fullers = s.fullers := rfl
@[simp] theorem State.setReg_mesh (s : State) (r : Reg) (u i : Nat) (w : Word) : (s.setReg r u i w).mesh = s.mesh := rfl
@[simp] theorem State.setReg_fns (s : State) (r : Reg) (u i : Nat) (w : Word) : (s.setReg r u i w).fns = s.fns := rfl
@[simp] theorem State.setReg_parts (s : State) (r : Reg) (u i : Nat) (w : Word) : (s.setReg r u i w).parts = s.parts := rfl
@[simp] theorem State.setReg_hostOut (s : State) (r : Reg) (u i : Nat) (w : Word) : (s.setReg r u i w).hostOut = s.hostOut := rfl
@[simp] theorem State.setReg_held (s : State) (r : Reg) (u i : Nat) (w : Word) : (s.setReg r u i w).held = s.held := rfl
@[simp] theorem State.setReg_stalled (s : State) (r : Reg) (u i : Nat) (w : Word) : (s.setReg r u i w).stalled = s.stalled := rfl
@[simp] theorem State.setReg_events (s : State) (r : Reg) (u i : Nat) (w : Word) : (s.setReg r u i w).events = s.events := rfl
@[simp] theorem State.setReg_hb (s : State) (r : Reg) (u i : Nat) (w : Word) : (s.setReg r u i w).hb = s.hb := rfl
@[simp] theorem State.setReg_nextSub (s : State) (r : Reg) (u i : Nat) (w : Word) : (s.setReg r u i w).nextSub = s.nextSub := rfl
@[simp] theorem State.setReg_brim (s : State) (r : Reg) (u i : Nat) (w : Word) : (s.setReg r u i w).brim = s.brim := rfl
@[simp] theorem State.setReg_image (s : State) (r : Reg) (u i : Nat) (w : Word) : (s.setReg r u i w).image = s.image := rfl
@[simp] theorem State.setReg_levels (s : State) (r : Reg) (u i : Nat) (w : Word) : (s.setReg r u i w).levels = s.levels := rfl
@[simp] theorem State.setReg_doms (s : State) (r : Reg) (u i : Nat) (w : Word) : (s.setReg r u i w).doms = s.doms := rfl
@[simp] theorem State.setReg_cpwr (s : State) (r : Reg) (u i : Nat) (w : Word) : (s.setReg r u i w).cpwr = s.cpwr := rfl
@[simp] theorem State.setReg_pwr (s : State) (r : Reg) (u i : Nat) (w : Word) : (s.setReg r u i w).pwr = s.pwr := rfl
@[simp] theorem State.setReg_therm (s : State) (r : Reg) (u i : Nat) (w : Word) : (s.setReg r u i w).therm = s.therm := rfl
@[simp] theorem State.setReg_supply (s : State) (r : Reg) (u i : Nat) (w : Word) : (s.setReg r u i w).supply = s.supply := rfl
@[simp] theorem State.setReg_resets (s : State) (r : Reg) (u i : Nat) (w : Word) : (s.setReg r u i w).resets = s.resets := rfl
@[simp] theorem State.setReg_partResets (s : State) (r : Reg) (u i : Nat) (w : Word) : (s.setReg r u i w).partResets = s.partResets := rfl
@[simp] theorem State.setReg_tilePass (s : State) (r : Reg) (u i : Nat) (w : Word) : (s.setReg r u i w).tilePass = s.tilePass := rfl
@[simp] theorem State.setReg_reblocks (s : State) (r : Reg) (u i : Nat) (w : Word) : (s.setReg r u i w).reblocks = s.reblocks := rfl
@[simp] theorem State.setReg_boot (s : State) (r : Reg) (u i : Nat) (w : Word) : (s.setReg r u i w).boot = s.boot := rfl
@[simp] theorem State.setReg_pcie (s : State) (r : Reg) (u i : Nat) (w : Word) : (s.setReg r u i w).pcie = s.pcie := rfl
@[simp] theorem State.setReg_sec (s : State) (r : Reg) (u i : Nat) (w : Word) : (s.setReg r u i w).sec = s.sec := rfl
@[simp] theorem State.setReg_nv (s : State) (r : Reg) (u i : Nat) (w : Word) : (s.setReg r u i w).nv = s.nv := rfl

/-! ## State.setFld -/

@[simp] theorem State.setFld_pending (s : State) (f : Fld) (u i v : Nat) : (s.setFld f u i v).pending = s.pending := rfl
@[simp] theorem State.setFld_freeCtr (s : State) (f : Fld) (u i v : Nat) : (s.setFld f u i v).freeCtr = s.freeCtr := rfl
@[simp] theorem State.setFld_loaded (s : State) (f : Fld) (u i v : Nat) : (s.setFld f u i v).loaded = s.loaded := rfl
@[simp] theorem State.setFld_mem (s : State) (f : Fld) (u i v : Nat) : (s.setFld f u i v).mem = s.mem := rfl
@[simp] theorem State.setFld_marks (s : State) (f : Fld) (u i v : Nat) : (s.setFld f u i v).marks = s.marks := rfl
@[simp] theorem State.setFld_chans (s : State) (f : Fld) (u i v : Nat) : (s.setFld f u i v).chans = s.chans := rfl
@[simp] theorem State.setFld_swaps (s : State) (f : Fld) (u i v : Nat) : (s.setFld f u i v).swaps = s.swaps := rfl
@[simp] theorem State.setFld_lost (s : State) (f : Fld) (u i v : Nat) : (s.setFld f u i v).lost = s.lost := rfl
@[simp] theorem State.setFld_repairs (s : State) (f : Fld) (u i v : Nat) : (s.setFld f u i v).repairs = s.repairs := rfl
@[simp] theorem State.setFld_cores (s : State) (f : Fld) (u i v : Nat) : (s.setFld f u i v).cores = s.cores := rfl
@[simp] theorem State.setFld_mils (s : State) (f : Fld) (u i v : Nat) : (s.setFld f u i v).mils = s.mils := rfl
@[simp] theorem State.setFld_fullers (s : State) (f : Fld) (u i v : Nat) : (s.setFld f u i v).fullers = s.fullers := rfl
@[simp] theorem State.setFld_mesh (s : State) (f : Fld) (u i v : Nat) : (s.setFld f u i v).mesh = s.mesh := rfl
@[simp] theorem State.setFld_fns (s : State) (f : Fld) (u i v : Nat) : (s.setFld f u i v).fns = s.fns := rfl
@[simp] theorem State.setFld_parts (s : State) (f : Fld) (u i v : Nat) : (s.setFld f u i v).parts = s.parts := rfl
@[simp] theorem State.setFld_hostOut (s : State) (f : Fld) (u i v : Nat) : (s.setFld f u i v).hostOut = s.hostOut := rfl
@[simp] theorem State.setFld_held (s : State) (f : Fld) (u i v : Nat) : (s.setFld f u i v).held = s.held := rfl
@[simp] theorem State.setFld_stalled (s : State) (f : Fld) (u i v : Nat) : (s.setFld f u i v).stalled = s.stalled := rfl
@[simp] theorem State.setFld_events (s : State) (f : Fld) (u i v : Nat) : (s.setFld f u i v).events = s.events := rfl
@[simp] theorem State.setFld_hb (s : State) (f : Fld) (u i v : Nat) : (s.setFld f u i v).hb = s.hb := rfl
@[simp] theorem State.setFld_nextSub (s : State) (f : Fld) (u i v : Nat) : (s.setFld f u i v).nextSub = s.nextSub := rfl
@[simp] theorem State.setFld_brim (s : State) (f : Fld) (u i v : Nat) : (s.setFld f u i v).brim = s.brim := rfl
@[simp] theorem State.setFld_image (s : State) (f : Fld) (u i v : Nat) : (s.setFld f u i v).image = s.image := rfl
@[simp] theorem State.setFld_levels (s : State) (f : Fld) (u i v : Nat) : (s.setFld f u i v).levels = s.levels := rfl
@[simp] theorem State.setFld_doms (s : State) (f : Fld) (u i v : Nat) : (s.setFld f u i v).doms = s.doms := rfl
@[simp] theorem State.setFld_cpwr (s : State) (f : Fld) (u i v : Nat) : (s.setFld f u i v).cpwr = s.cpwr := rfl
@[simp] theorem State.setFld_pwr (s : State) (f : Fld) (u i v : Nat) : (s.setFld f u i v).pwr = s.pwr := rfl
@[simp] theorem State.setFld_therm (s : State) (f : Fld) (u i v : Nat) : (s.setFld f u i v).therm = s.therm := rfl
@[simp] theorem State.setFld_supply (s : State) (f : Fld) (u i v : Nat) : (s.setFld f u i v).supply = s.supply := rfl
@[simp] theorem State.setFld_resets (s : State) (f : Fld) (u i v : Nat) : (s.setFld f u i v).resets = s.resets := rfl
@[simp] theorem State.setFld_partResets (s : State) (f : Fld) (u i v : Nat) : (s.setFld f u i v).partResets = s.partResets := rfl
@[simp] theorem State.setFld_tilePass (s : State) (f : Fld) (u i v : Nat) : (s.setFld f u i v).tilePass = s.tilePass := rfl
@[simp] theorem State.setFld_reblocks (s : State) (f : Fld) (u i v : Nat) : (s.setFld f u i v).reblocks = s.reblocks := rfl
@[simp] theorem State.setFld_boot (s : State) (f : Fld) (u i v : Nat) : (s.setFld f u i v).boot = s.boot := rfl
@[simp] theorem State.setFld_pcie (s : State) (f : Fld) (u i v : Nat) : (s.setFld f u i v).pcie = s.pcie := rfl
@[simp] theorem State.setFld_sec (s : State) (f : Fld) (u i v : Nat) : (s.setFld f u i v).sec = s.sec := rfl
@[simp] theorem State.setFld_nv (s : State) (f : Fld) (u i v : Nat) : (s.setFld f u i v).nv = s.nv := rfl

/-! ## State.addFld -/

@[simp] theorem State.addFld_pending (s : State) (f : Fld) (u i n : Nat) : (s.addFld f u i n).pending = s.pending := rfl
@[simp] theorem State.addFld_freeCtr (s : State) (f : Fld) (u i n : Nat) : (s.addFld f u i n).freeCtr = s.freeCtr := rfl
@[simp] theorem State.addFld_loaded (s : State) (f : Fld) (u i n : Nat) : (s.addFld f u i n).loaded = s.loaded := rfl
@[simp] theorem State.addFld_mem (s : State) (f : Fld) (u i n : Nat) : (s.addFld f u i n).mem = s.mem := rfl
@[simp] theorem State.addFld_marks (s : State) (f : Fld) (u i n : Nat) : (s.addFld f u i n).marks = s.marks := rfl
@[simp] theorem State.addFld_chans (s : State) (f : Fld) (u i n : Nat) : (s.addFld f u i n).chans = s.chans := rfl
@[simp] theorem State.addFld_swaps (s : State) (f : Fld) (u i n : Nat) : (s.addFld f u i n).swaps = s.swaps := rfl
@[simp] theorem State.addFld_lost (s : State) (f : Fld) (u i n : Nat) : (s.addFld f u i n).lost = s.lost := rfl
@[simp] theorem State.addFld_repairs (s : State) (f : Fld) (u i n : Nat) : (s.addFld f u i n).repairs = s.repairs := rfl
@[simp] theorem State.addFld_cores (s : State) (f : Fld) (u i n : Nat) : (s.addFld f u i n).cores = s.cores := rfl
@[simp] theorem State.addFld_mils (s : State) (f : Fld) (u i n : Nat) : (s.addFld f u i n).mils = s.mils := rfl
@[simp] theorem State.addFld_fullers (s : State) (f : Fld) (u i n : Nat) : (s.addFld f u i n).fullers = s.fullers := rfl
@[simp] theorem State.addFld_mesh (s : State) (f : Fld) (u i n : Nat) : (s.addFld f u i n).mesh = s.mesh := rfl
@[simp] theorem State.addFld_fns (s : State) (f : Fld) (u i n : Nat) : (s.addFld f u i n).fns = s.fns := rfl
@[simp] theorem State.addFld_parts (s : State) (f : Fld) (u i n : Nat) : (s.addFld f u i n).parts = s.parts := rfl
@[simp] theorem State.addFld_hostOut (s : State) (f : Fld) (u i n : Nat) : (s.addFld f u i n).hostOut = s.hostOut := rfl
@[simp] theorem State.addFld_held (s : State) (f : Fld) (u i n : Nat) : (s.addFld f u i n).held = s.held := rfl
@[simp] theorem State.addFld_stalled (s : State) (f : Fld) (u i n : Nat) : (s.addFld f u i n).stalled = s.stalled := rfl
@[simp] theorem State.addFld_events (s : State) (f : Fld) (u i n : Nat) : (s.addFld f u i n).events = s.events := rfl
@[simp] theorem State.addFld_hb (s : State) (f : Fld) (u i n : Nat) : (s.addFld f u i n).hb = s.hb := rfl
@[simp] theorem State.addFld_nextSub (s : State) (f : Fld) (u i n : Nat) : (s.addFld f u i n).nextSub = s.nextSub := rfl
@[simp] theorem State.addFld_brim (s : State) (f : Fld) (u i n : Nat) : (s.addFld f u i n).brim = s.brim := rfl
@[simp] theorem State.addFld_image (s : State) (f : Fld) (u i n : Nat) : (s.addFld f u i n).image = s.image := rfl
@[simp] theorem State.addFld_levels (s : State) (f : Fld) (u i n : Nat) : (s.addFld f u i n).levels = s.levels := rfl
@[simp] theorem State.addFld_doms (s : State) (f : Fld) (u i n : Nat) : (s.addFld f u i n).doms = s.doms := rfl
@[simp] theorem State.addFld_cpwr (s : State) (f : Fld) (u i n : Nat) : (s.addFld f u i n).cpwr = s.cpwr := rfl
@[simp] theorem State.addFld_pwr (s : State) (f : Fld) (u i n : Nat) : (s.addFld f u i n).pwr = s.pwr := rfl
@[simp] theorem State.addFld_therm (s : State) (f : Fld) (u i n : Nat) : (s.addFld f u i n).therm = s.therm := rfl
@[simp] theorem State.addFld_supply (s : State) (f : Fld) (u i n : Nat) : (s.addFld f u i n).supply = s.supply := rfl
@[simp] theorem State.addFld_resets (s : State) (f : Fld) (u i n : Nat) : (s.addFld f u i n).resets = s.resets := rfl
@[simp] theorem State.addFld_partResets (s : State) (f : Fld) (u i n : Nat) : (s.addFld f u i n).partResets = s.partResets := rfl
@[simp] theorem State.addFld_tilePass (s : State) (f : Fld) (u i n : Nat) : (s.addFld f u i n).tilePass = s.tilePass := rfl
@[simp] theorem State.addFld_reblocks (s : State) (f : Fld) (u i n : Nat) : (s.addFld f u i n).reblocks = s.reblocks := rfl
@[simp] theorem State.addFld_boot (s : State) (f : Fld) (u i n : Nat) : (s.addFld f u i n).boot = s.boot := rfl
@[simp] theorem State.addFld_pcie (s : State) (f : Fld) (u i n : Nat) : (s.addFld f u i n).pcie = s.pcie := rfl
@[simp] theorem State.addFld_sec (s : State) (f : Fld) (u i n : Nat) : (s.addFld f u i n).sec = s.sec := rfl
@[simp] theorem State.addFld_nv (s : State) (f : Fld) (u i n : Nat) : (s.addFld f u i n).nv = s.nv := rfl

/-! ## State.writeRw -/

@[simp] theorem State.writeRw_pending (s : State) (r : Reg) (u i : Nat) (v m : Word) : (s.writeRw r u i v m).pending = s.pending := rfl
@[simp] theorem State.writeRw_freeCtr (s : State) (r : Reg) (u i : Nat) (v m : Word) : (s.writeRw r u i v m).freeCtr = s.freeCtr := rfl
@[simp] theorem State.writeRw_loaded (s : State) (r : Reg) (u i : Nat) (v m : Word) : (s.writeRw r u i v m).loaded = s.loaded := rfl
@[simp] theorem State.writeRw_mem (s : State) (r : Reg) (u i : Nat) (v m : Word) : (s.writeRw r u i v m).mem = s.mem := rfl
@[simp] theorem State.writeRw_marks (s : State) (r : Reg) (u i : Nat) (v m : Word) : (s.writeRw r u i v m).marks = s.marks := rfl
@[simp] theorem State.writeRw_chans (s : State) (r : Reg) (u i : Nat) (v m : Word) : (s.writeRw r u i v m).chans = s.chans := rfl
@[simp] theorem State.writeRw_swaps (s : State) (r : Reg) (u i : Nat) (v m : Word) : (s.writeRw r u i v m).swaps = s.swaps := rfl
@[simp] theorem State.writeRw_lost (s : State) (r : Reg) (u i : Nat) (v m : Word) : (s.writeRw r u i v m).lost = s.lost := rfl
@[simp] theorem State.writeRw_repairs (s : State) (r : Reg) (u i : Nat) (v m : Word) : (s.writeRw r u i v m).repairs = s.repairs := rfl
@[simp] theorem State.writeRw_cores (s : State) (r : Reg) (u i : Nat) (v m : Word) : (s.writeRw r u i v m).cores = s.cores := rfl
@[simp] theorem State.writeRw_mils (s : State) (r : Reg) (u i : Nat) (v m : Word) : (s.writeRw r u i v m).mils = s.mils := rfl
@[simp] theorem State.writeRw_fullers (s : State) (r : Reg) (u i : Nat) (v m : Word) : (s.writeRw r u i v m).fullers = s.fullers := rfl
@[simp] theorem State.writeRw_mesh (s : State) (r : Reg) (u i : Nat) (v m : Word) : (s.writeRw r u i v m).mesh = s.mesh := rfl
@[simp] theorem State.writeRw_fns (s : State) (r : Reg) (u i : Nat) (v m : Word) : (s.writeRw r u i v m).fns = s.fns := rfl
@[simp] theorem State.writeRw_parts (s : State) (r : Reg) (u i : Nat) (v m : Word) : (s.writeRw r u i v m).parts = s.parts := rfl
@[simp] theorem State.writeRw_hostOut (s : State) (r : Reg) (u i : Nat) (v m : Word) : (s.writeRw r u i v m).hostOut = s.hostOut := rfl
@[simp] theorem State.writeRw_held (s : State) (r : Reg) (u i : Nat) (v m : Word) : (s.writeRw r u i v m).held = s.held := rfl
@[simp] theorem State.writeRw_stalled (s : State) (r : Reg) (u i : Nat) (v m : Word) : (s.writeRw r u i v m).stalled = s.stalled := rfl
@[simp] theorem State.writeRw_events (s : State) (r : Reg) (u i : Nat) (v m : Word) : (s.writeRw r u i v m).events = s.events := rfl
@[simp] theorem State.writeRw_hb (s : State) (r : Reg) (u i : Nat) (v m : Word) : (s.writeRw r u i v m).hb = s.hb := rfl
@[simp] theorem State.writeRw_nextSub (s : State) (r : Reg) (u i : Nat) (v m : Word) : (s.writeRw r u i v m).nextSub = s.nextSub := rfl
@[simp] theorem State.writeRw_brim (s : State) (r : Reg) (u i : Nat) (v m : Word) : (s.writeRw r u i v m).brim = s.brim := rfl
@[simp] theorem State.writeRw_image (s : State) (r : Reg) (u i : Nat) (v m : Word) : (s.writeRw r u i v m).image = s.image := rfl
@[simp] theorem State.writeRw_levels (s : State) (r : Reg) (u i : Nat) (v m : Word) : (s.writeRw r u i v m).levels = s.levels := rfl
@[simp] theorem State.writeRw_doms (s : State) (r : Reg) (u i : Nat) (v m : Word) : (s.writeRw r u i v m).doms = s.doms := rfl
@[simp] theorem State.writeRw_cpwr (s : State) (r : Reg) (u i : Nat) (v m : Word) : (s.writeRw r u i v m).cpwr = s.cpwr := rfl
@[simp] theorem State.writeRw_pwr (s : State) (r : Reg) (u i : Nat) (v m : Word) : (s.writeRw r u i v m).pwr = s.pwr := rfl
@[simp] theorem State.writeRw_therm (s : State) (r : Reg) (u i : Nat) (v m : Word) : (s.writeRw r u i v m).therm = s.therm := rfl
@[simp] theorem State.writeRw_supply (s : State) (r : Reg) (u i : Nat) (v m : Word) : (s.writeRw r u i v m).supply = s.supply := rfl
@[simp] theorem State.writeRw_resets (s : State) (r : Reg) (u i : Nat) (v m : Word) : (s.writeRw r u i v m).resets = s.resets := rfl
@[simp] theorem State.writeRw_partResets (s : State) (r : Reg) (u i : Nat) (v m : Word) : (s.writeRw r u i v m).partResets = s.partResets := rfl
@[simp] theorem State.writeRw_tilePass (s : State) (r : Reg) (u i : Nat) (v m : Word) : (s.writeRw r u i v m).tilePass = s.tilePass := rfl
@[simp] theorem State.writeRw_reblocks (s : State) (r : Reg) (u i : Nat) (v m : Word) : (s.writeRw r u i v m).reblocks = s.reblocks := rfl
@[simp] theorem State.writeRw_boot (s : State) (r : Reg) (u i : Nat) (v m : Word) : (s.writeRw r u i v m).boot = s.boot := rfl
@[simp] theorem State.writeRw_pcie (s : State) (r : Reg) (u i : Nat) (v m : Word) : (s.writeRw r u i v m).pcie = s.pcie := rfl
@[simp] theorem State.writeRw_sec (s : State) (r : Reg) (u i : Nat) (v m : Word) : (s.writeRw r u i v m).sec = s.sec := rfl
@[simp] theorem State.writeRw_nv (s : State) (r : Reg) (u i : Nat) (v m : Word) : (s.writeRw r u i v m).nv = s.nv := rfl

/-! ## State.draw -/

@[simp] theorem State.draw_pending (s : State) (n : Nat) : (s.draw n).pending = s.pending := rfl
@[simp] theorem State.draw_regs (s : State) (n : Nat) : (s.draw n).regs = s.regs := rfl
@[simp] theorem State.draw_loaded (s : State) (n : Nat) : (s.draw n).loaded = s.loaded := rfl
@[simp] theorem State.draw_mem (s : State) (n : Nat) : (s.draw n).mem = s.mem := rfl
@[simp] theorem State.draw_marks (s : State) (n : Nat) : (s.draw n).marks = s.marks := rfl
@[simp] theorem State.draw_chans (s : State) (n : Nat) : (s.draw n).chans = s.chans := rfl
@[simp] theorem State.draw_swaps (s : State) (n : Nat) : (s.draw n).swaps = s.swaps := rfl
@[simp] theorem State.draw_lost (s : State) (n : Nat) : (s.draw n).lost = s.lost := rfl
@[simp] theorem State.draw_repairs (s : State) (n : Nat) : (s.draw n).repairs = s.repairs := rfl
@[simp] theorem State.draw_cores (s : State) (n : Nat) : (s.draw n).cores = s.cores := rfl
@[simp] theorem State.draw_mils (s : State) (n : Nat) : (s.draw n).mils = s.mils := rfl
@[simp] theorem State.draw_fullers (s : State) (n : Nat) : (s.draw n).fullers = s.fullers := rfl
@[simp] theorem State.draw_mesh (s : State) (n : Nat) : (s.draw n).mesh = s.mesh := rfl
@[simp] theorem State.draw_fns (s : State) (n : Nat) : (s.draw n).fns = s.fns := rfl
@[simp] theorem State.draw_parts (s : State) (n : Nat) : (s.draw n).parts = s.parts := rfl
@[simp] theorem State.draw_hostOut (s : State) (n : Nat) : (s.draw n).hostOut = s.hostOut := rfl
@[simp] theorem State.draw_held (s : State) (n : Nat) : (s.draw n).held = s.held := rfl
@[simp] theorem State.draw_stalled (s : State) (n : Nat) : (s.draw n).stalled = s.stalled := rfl
@[simp] theorem State.draw_events (s : State) (n : Nat) : (s.draw n).events = s.events := rfl
@[simp] theorem State.draw_hb (s : State) (n : Nat) : (s.draw n).hb = s.hb := rfl
@[simp] theorem State.draw_nextSub (s : State) (n : Nat) : (s.draw n).nextSub = s.nextSub := rfl
@[simp] theorem State.draw_brim (s : State) (n : Nat) : (s.draw n).brim = s.brim := rfl
@[simp] theorem State.draw_image (s : State) (n : Nat) : (s.draw n).image = s.image := rfl
@[simp] theorem State.draw_levels (s : State) (n : Nat) : (s.draw n).levels = s.levels := rfl
@[simp] theorem State.draw_doms (s : State) (n : Nat) : (s.draw n).doms = s.doms := rfl
@[simp] theorem State.draw_cpwr (s : State) (n : Nat) : (s.draw n).cpwr = s.cpwr := rfl
@[simp] theorem State.draw_pwr (s : State) (n : Nat) : (s.draw n).pwr = s.pwr := rfl
@[simp] theorem State.draw_therm (s : State) (n : Nat) : (s.draw n).therm = s.therm := rfl
@[simp] theorem State.draw_supply (s : State) (n : Nat) : (s.draw n).supply = s.supply := rfl
@[simp] theorem State.draw_resets (s : State) (n : Nat) : (s.draw n).resets = s.resets := rfl
@[simp] theorem State.draw_partResets (s : State) (n : Nat) : (s.draw n).partResets = s.partResets := rfl
@[simp] theorem State.draw_tilePass (s : State) (n : Nat) : (s.draw n).tilePass = s.tilePass := rfl
@[simp] theorem State.draw_reblocks (s : State) (n : Nat) : (s.draw n).reblocks = s.reblocks := rfl
@[simp] theorem State.draw_boot (s : State) (n : Nat) : (s.draw n).boot = s.boot := rfl
@[simp] theorem State.draw_pcie (s : State) (n : Nat) : (s.draw n).pcie = s.pcie := rfl
@[simp] theorem State.draw_sec (s : State) (n : Nat) : (s.draw n).sec = s.sec := rfl
@[simp] theorem State.draw_nv (s : State) (n : Nat) : (s.draw n).nv = s.nv := rfl

/-! ## State.setCore -/

@[simp] theorem State.setCore_pending (s : State) (c : Nat) (x : Core) : (s.setCore c x).pending = s.pending := rfl
@[simp] theorem State.setCore_freeCtr (s : State) (c : Nat) (x : Core) : (s.setCore c x).freeCtr = s.freeCtr := rfl
@[simp] theorem State.setCore_regs (s : State) (c : Nat) (x : Core) : (s.setCore c x).regs = s.regs := rfl
@[simp] theorem State.setCore_loaded (s : State) (c : Nat) (x : Core) : (s.setCore c x).loaded = s.loaded := rfl
@[simp] theorem State.setCore_mem (s : State) (c : Nat) (x : Core) : (s.setCore c x).mem = s.mem := rfl
@[simp] theorem State.setCore_marks (s : State) (c : Nat) (x : Core) : (s.setCore c x).marks = s.marks := rfl
@[simp] theorem State.setCore_chans (s : State) (c : Nat) (x : Core) : (s.setCore c x).chans = s.chans := rfl
@[simp] theorem State.setCore_swaps (s : State) (c : Nat) (x : Core) : (s.setCore c x).swaps = s.swaps := rfl
@[simp] theorem State.setCore_lost (s : State) (c : Nat) (x : Core) : (s.setCore c x).lost = s.lost := rfl
@[simp] theorem State.setCore_repairs (s : State) (c : Nat) (x : Core) : (s.setCore c x).repairs = s.repairs := rfl
@[simp] theorem State.setCore_mils (s : State) (c : Nat) (x : Core) : (s.setCore c x).mils = s.mils := rfl
@[simp] theorem State.setCore_fullers (s : State) (c : Nat) (x : Core) : (s.setCore c x).fullers = s.fullers := rfl
@[simp] theorem State.setCore_mesh (s : State) (c : Nat) (x : Core) : (s.setCore c x).mesh = s.mesh := rfl
@[simp] theorem State.setCore_fns (s : State) (c : Nat) (x : Core) : (s.setCore c x).fns = s.fns := rfl
@[simp] theorem State.setCore_parts (s : State) (c : Nat) (x : Core) : (s.setCore c x).parts = s.parts := rfl
@[simp] theorem State.setCore_hostOut (s : State) (c : Nat) (x : Core) : (s.setCore c x).hostOut = s.hostOut := rfl
@[simp] theorem State.setCore_held (s : State) (c : Nat) (x : Core) : (s.setCore c x).held = s.held := rfl
@[simp] theorem State.setCore_stalled (s : State) (c : Nat) (x : Core) : (s.setCore c x).stalled = s.stalled := rfl
@[simp] theorem State.setCore_events (s : State) (c : Nat) (x : Core) : (s.setCore c x).events = s.events := rfl
@[simp] theorem State.setCore_hb (s : State) (c : Nat) (x : Core) : (s.setCore c x).hb = s.hb := rfl
@[simp] theorem State.setCore_nextSub (s : State) (c : Nat) (x : Core) : (s.setCore c x).nextSub = s.nextSub := rfl
@[simp] theorem State.setCore_brim (s : State) (c : Nat) (x : Core) : (s.setCore c x).brim = s.brim := rfl
@[simp] theorem State.setCore_image (s : State) (c : Nat) (x : Core) : (s.setCore c x).image = s.image := rfl
@[simp] theorem State.setCore_levels (s : State) (c : Nat) (x : Core) : (s.setCore c x).levels = s.levels := rfl
@[simp] theorem State.setCore_doms (s : State) (c : Nat) (x : Core) : (s.setCore c x).doms = s.doms := rfl
@[simp] theorem State.setCore_cpwr (s : State) (c : Nat) (x : Core) : (s.setCore c x).cpwr = s.cpwr := rfl
@[simp] theorem State.setCore_pwr (s : State) (c : Nat) (x : Core) : (s.setCore c x).pwr = s.pwr := rfl
@[simp] theorem State.setCore_therm (s : State) (c : Nat) (x : Core) : (s.setCore c x).therm = s.therm := rfl
@[simp] theorem State.setCore_supply (s : State) (c : Nat) (x : Core) : (s.setCore c x).supply = s.supply := rfl
@[simp] theorem State.setCore_resets (s : State) (c : Nat) (x : Core) : (s.setCore c x).resets = s.resets := rfl
@[simp] theorem State.setCore_partResets (s : State) (c : Nat) (x : Core) : (s.setCore c x).partResets = s.partResets := rfl
@[simp] theorem State.setCore_tilePass (s : State) (c : Nat) (x : Core) : (s.setCore c x).tilePass = s.tilePass := rfl
@[simp] theorem State.setCore_reblocks (s : State) (c : Nat) (x : Core) : (s.setCore c x).reblocks = s.reblocks := rfl
@[simp] theorem State.setCore_boot (s : State) (c : Nat) (x : Core) : (s.setCore c x).boot = s.boot := rfl
@[simp] theorem State.setCore_pcie (s : State) (c : Nat) (x : Core) : (s.setCore c x).pcie = s.pcie := rfl
@[simp] theorem State.setCore_sec (s : State) (c : Nat) (x : Core) : (s.setCore c x).sec = s.sec := rfl
@[simp] theorem State.setCore_nv (s : State) (c : Nat) (x : Core) : (s.setCore c x).nv = s.nv := rfl

/-! ## State.setQueue -/

@[simp] theorem State.setQueue_pending (s : State) (c q : Nat) (x : Queue) : (s.setQueue c q x).pending = s.pending := rfl
@[simp] theorem State.setQueue_freeCtr (s : State) (c q : Nat) (x : Queue) : (s.setQueue c q x).freeCtr = s.freeCtr := rfl
@[simp] theorem State.setQueue_regs (s : State) (c q : Nat) (x : Queue) : (s.setQueue c q x).regs = s.regs := rfl
@[simp] theorem State.setQueue_loaded (s : State) (c q : Nat) (x : Queue) : (s.setQueue c q x).loaded = s.loaded := rfl
@[simp] theorem State.setQueue_mem (s : State) (c q : Nat) (x : Queue) : (s.setQueue c q x).mem = s.mem := rfl
@[simp] theorem State.setQueue_marks (s : State) (c q : Nat) (x : Queue) : (s.setQueue c q x).marks = s.marks := rfl
@[simp] theorem State.setQueue_chans (s : State) (c q : Nat) (x : Queue) : (s.setQueue c q x).chans = s.chans := rfl
@[simp] theorem State.setQueue_swaps (s : State) (c q : Nat) (x : Queue) : (s.setQueue c q x).swaps = s.swaps := rfl
@[simp] theorem State.setQueue_lost (s : State) (c q : Nat) (x : Queue) : (s.setQueue c q x).lost = s.lost := rfl
@[simp] theorem State.setQueue_repairs (s : State) (c q : Nat) (x : Queue) : (s.setQueue c q x).repairs = s.repairs := rfl
@[simp] theorem State.setQueue_mils (s : State) (c q : Nat) (x : Queue) : (s.setQueue c q x).mils = s.mils := rfl
@[simp] theorem State.setQueue_fullers (s : State) (c q : Nat) (x : Queue) : (s.setQueue c q x).fullers = s.fullers := rfl
@[simp] theorem State.setQueue_mesh (s : State) (c q : Nat) (x : Queue) : (s.setQueue c q x).mesh = s.mesh := rfl
@[simp] theorem State.setQueue_fns (s : State) (c q : Nat) (x : Queue) : (s.setQueue c q x).fns = s.fns := rfl
@[simp] theorem State.setQueue_parts (s : State) (c q : Nat) (x : Queue) : (s.setQueue c q x).parts = s.parts := rfl
@[simp] theorem State.setQueue_hostOut (s : State) (c q : Nat) (x : Queue) : (s.setQueue c q x).hostOut = s.hostOut := rfl
@[simp] theorem State.setQueue_held (s : State) (c q : Nat) (x : Queue) : (s.setQueue c q x).held = s.held := rfl
@[simp] theorem State.setQueue_stalled (s : State) (c q : Nat) (x : Queue) : (s.setQueue c q x).stalled = s.stalled := rfl
@[simp] theorem State.setQueue_events (s : State) (c q : Nat) (x : Queue) : (s.setQueue c q x).events = s.events := rfl
@[simp] theorem State.setQueue_hb (s : State) (c q : Nat) (x : Queue) : (s.setQueue c q x).hb = s.hb := rfl
@[simp] theorem State.setQueue_nextSub (s : State) (c q : Nat) (x : Queue) : (s.setQueue c q x).nextSub = s.nextSub := rfl
@[simp] theorem State.setQueue_brim (s : State) (c q : Nat) (x : Queue) : (s.setQueue c q x).brim = s.brim := rfl
@[simp] theorem State.setQueue_image (s : State) (c q : Nat) (x : Queue) : (s.setQueue c q x).image = s.image := rfl
@[simp] theorem State.setQueue_levels (s : State) (c q : Nat) (x : Queue) : (s.setQueue c q x).levels = s.levels := rfl
@[simp] theorem State.setQueue_doms (s : State) (c q : Nat) (x : Queue) : (s.setQueue c q x).doms = s.doms := rfl
@[simp] theorem State.setQueue_cpwr (s : State) (c q : Nat) (x : Queue) : (s.setQueue c q x).cpwr = s.cpwr := rfl
@[simp] theorem State.setQueue_pwr (s : State) (c q : Nat) (x : Queue) : (s.setQueue c q x).pwr = s.pwr := rfl
@[simp] theorem State.setQueue_therm (s : State) (c q : Nat) (x : Queue) : (s.setQueue c q x).therm = s.therm := rfl
@[simp] theorem State.setQueue_supply (s : State) (c q : Nat) (x : Queue) : (s.setQueue c q x).supply = s.supply := rfl
@[simp] theorem State.setQueue_resets (s : State) (c q : Nat) (x : Queue) : (s.setQueue c q x).resets = s.resets := rfl
@[simp] theorem State.setQueue_partResets (s : State) (c q : Nat) (x : Queue) : (s.setQueue c q x).partResets = s.partResets := rfl
@[simp] theorem State.setQueue_tilePass (s : State) (c q : Nat) (x : Queue) : (s.setQueue c q x).tilePass = s.tilePass := rfl
@[simp] theorem State.setQueue_reblocks (s : State) (c q : Nat) (x : Queue) : (s.setQueue c q x).reblocks = s.reblocks := rfl
@[simp] theorem State.setQueue_boot (s : State) (c q : Nat) (x : Queue) : (s.setQueue c q x).boot = s.boot := rfl
@[simp] theorem State.setQueue_pcie (s : State) (c q : Nat) (x : Queue) : (s.setQueue c q x).pcie = s.pcie := rfl
@[simp] theorem State.setQueue_sec (s : State) (c q : Nat) (x : Queue) : (s.setQueue c q x).sec = s.sec := rfl
@[simp] theorem State.setQueue_nv (s : State) (c q : Nat) (x : Queue) : (s.setQueue c q x).nv = s.nv := rfl

/-! ## State.setMark -/

@[simp] theorem State.setMark_pending (s : State) (k : Nat) (m : Option Mark) : (s.setMark k m).pending = s.pending := rfl
@[simp] theorem State.setMark_freeCtr (s : State) (k : Nat) (m : Option Mark) : (s.setMark k m).freeCtr = s.freeCtr := rfl
@[simp] theorem State.setMark_regs (s : State) (k : Nat) (m : Option Mark) : (s.setMark k m).regs = s.regs := rfl
@[simp] theorem State.setMark_loaded (s : State) (k : Nat) (m : Option Mark) : (s.setMark k m).loaded = s.loaded := rfl
@[simp] theorem State.setMark_mem (s : State) (k : Nat) (m : Option Mark) : (s.setMark k m).mem = s.mem := rfl
@[simp] theorem State.setMark_chans (s : State) (k : Nat) (m : Option Mark) : (s.setMark k m).chans = s.chans := rfl
@[simp] theorem State.setMark_swaps (s : State) (k : Nat) (m : Option Mark) : (s.setMark k m).swaps = s.swaps := rfl
@[simp] theorem State.setMark_lost (s : State) (k : Nat) (m : Option Mark) : (s.setMark k m).lost = s.lost := rfl
@[simp] theorem State.setMark_repairs (s : State) (k : Nat) (m : Option Mark) : (s.setMark k m).repairs = s.repairs := rfl
@[simp] theorem State.setMark_cores (s : State) (k : Nat) (m : Option Mark) : (s.setMark k m).cores = s.cores := rfl
@[simp] theorem State.setMark_mils (s : State) (k : Nat) (m : Option Mark) : (s.setMark k m).mils = s.mils := rfl
@[simp] theorem State.setMark_fullers (s : State) (k : Nat) (m : Option Mark) : (s.setMark k m).fullers = s.fullers := rfl
@[simp] theorem State.setMark_mesh (s : State) (k : Nat) (m : Option Mark) : (s.setMark k m).mesh = s.mesh := rfl
@[simp] theorem State.setMark_fns (s : State) (k : Nat) (m : Option Mark) : (s.setMark k m).fns = s.fns := rfl
@[simp] theorem State.setMark_parts (s : State) (k : Nat) (m : Option Mark) : (s.setMark k m).parts = s.parts := rfl
@[simp] theorem State.setMark_hostOut (s : State) (k : Nat) (m : Option Mark) : (s.setMark k m).hostOut = s.hostOut := rfl
@[simp] theorem State.setMark_held (s : State) (k : Nat) (m : Option Mark) : (s.setMark k m).held = s.held := rfl
@[simp] theorem State.setMark_stalled (s : State) (k : Nat) (m : Option Mark) : (s.setMark k m).stalled = s.stalled := rfl
@[simp] theorem State.setMark_events (s : State) (k : Nat) (m : Option Mark) : (s.setMark k m).events = s.events := rfl
@[simp] theorem State.setMark_hb (s : State) (k : Nat) (m : Option Mark) : (s.setMark k m).hb = s.hb := rfl
@[simp] theorem State.setMark_nextSub (s : State) (k : Nat) (m : Option Mark) : (s.setMark k m).nextSub = s.nextSub := rfl
@[simp] theorem State.setMark_brim (s : State) (k : Nat) (m : Option Mark) : (s.setMark k m).brim = s.brim := rfl
@[simp] theorem State.setMark_image (s : State) (k : Nat) (m : Option Mark) : (s.setMark k m).image = s.image := rfl
@[simp] theorem State.setMark_levels (s : State) (k : Nat) (m : Option Mark) : (s.setMark k m).levels = s.levels := rfl
@[simp] theorem State.setMark_doms (s : State) (k : Nat) (m : Option Mark) : (s.setMark k m).doms = s.doms := rfl
@[simp] theorem State.setMark_cpwr (s : State) (k : Nat) (m : Option Mark) : (s.setMark k m).cpwr = s.cpwr := rfl
@[simp] theorem State.setMark_pwr (s : State) (k : Nat) (m : Option Mark) : (s.setMark k m).pwr = s.pwr := rfl
@[simp] theorem State.setMark_therm (s : State) (k : Nat) (m : Option Mark) : (s.setMark k m).therm = s.therm := rfl
@[simp] theorem State.setMark_supply (s : State) (k : Nat) (m : Option Mark) : (s.setMark k m).supply = s.supply := rfl
@[simp] theorem State.setMark_resets (s : State) (k : Nat) (m : Option Mark) : (s.setMark k m).resets = s.resets := rfl
@[simp] theorem State.setMark_partResets (s : State) (k : Nat) (m : Option Mark) : (s.setMark k m).partResets = s.partResets := rfl
@[simp] theorem State.setMark_tilePass (s : State) (k : Nat) (m : Option Mark) : (s.setMark k m).tilePass = s.tilePass := rfl
@[simp] theorem State.setMark_reblocks (s : State) (k : Nat) (m : Option Mark) : (s.setMark k m).reblocks = s.reblocks := rfl
@[simp] theorem State.setMark_boot (s : State) (k : Nat) (m : Option Mark) : (s.setMark k m).boot = s.boot := rfl
@[simp] theorem State.setMark_pcie (s : State) (k : Nat) (m : Option Mark) : (s.setMark k m).pcie = s.pcie := rfl
@[simp] theorem State.setMark_sec (s : State) (k : Nat) (m : Option Mark) : (s.setMark k m).sec = s.sec := rfl
@[simp] theorem State.setMark_nv (s : State) (k : Nat) (m : Option Mark) : (s.setMark k m).nv = s.nv := rfl

/-! ## State.setChan -/

@[simp] theorem State.setChan_pending (s : State) (c p : Nat) (x : Chan) : (s.setChan c p x).pending = s.pending := rfl
@[simp] theorem State.setChan_freeCtr (s : State) (c p : Nat) (x : Chan) : (s.setChan c p x).freeCtr = s.freeCtr := rfl
@[simp] theorem State.setChan_regs (s : State) (c p : Nat) (x : Chan) : (s.setChan c p x).regs = s.regs := rfl
@[simp] theorem State.setChan_loaded (s : State) (c p : Nat) (x : Chan) : (s.setChan c p x).loaded = s.loaded := rfl
@[simp] theorem State.setChan_mem (s : State) (c p : Nat) (x : Chan) : (s.setChan c p x).mem = s.mem := rfl
@[simp] theorem State.setChan_marks (s : State) (c p : Nat) (x : Chan) : (s.setChan c p x).marks = s.marks := rfl
@[simp] theorem State.setChan_swaps (s : State) (c p : Nat) (x : Chan) : (s.setChan c p x).swaps = s.swaps := rfl
@[simp] theorem State.setChan_lost (s : State) (c p : Nat) (x : Chan) : (s.setChan c p x).lost = s.lost := rfl
@[simp] theorem State.setChan_repairs (s : State) (c p : Nat) (x : Chan) : (s.setChan c p x).repairs = s.repairs := rfl
@[simp] theorem State.setChan_cores (s : State) (c p : Nat) (x : Chan) : (s.setChan c p x).cores = s.cores := rfl
@[simp] theorem State.setChan_mils (s : State) (c p : Nat) (x : Chan) : (s.setChan c p x).mils = s.mils := rfl
@[simp] theorem State.setChan_fullers (s : State) (c p : Nat) (x : Chan) : (s.setChan c p x).fullers = s.fullers := rfl
@[simp] theorem State.setChan_mesh (s : State) (c p : Nat) (x : Chan) : (s.setChan c p x).mesh = s.mesh := rfl
@[simp] theorem State.setChan_fns (s : State) (c p : Nat) (x : Chan) : (s.setChan c p x).fns = s.fns := rfl
@[simp] theorem State.setChan_parts (s : State) (c p : Nat) (x : Chan) : (s.setChan c p x).parts = s.parts := rfl
@[simp] theorem State.setChan_hostOut (s : State) (c p : Nat) (x : Chan) : (s.setChan c p x).hostOut = s.hostOut := rfl
@[simp] theorem State.setChan_held (s : State) (c p : Nat) (x : Chan) : (s.setChan c p x).held = s.held := rfl
@[simp] theorem State.setChan_stalled (s : State) (c p : Nat) (x : Chan) : (s.setChan c p x).stalled = s.stalled := rfl
@[simp] theorem State.setChan_events (s : State) (c p : Nat) (x : Chan) : (s.setChan c p x).events = s.events := rfl
@[simp] theorem State.setChan_hb (s : State) (c p : Nat) (x : Chan) : (s.setChan c p x).hb = s.hb := rfl
@[simp] theorem State.setChan_nextSub (s : State) (c p : Nat) (x : Chan) : (s.setChan c p x).nextSub = s.nextSub := rfl
@[simp] theorem State.setChan_brim (s : State) (c p : Nat) (x : Chan) : (s.setChan c p x).brim = s.brim := rfl
@[simp] theorem State.setChan_image (s : State) (c p : Nat) (x : Chan) : (s.setChan c p x).image = s.image := rfl
@[simp] theorem State.setChan_levels (s : State) (c p : Nat) (x : Chan) : (s.setChan c p x).levels = s.levels := rfl
@[simp] theorem State.setChan_doms (s : State) (c p : Nat) (x : Chan) : (s.setChan c p x).doms = s.doms := rfl
@[simp] theorem State.setChan_cpwr (s : State) (c p : Nat) (x : Chan) : (s.setChan c p x).cpwr = s.cpwr := rfl
@[simp] theorem State.setChan_pwr (s : State) (c p : Nat) (x : Chan) : (s.setChan c p x).pwr = s.pwr := rfl
@[simp] theorem State.setChan_therm (s : State) (c p : Nat) (x : Chan) : (s.setChan c p x).therm = s.therm := rfl
@[simp] theorem State.setChan_supply (s : State) (c p : Nat) (x : Chan) : (s.setChan c p x).supply = s.supply := rfl
@[simp] theorem State.setChan_resets (s : State) (c p : Nat) (x : Chan) : (s.setChan c p x).resets = s.resets := rfl
@[simp] theorem State.setChan_partResets (s : State) (c p : Nat) (x : Chan) : (s.setChan c p x).partResets = s.partResets := rfl
@[simp] theorem State.setChan_tilePass (s : State) (c p : Nat) (x : Chan) : (s.setChan c p x).tilePass = s.tilePass := rfl
@[simp] theorem State.setChan_reblocks (s : State) (c p : Nat) (x : Chan) : (s.setChan c p x).reblocks = s.reblocks := rfl
@[simp] theorem State.setChan_boot (s : State) (c p : Nat) (x : Chan) : (s.setChan c p x).boot = s.boot := rfl
@[simp] theorem State.setChan_pcie (s : State) (c p : Nat) (x : Chan) : (s.setChan c p x).pcie = s.pcie := rfl
@[simp] theorem State.setChan_sec (s : State) (c p : Nat) (x : Chan) : (s.setChan c p x).sec = s.sec := rfl
@[simp] theorem State.setChan_nv (s : State) (c p : Nat) (x : Chan) : (s.setChan c p x).nv = s.nv := rfl

/-! ## State.setMil -/

@[simp] theorem State.setMil_pending (s : State) (st : Nat) (x : Mil) : (s.setMil st x).pending = s.pending := rfl
@[simp] theorem State.setMil_freeCtr (s : State) (st : Nat) (x : Mil) : (s.setMil st x).freeCtr = s.freeCtr := rfl
@[simp] theorem State.setMil_regs (s : State) (st : Nat) (x : Mil) : (s.setMil st x).regs = s.regs := rfl
@[simp] theorem State.setMil_loaded (s : State) (st : Nat) (x : Mil) : (s.setMil st x).loaded = s.loaded := rfl
@[simp] theorem State.setMil_mem (s : State) (st : Nat) (x : Mil) : (s.setMil st x).mem = s.mem := rfl
@[simp] theorem State.setMil_marks (s : State) (st : Nat) (x : Mil) : (s.setMil st x).marks = s.marks := rfl
@[simp] theorem State.setMil_chans (s : State) (st : Nat) (x : Mil) : (s.setMil st x).chans = s.chans := rfl
@[simp] theorem State.setMil_swaps (s : State) (st : Nat) (x : Mil) : (s.setMil st x).swaps = s.swaps := rfl
@[simp] theorem State.setMil_lost (s : State) (st : Nat) (x : Mil) : (s.setMil st x).lost = s.lost := rfl
@[simp] theorem State.setMil_repairs (s : State) (st : Nat) (x : Mil) : (s.setMil st x).repairs = s.repairs := rfl
@[simp] theorem State.setMil_cores (s : State) (st : Nat) (x : Mil) : (s.setMil st x).cores = s.cores := rfl
@[simp] theorem State.setMil_fullers (s : State) (st : Nat) (x : Mil) : (s.setMil st x).fullers = s.fullers := rfl
@[simp] theorem State.setMil_mesh (s : State) (st : Nat) (x : Mil) : (s.setMil st x).mesh = s.mesh := rfl
@[simp] theorem State.setMil_fns (s : State) (st : Nat) (x : Mil) : (s.setMil st x).fns = s.fns := rfl
@[simp] theorem State.setMil_parts (s : State) (st : Nat) (x : Mil) : (s.setMil st x).parts = s.parts := rfl
@[simp] theorem State.setMil_hostOut (s : State) (st : Nat) (x : Mil) : (s.setMil st x).hostOut = s.hostOut := rfl
@[simp] theorem State.setMil_held (s : State) (st : Nat) (x : Mil) : (s.setMil st x).held = s.held := rfl
@[simp] theorem State.setMil_stalled (s : State) (st : Nat) (x : Mil) : (s.setMil st x).stalled = s.stalled := rfl
@[simp] theorem State.setMil_events (s : State) (st : Nat) (x : Mil) : (s.setMil st x).events = s.events := rfl
@[simp] theorem State.setMil_hb (s : State) (st : Nat) (x : Mil) : (s.setMil st x).hb = s.hb := rfl
@[simp] theorem State.setMil_nextSub (s : State) (st : Nat) (x : Mil) : (s.setMil st x).nextSub = s.nextSub := rfl
@[simp] theorem State.setMil_brim (s : State) (st : Nat) (x : Mil) : (s.setMil st x).brim = s.brim := rfl
@[simp] theorem State.setMil_image (s : State) (st : Nat) (x : Mil) : (s.setMil st x).image = s.image := rfl
@[simp] theorem State.setMil_levels (s : State) (st : Nat) (x : Mil) : (s.setMil st x).levels = s.levels := rfl
@[simp] theorem State.setMil_doms (s : State) (st : Nat) (x : Mil) : (s.setMil st x).doms = s.doms := rfl
@[simp] theorem State.setMil_cpwr (s : State) (st : Nat) (x : Mil) : (s.setMil st x).cpwr = s.cpwr := rfl
@[simp] theorem State.setMil_pwr (s : State) (st : Nat) (x : Mil) : (s.setMil st x).pwr = s.pwr := rfl
@[simp] theorem State.setMil_therm (s : State) (st : Nat) (x : Mil) : (s.setMil st x).therm = s.therm := rfl
@[simp] theorem State.setMil_supply (s : State) (st : Nat) (x : Mil) : (s.setMil st x).supply = s.supply := rfl
@[simp] theorem State.setMil_resets (s : State) (st : Nat) (x : Mil) : (s.setMil st x).resets = s.resets := rfl
@[simp] theorem State.setMil_partResets (s : State) (st : Nat) (x : Mil) : (s.setMil st x).partResets = s.partResets := rfl
@[simp] theorem State.setMil_tilePass (s : State) (st : Nat) (x : Mil) : (s.setMil st x).tilePass = s.tilePass := rfl
@[simp] theorem State.setMil_reblocks (s : State) (st : Nat) (x : Mil) : (s.setMil st x).reblocks = s.reblocks := rfl
@[simp] theorem State.setMil_boot (s : State) (st : Nat) (x : Mil) : (s.setMil st x).boot = s.boot := rfl
@[simp] theorem State.setMil_pcie (s : State) (st : Nat) (x : Mil) : (s.setMil st x).pcie = s.pcie := rfl
@[simp] theorem State.setMil_sec (s : State) (st : Nat) (x : Mil) : (s.setMil st x).sec = s.sec := rfl
@[simp] theorem State.setMil_nv (s : State) (st : Nat) (x : Mil) : (s.setMil st x).nv = s.nv := rfl

/-! ## State.setFn -/

@[simp] theorem State.setFn_pending (s : State) (f : Nat) (x : Fn) : (s.setFn f x).pending = s.pending := rfl
@[simp] theorem State.setFn_freeCtr (s : State) (f : Nat) (x : Fn) : (s.setFn f x).freeCtr = s.freeCtr := rfl
@[simp] theorem State.setFn_regs (s : State) (f : Nat) (x : Fn) : (s.setFn f x).regs = s.regs := rfl
@[simp] theorem State.setFn_loaded (s : State) (f : Nat) (x : Fn) : (s.setFn f x).loaded = s.loaded := rfl
@[simp] theorem State.setFn_mem (s : State) (f : Nat) (x : Fn) : (s.setFn f x).mem = s.mem := rfl
@[simp] theorem State.setFn_marks (s : State) (f : Nat) (x : Fn) : (s.setFn f x).marks = s.marks := rfl
@[simp] theorem State.setFn_chans (s : State) (f : Nat) (x : Fn) : (s.setFn f x).chans = s.chans := rfl
@[simp] theorem State.setFn_swaps (s : State) (f : Nat) (x : Fn) : (s.setFn f x).swaps = s.swaps := rfl
@[simp] theorem State.setFn_lost (s : State) (f : Nat) (x : Fn) : (s.setFn f x).lost = s.lost := rfl
@[simp] theorem State.setFn_repairs (s : State) (f : Nat) (x : Fn) : (s.setFn f x).repairs = s.repairs := rfl
@[simp] theorem State.setFn_cores (s : State) (f : Nat) (x : Fn) : (s.setFn f x).cores = s.cores := rfl
@[simp] theorem State.setFn_mils (s : State) (f : Nat) (x : Fn) : (s.setFn f x).mils = s.mils := rfl
@[simp] theorem State.setFn_fullers (s : State) (f : Nat) (x : Fn) : (s.setFn f x).fullers = s.fullers := rfl
@[simp] theorem State.setFn_mesh (s : State) (f : Nat) (x : Fn) : (s.setFn f x).mesh = s.mesh := rfl
@[simp] theorem State.setFn_parts (s : State) (f : Nat) (x : Fn) : (s.setFn f x).parts = s.parts := rfl
@[simp] theorem State.setFn_hostOut (s : State) (f : Nat) (x : Fn) : (s.setFn f x).hostOut = s.hostOut := rfl
@[simp] theorem State.setFn_held (s : State) (f : Nat) (x : Fn) : (s.setFn f x).held = s.held := rfl
@[simp] theorem State.setFn_stalled (s : State) (f : Nat) (x : Fn) : (s.setFn f x).stalled = s.stalled := rfl
@[simp] theorem State.setFn_events (s : State) (f : Nat) (x : Fn) : (s.setFn f x).events = s.events := rfl
@[simp] theorem State.setFn_hb (s : State) (f : Nat) (x : Fn) : (s.setFn f x).hb = s.hb := rfl
@[simp] theorem State.setFn_nextSub (s : State) (f : Nat) (x : Fn) : (s.setFn f x).nextSub = s.nextSub := rfl
@[simp] theorem State.setFn_brim (s : State) (f : Nat) (x : Fn) : (s.setFn f x).brim = s.brim := rfl
@[simp] theorem State.setFn_image (s : State) (f : Nat) (x : Fn) : (s.setFn f x).image = s.image := rfl
@[simp] theorem State.setFn_levels (s : State) (f : Nat) (x : Fn) : (s.setFn f x).levels = s.levels := rfl
@[simp] theorem State.setFn_doms (s : State) (f : Nat) (x : Fn) : (s.setFn f x).doms = s.doms := rfl
@[simp] theorem State.setFn_cpwr (s : State) (f : Nat) (x : Fn) : (s.setFn f x).cpwr = s.cpwr := rfl
@[simp] theorem State.setFn_pwr (s : State) (f : Nat) (x : Fn) : (s.setFn f x).pwr = s.pwr := rfl
@[simp] theorem State.setFn_therm (s : State) (f : Nat) (x : Fn) : (s.setFn f x).therm = s.therm := rfl
@[simp] theorem State.setFn_supply (s : State) (f : Nat) (x : Fn) : (s.setFn f x).supply = s.supply := rfl
@[simp] theorem State.setFn_resets (s : State) (f : Nat) (x : Fn) : (s.setFn f x).resets = s.resets := rfl
@[simp] theorem State.setFn_partResets (s : State) (f : Nat) (x : Fn) : (s.setFn f x).partResets = s.partResets := rfl
@[simp] theorem State.setFn_tilePass (s : State) (f : Nat) (x : Fn) : (s.setFn f x).tilePass = s.tilePass := rfl
@[simp] theorem State.setFn_reblocks (s : State) (f : Nat) (x : Fn) : (s.setFn f x).reblocks = s.reblocks := rfl
@[simp] theorem State.setFn_boot (s : State) (f : Nat) (x : Fn) : (s.setFn f x).boot = s.boot := rfl
@[simp] theorem State.setFn_pcie (s : State) (f : Nat) (x : Fn) : (s.setFn f x).pcie = s.pcie := rfl
@[simp] theorem State.setFn_sec (s : State) (f : Nat) (x : Fn) : (s.setFn f x).sec = s.sec := rfl
@[simp] theorem State.setFn_nv (s : State) (f : Nat) (x : Fn) : (s.setFn f x).nv = s.nv := rfl

/-! ## State.setPart -/

@[simp] theorem State.setPart_pending (s : State) (p : Nat) (x : Part) : (s.setPart p x).pending = s.pending := rfl
@[simp] theorem State.setPart_freeCtr (s : State) (p : Nat) (x : Part) : (s.setPart p x).freeCtr = s.freeCtr := rfl
@[simp] theorem State.setPart_regs (s : State) (p : Nat) (x : Part) : (s.setPart p x).regs = s.regs := rfl
@[simp] theorem State.setPart_loaded (s : State) (p : Nat) (x : Part) : (s.setPart p x).loaded = s.loaded := rfl
@[simp] theorem State.setPart_mem (s : State) (p : Nat) (x : Part) : (s.setPart p x).mem = s.mem := rfl
@[simp] theorem State.setPart_marks (s : State) (p : Nat) (x : Part) : (s.setPart p x).marks = s.marks := rfl
@[simp] theorem State.setPart_chans (s : State) (p : Nat) (x : Part) : (s.setPart p x).chans = s.chans := rfl
@[simp] theorem State.setPart_swaps (s : State) (p : Nat) (x : Part) : (s.setPart p x).swaps = s.swaps := rfl
@[simp] theorem State.setPart_lost (s : State) (p : Nat) (x : Part) : (s.setPart p x).lost = s.lost := rfl
@[simp] theorem State.setPart_repairs (s : State) (p : Nat) (x : Part) : (s.setPart p x).repairs = s.repairs := rfl
@[simp] theorem State.setPart_cores (s : State) (p : Nat) (x : Part) : (s.setPart p x).cores = s.cores := rfl
@[simp] theorem State.setPart_mils (s : State) (p : Nat) (x : Part) : (s.setPart p x).mils = s.mils := rfl
@[simp] theorem State.setPart_fullers (s : State) (p : Nat) (x : Part) : (s.setPart p x).fullers = s.fullers := rfl
@[simp] theorem State.setPart_mesh (s : State) (p : Nat) (x : Part) : (s.setPart p x).mesh = s.mesh := rfl
@[simp] theorem State.setPart_fns (s : State) (p : Nat) (x : Part) : (s.setPart p x).fns = s.fns := rfl
@[simp] theorem State.setPart_hostOut (s : State) (p : Nat) (x : Part) : (s.setPart p x).hostOut = s.hostOut := rfl
@[simp] theorem State.setPart_held (s : State) (p : Nat) (x : Part) : (s.setPart p x).held = s.held := rfl
@[simp] theorem State.setPart_stalled (s : State) (p : Nat) (x : Part) : (s.setPart p x).stalled = s.stalled := rfl
@[simp] theorem State.setPart_events (s : State) (p : Nat) (x : Part) : (s.setPart p x).events = s.events := rfl
@[simp] theorem State.setPart_hb (s : State) (p : Nat) (x : Part) : (s.setPart p x).hb = s.hb := rfl
@[simp] theorem State.setPart_nextSub (s : State) (p : Nat) (x : Part) : (s.setPart p x).nextSub = s.nextSub := rfl
@[simp] theorem State.setPart_brim (s : State) (p : Nat) (x : Part) : (s.setPart p x).brim = s.brim := rfl
@[simp] theorem State.setPart_image (s : State) (p : Nat) (x : Part) : (s.setPart p x).image = s.image := rfl
@[simp] theorem State.setPart_levels (s : State) (p : Nat) (x : Part) : (s.setPart p x).levels = s.levels := rfl
@[simp] theorem State.setPart_doms (s : State) (p : Nat) (x : Part) : (s.setPart p x).doms = s.doms := rfl
@[simp] theorem State.setPart_cpwr (s : State) (p : Nat) (x : Part) : (s.setPart p x).cpwr = s.cpwr := rfl
@[simp] theorem State.setPart_pwr (s : State) (p : Nat) (x : Part) : (s.setPart p x).pwr = s.pwr := rfl
@[simp] theorem State.setPart_therm (s : State) (p : Nat) (x : Part) : (s.setPart p x).therm = s.therm := rfl
@[simp] theorem State.setPart_supply (s : State) (p : Nat) (x : Part) : (s.setPart p x).supply = s.supply := rfl
@[simp] theorem State.setPart_resets (s : State) (p : Nat) (x : Part) : (s.setPart p x).resets = s.resets := rfl
@[simp] theorem State.setPart_partResets (s : State) (p : Nat) (x : Part) : (s.setPart p x).partResets = s.partResets := rfl
@[simp] theorem State.setPart_tilePass (s : State) (p : Nat) (x : Part) : (s.setPart p x).tilePass = s.tilePass := rfl
@[simp] theorem State.setPart_reblocks (s : State) (p : Nat) (x : Part) : (s.setPart p x).reblocks = s.reblocks := rfl
@[simp] theorem State.setPart_boot (s : State) (p : Nat) (x : Part) : (s.setPart p x).boot = s.boot := rfl
@[simp] theorem State.setPart_pcie (s : State) (p : Nat) (x : Part) : (s.setPart p x).pcie = s.pcie := rfl
@[simp] theorem State.setPart_sec (s : State) (p : Nat) (x : Part) : (s.setPart p x).sec = s.sec := rfl
@[simp] theorem State.setPart_nv (s : State) (p : Nat) (x : Part) : (s.setPart p x).nv = s.nv := rfl

/-! ## State.raise -/

@[simp] theorem State.raise_pending (s : State) (e : Ev) (site unit : Nat) (l : List (Nat × Nat)) (o : RaiseOpts) : (s.raise e site unit l o).pending = s.pending := rfl
@[simp] theorem State.raise_loaded (s : State) (e : Ev) (site unit : Nat) (l : List (Nat × Nat)) (o : RaiseOpts) : (s.raise e site unit l o).loaded = s.loaded := rfl
@[simp] theorem State.raise_mem (s : State) (e : Ev) (site unit : Nat) (l : List (Nat × Nat)) (o : RaiseOpts) : (s.raise e site unit l o).mem = s.mem := rfl
@[simp] theorem State.raise_marks (s : State) (e : Ev) (site unit : Nat) (l : List (Nat × Nat)) (o : RaiseOpts) : (s.raise e site unit l o).marks = s.marks := rfl
@[simp] theorem State.raise_chans (s : State) (e : Ev) (site unit : Nat) (l : List (Nat × Nat)) (o : RaiseOpts) : (s.raise e site unit l o).chans = s.chans := rfl
@[simp] theorem State.raise_swaps (s : State) (e : Ev) (site unit : Nat) (l : List (Nat × Nat)) (o : RaiseOpts) : (s.raise e site unit l o).swaps = s.swaps := rfl
@[simp] theorem State.raise_lost (s : State) (e : Ev) (site unit : Nat) (l : List (Nat × Nat)) (o : RaiseOpts) : (s.raise e site unit l o).lost = s.lost := rfl
@[simp] theorem State.raise_repairs (s : State) (e : Ev) (site unit : Nat) (l : List (Nat × Nat)) (o : RaiseOpts) : (s.raise e site unit l o).repairs = s.repairs := rfl
@[simp] theorem State.raise_cores (s : State) (e : Ev) (site unit : Nat) (l : List (Nat × Nat)) (o : RaiseOpts) : (s.raise e site unit l o).cores = s.cores := rfl
@[simp] theorem State.raise_mils (s : State) (e : Ev) (site unit : Nat) (l : List (Nat × Nat)) (o : RaiseOpts) : (s.raise e site unit l o).mils = s.mils := rfl
@[simp] theorem State.raise_fullers (s : State) (e : Ev) (site unit : Nat) (l : List (Nat × Nat)) (o : RaiseOpts) : (s.raise e site unit l o).fullers = s.fullers := rfl
@[simp] theorem State.raise_mesh (s : State) (e : Ev) (site unit : Nat) (l : List (Nat × Nat)) (o : RaiseOpts) : (s.raise e site unit l o).mesh = s.mesh := rfl
@[simp] theorem State.raise_fns (s : State) (e : Ev) (site unit : Nat) (l : List (Nat × Nat)) (o : RaiseOpts) : (s.raise e site unit l o).fns = s.fns := rfl
@[simp] theorem State.raise_parts (s : State) (e : Ev) (site unit : Nat) (l : List (Nat × Nat)) (o : RaiseOpts) : (s.raise e site unit l o).parts = s.parts := rfl
@[simp] theorem State.raise_hostOut (s : State) (e : Ev) (site unit : Nat) (l : List (Nat × Nat)) (o : RaiseOpts) : (s.raise e site unit l o).hostOut = s.hostOut := rfl
@[simp] theorem State.raise_held (s : State) (e : Ev) (site unit : Nat) (l : List (Nat × Nat)) (o : RaiseOpts) : (s.raise e site unit l o).held = s.held := rfl
@[simp] theorem State.raise_stalled (s : State) (e : Ev) (site unit : Nat) (l : List (Nat × Nat)) (o : RaiseOpts) : (s.raise e site unit l o).stalled = s.stalled := rfl
@[simp] theorem State.raise_hb (s : State) (e : Ev) (site unit : Nat) (l : List (Nat × Nat)) (o : RaiseOpts) : (s.raise e site unit l o).hb = s.hb := rfl
@[simp] theorem State.raise_nextSub (s : State) (e : Ev) (site unit : Nat) (l : List (Nat × Nat)) (o : RaiseOpts) : (s.raise e site unit l o).nextSub = s.nextSub := rfl
@[simp] theorem State.raise_brim (s : State) (e : Ev) (site unit : Nat) (l : List (Nat × Nat)) (o : RaiseOpts) : (s.raise e site unit l o).brim = s.brim := rfl
@[simp] theorem State.raise_image (s : State) (e : Ev) (site unit : Nat) (l : List (Nat × Nat)) (o : RaiseOpts) : (s.raise e site unit l o).image = s.image := rfl
@[simp] theorem State.raise_levels (s : State) (e : Ev) (site unit : Nat) (l : List (Nat × Nat)) (o : RaiseOpts) : (s.raise e site unit l o).levels = s.levels := rfl
@[simp] theorem State.raise_doms (s : State) (e : Ev) (site unit : Nat) (l : List (Nat × Nat)) (o : RaiseOpts) : (s.raise e site unit l o).doms = s.doms := rfl
@[simp] theorem State.raise_cpwr (s : State) (e : Ev) (site unit : Nat) (l : List (Nat × Nat)) (o : RaiseOpts) : (s.raise e site unit l o).cpwr = s.cpwr := rfl
@[simp] theorem State.raise_pwr (s : State) (e : Ev) (site unit : Nat) (l : List (Nat × Nat)) (o : RaiseOpts) : (s.raise e site unit l o).pwr = s.pwr := rfl
@[simp] theorem State.raise_therm (s : State) (e : Ev) (site unit : Nat) (l : List (Nat × Nat)) (o : RaiseOpts) : (s.raise e site unit l o).therm = s.therm := rfl
@[simp] theorem State.raise_supply (s : State) (e : Ev) (site unit : Nat) (l : List (Nat × Nat)) (o : RaiseOpts) : (s.raise e site unit l o).supply = s.supply := rfl
@[simp] theorem State.raise_resets (s : State) (e : Ev) (site unit : Nat) (l : List (Nat × Nat)) (o : RaiseOpts) : (s.raise e site unit l o).resets = s.resets := rfl
@[simp] theorem State.raise_partResets (s : State) (e : Ev) (site unit : Nat) (l : List (Nat × Nat)) (o : RaiseOpts) : (s.raise e site unit l o).partResets = s.partResets := rfl
@[simp] theorem State.raise_tilePass (s : State) (e : Ev) (site unit : Nat) (l : List (Nat × Nat)) (o : RaiseOpts) : (s.raise e site unit l o).tilePass = s.tilePass := rfl
@[simp] theorem State.raise_reblocks (s : State) (e : Ev) (site unit : Nat) (l : List (Nat × Nat)) (o : RaiseOpts) : (s.raise e site unit l o).reblocks = s.reblocks := rfl
@[simp] theorem State.raise_boot (s : State) (e : Ev) (site unit : Nat) (l : List (Nat × Nat)) (o : RaiseOpts) : (s.raise e site unit l o).boot = s.boot := rfl
@[simp] theorem State.raise_pcie (s : State) (e : Ev) (site unit : Nat) (l : List (Nat × Nat)) (o : RaiseOpts) : (s.raise e site unit l o).pcie = s.pcie := rfl
@[simp] theorem State.raise_sec (s : State) (e : Ev) (site unit : Nat) (l : List (Nat × Nat)) (o : RaiseOpts) : (s.raise e site unit l o).sec = s.sec := rfl
@[simp] theorem State.raise_nv (s : State) (e : Ev) (site unit : Nat) (l : List (Nat × Nat)) (o : RaiseOpts) : (s.raise e site unit l o).nv = s.nv := rfl

/-- Raising an event writes no register but HB.EVT_STAT. -/
theorem State.reg_raise (s : State) (e : Ev) (site unit : Nat) (l : List (Nat × Nat)) (o : RaiseOpts) {r : Reg} (u i : Nat)
    (h : r ≠ .EVT_STAT) : (s.raise e site unit l o).reg r u i = s.reg r u i := by
  have hk : regKey .EVT_STAT 0 0 ≠ regKey r u i := regKey_reg (Ne.symm h)
  unfold State.raise
  by_cases hw : s.withheld e site unit o.sub = true
  · rw [if_pos hw, if_pos hw]
    rfl
  · rw [if_neg hw, if_neg hw]
    unfold State.reg
    dsimp only
    rw [Tbl.find_set_other _ _ hk]

theorem State.fld_raise (s : State) (e : Ev) (site unit : Nat) (l : List (Nat × Nat)) (o : RaiseOpts) (f : Fld) (u i : Nat)
    (h : f.reg ≠ .EVT_STAT) : (s.raise e site unit l o).fld f u i = s.fld f u i := by
  unfold State.fld
  rw [State.reg_raise _ _ _ _ _ _ _ _ h]

end Sys2Proof.Machine
end

