-- ==== Sys2Proof/Laws/Memory.lean ====
section
/-! SUPPORT. What the reads and writes of SRAM and of a DRAM slice do on lanes and beats that carry no error. -/

namespace Sys2Proof.Machine

theorem Tbl.del_none {α : Type} {t : Tbl α} {k : Nat} (h : Tbl.find t k = none) : Tbl.del t k = t := by
  induction t with
  | nil => rfl
  | cons e t ih =>
    obtain ⟨j, w⟩ := e
    simp only [Tbl.find] at h
    simp only [Tbl.del]
    split at h
    · cases h
    · rename_i hj
      rw [if_neg hj, ih h]

theorem memPutBytes_append (a b : List Byte) (m : List Host.Cell) (k : Nat) :
    memPutBytes m k (a ++ b) = memPutBytes (memPutBytes m k a) (k + a.length) b := by
  induction a generalizing m k with
  | nil => rfl
  | cons x a ih =>
    simp only [List.cons_append, memPutBytes, ih, List.length_cons]
    congr 1
    omega

/-! ## SRAM -/

theorem State.lanesRead_clean (s : State) (c who : Nat) (ls : List Nat) (h : ∀ l ∈ ls, s.laneMark c l = none) :
    s.lanesRead c who ls = (s, false) := by
  induction ls with
  | nil => rfl
  | cons l ls ih =>
    have h1 : s.laneRead c l who = (s, false) := by
      unfold State.laneRead
      rw [h l (List.mem_cons_self ..)]
    simp only [State.lanesRead, h1, ih (fun x hx => h x (List.mem_cons_of_mem _ hx)), Bool.false_or]

/-- A read of lanes that carry no mark answers their bytes and changes nothing (R19). -/
theorem State.sramRead_clean (s : State) (c off n who : Nat) (h : s.lanesClean c off n) :
    s.sramRead c off n who = ⟨s, .ok, memBytes s.mem (sramByte c off) n⟩ := by
  unfold State.sramRead
  dsimp only
  split
  · rfl
  · rename_i hn
    rw [State.lanesRead_clean s c who]
    · rfl
    · intro l hl
      obtain ⟨i, hi, rfl⟩ := List.mem_map.1 hl
      rw [List.mem_range] at hi
      have := h (8 * (off / 8 + i) - off) (by omega)
      by_cases h0 : i = 0
      · subst h0
        have h2 := h 0 (by omega)
        simpa using h2
      · have h3 : (off + (8 * (off / 8 + i) - off)) / 8 = off / 8 + i := by omega
        rwa [h3] at this

theorem State.laneWrite_clean (s : State) (c lane o : Nat) (bytes : List Byte) (who : Nat) (h : s.laneMark c lane = none)
    (ho : bytes.length = 8 → o = 0) :
    s.laneWrite c lane o bytes who = ⟨{ s with mem := memPutBytes s.mem (sramByte c (8 * lane) + o) bytes }, .ok⟩ := by
  have hd : Tbl.del s.marks (sramByte c (8 * lane)) = s.marks := Tbl.del_none h
  unfold State.laneWrite
  dsimp only
  split
  · rename_i h8
    rw [hd, ho h8, Nat.add_zero]
  · have h1 : s.laneRead c lane who = (s, false) := by
      unfold State.laneRead
      rw [h]
    rw [h1]
    simp only [Bool.false_eq_true, if_false, hd]

theorem State.lanesWrite_cut (c who : Nat) (f : Nat) (s : State) (off : Nat) (bytes : List Byte) (hf : bytes.length ≤ f)
    (h : s.lanesClean c off bytes.length) :
    s.lanesWrite c who (cutUnits 8 f off bytes) = ⟨{ s with mem := memPutBytes s.mem (sramByte c off) bytes }, .ok⟩ := by
  induction f generalizing s off bytes with
  | zero =>
    have : bytes = [] := List.length_eq_zero_iff.1 (by omega)
    subst this
    rfl
  | succ f ih =>
    cases bytes with
    | nil => rfl
    | cons b bs =>
      rw [cutUnits, State.lanesWrite]
      have hl : (List.take (8 - off % 8) (b :: bs)).length = min (8 - off % 8) (bs.length + 1) := by simp
      rw [State.laneWrite_clean s c (off / 8) (off % 8) _ who (by simpa using h 0 (by simp)) (by omega)]
      dsimp only
      have hk : sramByte c (8 * (off / 8)) + off % 8 = sramByte c off := by unfold sramByte; omega
      rw [hk]
      have hlen : ((b :: bs).drop (8 - off % 8)).length ≤ f := by
        simp only [List.length_drop, List.length_cons] at hf ⊢
        omega
      rw [ih _ _ _ hlen]
      · simp only [Status.orElse, if_true]
        have hap := memPutBytes_append ((b :: bs).take (8 - off % 8)) ((b :: bs).drop (8 - off % 8)) s.mem (sramByte c off)
        rw [List.take_append_drop] at hap
        rw [hap, hl]
        by_cases hc : 8 - off % 8 ≤ bs.length + 1
        · rw [Nat.min_eq_left hc]
          have : sramByte c off + (8 - off % 8) = sramByte c (off + (8 - off % 8)) := by unfold sramByte; omega
          rw [this]
        · have : (b :: bs).drop (8 - off % 8) = [] := List.drop_eq_nil_of_le (by simp; omega)
          rw [this]
          rfl
      · intro j hj
        rw [List.length_drop] at hj
        have := h (8 - off % 8 + j) (by omega)
        rwa [← Nat.add_assoc] at this

/-- A write of lanes that carry no mark puts the bytes and changes nothing else (R19). -/
theorem State.sramWrite_clean (s : State) (c off : Nat) (bytes : List Byte) (who : Nat) (h : s.lanesClean c off bytes.length) :
    s.sramWrite c off bytes who = ⟨{ s with mem := memPutBytes s.mem (sramByte c off) bytes }, .ok⟩ :=
  State.lanesWrite_cut c who _ s off bytes (Nat.le_refl _) h

/-! ## Numbers and bytes -/

theorem leNat_lt (l : List Byte) : leNat l < 256 ^ l.length := by
  induction l with
  | nil => simp [leNat]
  | cons b l ih =>
    have : b.toNat < 256 := b.isLt
    simp only [leNat, List.length_cons, Nat.pow_succ]
    omega

theorem leBytes_leNat (l : List Byte) : leBytes l.length (leNat l) = l := by
  induction l with
  | nil => rfl
  | cons b l ih =>
    have hb : b.toNat < 256 := b.isLt
    have h1 : (b.toNat + 256 * leNat l) / 256 = leNat l := by omega
    have h2 : BitVec.ofNat 8 (b.toNat + 256 * leNat l) = b := by
      apply BitVec.eq_of_toNat_eq
      rw [BitVec.toNat_ofNat]
      omega
    simp only [leNat, List.length_cons, leBytes, h1, h2, ih]

theorem length_leBytes (n v : Nat) : (leBytes n v).length = n := by
  induction n generalizing v with
  | zero => rfl
  | succ n ih => simp [leBytes, ih]

theorem length_memBytes (m : List Host.Cell) (k n : Nat) : (memBytes m k n).length = n := by simp [memBytes]

theorem beatBytes_beatBits (l : List Byte) (h : l.length = 32) : beatBytes (beatBits l) = l := by
  unfold beatBytes beatBits
  have h1 := leNat_lt l
  rw [h] at h1
  rw [BitVec.toNat_ofNat, Nat.mod_eq_of_lt (by simpa using h1)]
  have h2 := leBytes_leNat l
  rwa [h] at h2

/-! ## DRAM -/

theorem seenOf_zero : seenOf 0 = .clean := by
  have : maskSet 0 = [] := by simp [maskSet]
  unfold seenOf
  rw [this]

/-- A beat that carries no error is read as it is (R152). -/
theorem State.beatRead_clean (s : State) (c p byte src rq : Nat) (q : Bool) (h : Tbl.find s.marks (dramByte c p byte) = none) :
    s.beatRead c p byte src rq 0 0 q = ⟨s, .ok, memBytes s.mem (dramByte c p byte) 32⟩ := by
  have hz : Mark.mask none ^^^ (0 : BitVec 272) = 0 := BitVec.xor_zero
  unfold State.beatRead
  simp only [h, hz, seenOf_zero, reduceCtorEq, if_false]
  rw [beatBytes_beatBits _ (length_memBytes _ _ _)]

/-- The place of a beat of a slice. -/
def State.beatKey (s : State) (c o : Nat) : Nat := s.sliceKey c (32 * (o / 32))

theorem bitsOf_beat (o hi lo : Nat) (h : 5 ≤ lo) : bitsOf (32 * (o / 32)) hi lo = bitsOf o hi lo := by
  unfold bitsOf
  have : 2 ^ lo = 32 * 2 ^ (lo - 5) := by
    rw [show (32 : Nat) = 2 ^ 5 from rfl, ← Nat.pow_add]
    congr 1
    omega
  rw [this, Nat.mul_div_mul_left _ _ (by decide), ← Nat.div_div_eq_div_mul]

theorem sliceCol_beat (o : Nat) : sliceCol o = sliceCol (32 * (o / 32)) + o % 32 := by
  unfold sliceCol
  rw [bitsOf_beat _ _ _ (by decide)]
  unfold bitsOf
  omega

/-- The bytes of a beat of the slice lie one after another from the beat's place on. -/
theorem State.sliceKey_beat (s : State) (c o : Nat) : s.sliceKey c o = s.beatKey c o + o % 32 := by
  unfold State.beatKey State.sliceKey sliceLch sliceBank sliceRow
  rw [sliceCol_beat o]
  simp only [bitsOf_beat _ _ _ (show 5 ≤ 8 by decide), bitsOf_beat _ _ _ (show 5 ≤ 23 by decide),
    bitsOf_beat _ _ _ (show 5 ≤ 15 by decide), bitsOf_beat _ _ _ (show 5 ≤ 19 by decide)]
  unfold dramByte chanByte
  omega

theorem State.sliceBeatRead_clean (s : State) (c o rq : Nat) (h1 : s.lchDead c (sliceLch o) = false)
    (h2 : Tbl.find s.marks (s.sliceKey c o) = none) :
    s.sliceBeatRead c o rq 0 0 = ⟨s, .ok, memBytes s.mem (s.sliceKey c o) 32⟩ := by
  unfold State.sliceBeatRead
  simp only [h1, Bool.false_eq_true, if_false]
  exact State.beatRead_clean s c _ _ _ _ _ h2

theorem State.sliceBeatsRead_clean (s : State) (c rq : Nat) (os : List Nat)
    (h : ∀ o ∈ os, s.lchDead c (sliceLch o) = false ∧ Tbl.find s.marks (s.sliceKey c o) = none) :
    s.sliceBeatsRead c rq 0 0 os = ⟨s, .ok, os.flatMap (fun o => memBytes s.mem (s.sliceKey c o) 32)⟩ := by
  induction os with
  | nil => rfl
  | cons o os ih =>
    rw [State.sliceBeatsRead, State.sliceBeatRead_clean s c o rq (h o (List.mem_cons_self ..)).1 (h o (List.mem_cons_self ..)).2]
    dsimp only
    rw [ih (fun x hx => h x (List.mem_cons_of_mem _ hx))]
    simp [Status.orElse]

theorem getElem_flatMap_beats (f : Nat → List Byte) (hf : ∀ x, (f x).length = 32) (b n i : Nat) (hi : i < 32 * n) :
    ((List.range n).flatMap (fun j => f (b + j)))[i]? = (f (b + i / 32))[i % 32]? := by
  induction n generalizing i with
  | zero => omega
  | succ n ih =>
    have hlen : ((List.range n).flatMap (fun j => f (b + j))).length = 32 * n := by
      clear ih hi
      induction n with
      | zero => rfl
      | succ n ih => rw [List.range_succ, List.flatMap_append, List.length_append, ih]; simp [hf]; omega
    rw [List.range_succ, List.flatMap_append]
    by_cases h : i < 32 * n
    · rw [List.getElem?_append_left (by omega), ih i h]
    · rw [List.getElem?_append_right (by omega), hlen]
      have h1 : i / 32 = n := by omega
      have h2 : i - 32 * n = i % 32 := by omega
      simp [h1, h2]

/-- A read of a slice on beats that carry no error answers the bytes at the places of R15 and changes nothing (R154). -/
theorem State.sliceRead_clean (s : State) (c o n rq : Nat) (h : s.beatsClean c o n) :
    s.sliceRead c o n rq = ⟨s, .ok, (List.range n).map (fun j => memByte s.mem (s.sliceKey c (o + j)))⟩ := by
  unfold State.sliceRead
  dsimp only
  split
  · rename_i hn
    subst hn
    rfl
  rename_i hn
  rw [State.sliceBeatsRead_clean s c rq]
  · dsimp only
    congr 1
    apply List.ext_getElem?
    intro i
    rw [List.getElem?_take, List.getElem?_map]
    by_cases hi : i < n
    · rw [if_pos hi, List.getElem?_drop, List.flatMap_map,
        getElem_flatMap_beats (fun x => memBytes s.mem (s.sliceKey c (32 * x)) 32) (fun x => length_memBytes _ _ _) _ _ _ (by omega)]
      have h1 : o / 32 + (o % 32 + i) / 32 = (o + i) / 32 := by omega
      have h2 : (o % 32 + i) % 32 = (o + i) % 32 := by omega
      rw [h1, h2, List.getElem?_range hi, Option.map_some, State.sliceKey_beat s c (o + i)]
      unfold memBytes State.beatKey
      rw [List.getElem?_map, List.getElem?_range (Nat.mod_lt _ (by decide)), Option.map_some]
    · rw [if_neg hi, List.getElem?_eq_none (l := List.range n) (by simp; omega)]
      rfl
  · intro x hx
    obtain ⟨j, hj, rfl⟩ := List.mem_map.1 hx
    rw [List.mem_range] at hj
    have h0 : ∃ i, i < n ∧ (o + i) / 32 = o / 32 + j := ⟨32 * (o / 32 + j) - o, by omega, by omega⟩
    obtain ⟨i, hi, he⟩ := h0
    have := h i hi
    rw [he] at this
    refine ⟨?_, this.2.2⟩
    have h3 := this.1
    unfold sliceLch at h3 ⊢
    rw [← he, bitsOf_beat _ _ _ (by decide), bitsOf_beat _ _ _ (by decide)]
    exact h3

theorem bitsOf_stripe (o j hi lo : Nat) (h : 8 ≤ lo) (hj : o % 256 + j < 256) : bitsOf (o + j) hi lo = bitsOf o hi lo := by
  unfold bitsOf
  have : 2 ^ lo = 256 * 2 ^ (lo - 8) := by
    rw [show (256 : Nat) = 2 ^ 8 from rfl, ← Nat.pow_add]
    congr 1
    omega
  rw [this, ← Nat.div_div_eq_div_mul, ← Nat.div_div_eq_div_mul]
  have : (o + j) / 256 = o / 256 := by omega
  rw [this]

/-- The bytes of a 256-byte stripe lie one after another in their channel (R15). -/
theorem State.sliceKey_stripe (s : State) (c o j : Nat) (hj : o % 256 + j < 256) : s.sliceKey c (o + j) = s.sliceKey c o + j := by
  unfold State.sliceKey sliceLch sliceBank sliceRow sliceCol
  simp only [bitsOf_stripe _ _ _ _ (show 8 ≤ 8 by decide) hj, bitsOf_stripe _ _ _ _ (show 8 ≤ 23 by decide) hj,
    bitsOf_stripe _ _ _ _ (show 8 ≤ 15 by decide) hj, bitsOf_stripe _ _ _ _ (show 8 ≤ 19 by decide) hj,
    bitsOf_stripe _ _ _ _ (show 8 ≤ 12 by decide) hj]
  have : bitsOf (o + j) 7 0 = bitsOf o 7 0 + j := by
    unfold bitsOf
    omega
  unfold dramByte chanByte
  rw [this]
  omega

theorem getD_mergeBytes (old new : List Byte) (o i : Nat) (ho : o + new.length ≤ old.length) (hi : i < old.length) :
    (mergeBytes old o new).getD i 0 = if o ≤ i ∧ i < o + new.length then new.getD (i - o) 0 else old.getD i 0 := by
  unfold mergeBytes
  simp only [List.getD_eq_getElem?_getD, List.append_assoc]
  by_cases h1 : i < o
  · rw [List.getElem?_append_left (by simp; omega), List.getElem?_take, if_pos h1, if_neg (by omega)]
  · rw [List.getElem?_append_right (by simp; omega)]
    simp only [List.length_take]
    rw [Nat.min_eq_left (by omega)]
    by_cases h2 : i < o + new.length
    · rw [List.getElem?_append_left (by omega), if_pos (by omega)]
    · rw [List.getElem?_append_right (by omega), if_neg (by omega), List.getElem?_drop]
      congr 3
      omega

/-- Part of a beat that carries no error written: its bytes change and no other (R155). -/
theorem State.beatWrite_clean (s : State) (c p byte o rq : Nat) (bytes : List Byte)
    (h : Tbl.find s.marks (dramByte c p byte) = none) (ho : o + bytes.length ≤ 32) :
    ∃ m, s.beatWrite c p byte o bytes rq = ⟨{ s with mem := m }, .ok⟩ ∧
      ∀ k, memByte m k = memByte (memPutBytes s.mem (dramByte c p byte + o) bytes) k := by
  have hd : Tbl.del s.marks (dramByte c p byte) = s.marks := Tbl.del_none h
  unfold State.beatWrite
  split
  · rename_i h32
    refine ⟨_, by rw [State.beatPut, hd], fun k => ?_⟩
    have : o = 0 := by omega
    rw [this, Nat.add_zero]
  · dsimp only
    rw [State.beatRead_clean s c p byte _ _ _ h]
    refine ⟨_, by rw [if_pos rfl, State.beatPut, hd], fun k => ?_⟩
    have hl : (mergeBytes (memBytes s.mem (dramByte c p byte) 32) o bytes).length = 32 := by
      unfold mergeBytes
      simp only [List.length_append, List.length_take, List.length_drop, length_memBytes]
      omega
    rw [memByte_memPutBytes, memByte_memPutBytes, hl]
    by_cases h1 : dramByte c p byte ≤ k ∧ k < dramByte c p byte + 32
    · rw [if_pos h1, getD_mergeBytes _ _ _ _ (by rw [length_memBytes]; omega) (by rw [length_memBytes]; omega)]
      by_cases h2 : dramByte c p byte + o ≤ k ∧ k < dramByte c p byte + o + bytes.length
      · rw [if_pos (by omega), if_pos h2]
        congr 1
        omega
      · rw [if_neg (by omega), if_neg h2]
        unfold memBytes
        rw [List.getD_eq_getElem?_getD, List.getElem?_map, List.getElem?_range (by omega)]
        simp only [Option.map_some, Option.getD_some]
        congr 1
        omega
    · rw [if_neg h1, if_neg (by omega)]

theorem State.sliceBeatsWrite_cut (c rq : Nat) (f : Nat) (s : State) (o : Nat) (bytes : List Byte) (hf : bytes.length ≤ f)
    (h : s.beatsClean c o bytes.length) (hs : o % 256 + bytes.length ≤ 256) :
    ∃ m, s.sliceBeatsWrite c rq (cutUnits 32 f o bytes) = ⟨{ s with mem := m }, .ok⟩ ∧
      ∀ k, memByte m k = memByte (memPutBytes s.mem (s.sliceKey c o) bytes) k := by
  induction f generalizing s o bytes with
  | zero =>
    have : bytes = [] := List.length_eq_zero_iff.1 (by omega)
    subst this
    exact ⟨s.mem, rfl, fun _ => rfl⟩
  | succ f ih =>
    cases bytes with
    | nil => exact ⟨s.mem, rfl, fun _ => rfl⟩
    | cons b bs =>
      rw [cutUnits, State.sliceBeatsWrite]
      generalize hb : b :: bs = l at *
      have hne : 0 < l.length := by rw [← hb]; simp
      obtain ⟨h1, h2, h3⟩ := h 0 hne
      rw [Nat.add_zero] at h1 h2 h3
      have hl : sliceLch (32 * (o / 32)) = sliceLch o := by
        unfold sliceLch
        rw [bitsOf_beat _ _ _ (by decide), bitsOf_beat _ _ _ (by decide)]
      obtain ⟨m1, e1, k1⟩ := State.beatWrite_clean s c (s.remap c (sliceLch (32 * (o / 32))))
        (chanByte (sliceBank (32 * (o / 32))) (sliceRow (32 * (o / 32))) (sliceCol (32 * (o / 32)))) (o % 32) rq
        (l.take (32 - o % 32)) h3 (by simp; omega)
      have hw : s.sliceBeatWrite c (o / 32) (o % 32) (l.take (32 - o % 32)) rq = ⟨{ s with mem := m1 }, .ok⟩ := by
        unfold State.sliceBeatWrite
        simp only [hl, h1, h2, Bool.false_eq_true, if_false]
        rw [hl] at e1
        rw [e1]
      rw [hw]
      dsimp only
      have hk : ∀ k, memByte m1 k = memByte (memPutBytes s.mem (s.sliceKey c o) (l.take (32 - o % 32))) k := by
        intro k
        rw [k1 k, State.sliceKey_beat s c o]
        rfl
      have hdl : (l.drop (32 - o % 32)).length = l.length - (32 - o % 32) := List.length_drop
      by_cases hc : 32 - o % 32 < l.length
      · obtain ⟨m2, e2, k2⟩ := ih { s with mem := m1 } (o + (32 - o % 32)) (l.drop (32 - o % 32)) (by omega)
          (by
            intro j hj
            have := h (32 - o % 32 + j) (by omega)
            rw [← Nat.add_assoc] at this
            exact this) (by omega)
        rw [e2]
        refine ⟨m2, by simp [Status.orElse], fun k => ?_⟩
        have hap := memPutBytes_append (l.take (32 - o % 32)) (l.drop (32 - o % 32)) s.mem (s.sliceKey c o)
        rw [List.take_append_drop] at hap
        have hkey : State.sliceKey { s with mem := m1 } c (o + (32 - o % 32)) = s.sliceKey c o + (32 - o % 32) :=
          State.sliceKey_stripe s c o _ (by omega)
        have htl : (l.take (32 - o % 32)).length = 32 - o % 32 := by simp; omega
        rw [k2 k, hap, hkey, htl, memByte_memPutBytes, memByte_memPutBytes, hk k]
      · have hnil : l.drop (32 - o % 32) = [] := List.drop_eq_nil_of_le (by omega)
        have htk : l.take (32 - o % 32) = l := List.take_of_length_le (by omega)
        rw [hnil]
        have hcut : cutUnits 32 f (o + (32 - o % 32)) [] = [] := by cases f <;> rfl
        rw [hcut]
        refine ⟨m1, by simp [State.sliceBeatsWrite, Status.orElse], fun k => ?_⟩
        rw [hk k, htk]

/-- A write within one stripe of a slice, on beats that carry no error: the bytes at the places of R15 change and no other
(R155). -/
theorem State.sliceWrite_clean (s : State) (c o rq : Nat) (bytes : List Byte) (h : s.beatsClean c o bytes.length)
    (hs : o % 256 + bytes.length ≤ 256) :
    ∃ m, s.sliceWrite c o bytes rq = ⟨{ s with mem := m }, .ok⟩ ∧
      ∀ k, memByte m k = memByte (memPutBytes s.mem (s.sliceKey c o) bytes) k :=
  State.sliceBeatsWrite_cut c rq _ s o bytes (Nat.le_refl _) h hs

end Sys2Proof.Machine
end

