-- ==== Sys2Proof/Laws/Requests.lean ====
section
/-! SUPPORT. What a request that reads leaves alone: memory, the queues of every core and their ring pointers. -/

namespace Sys2Proof.Machine

/-- From `s` to `t` no byte of memory, no queue of a core and no ring pointer has changed. -/
def ReadOnly (s t : State) : Prop :=
  t.mem = s.mem ∧ (∀ c q, t.queue c q = s.queue c q) ∧ ∀ c q, t.reg .QPTR c q = s.reg .QPTR c q

theorem ReadOnly.refl (s : State) : ReadOnly s s := ⟨rfl, fun _ _ => rfl, fun _ _ => rfl⟩

theorem ReadOnly.trans {s t u : State} (h : ReadOnly s t) (k : ReadOnly t u) : ReadOnly s u :=
  ⟨k.1.trans h.1, fun c q => (k.2.1 c q).trans (h.2.1 c q), fun c q => (k.2.2 c q).trans (h.2.2 c q)⟩

theorem ReadOnly.of_regs {s t : State} (hm : t.mem = s.mem) (hc : t.cores = s.cores)
    (hr : ∀ c q, t.reg .QPTR c q = s.reg .QPTR c q) : ReadOnly s t :=
  ⟨hm, fun c q => by simp only [State.queue, State.core, hc], hr⟩

theorem ReadOnly.setReg (s : State) (r : Reg) (u i : Nat) (w : Word) (h : r ≠ .QPTR) : ReadOnly s (s.setReg r u i w) :=
  .of_regs rfl rfl (fun _ _ => State.reg_setReg_key _ _ _ _ _ _ _ _ (regKey_reg h))

theorem ReadOnly.setFld (s : State) (f : Fld) (u i v : Nat) (h : f.reg ≠ .QPTR) : ReadOnly s (s.setFld f u i v) :=
  .setReg s f.reg u i _ h

theorem ReadOnly.addFld (s : State) (f : Fld) (u i n : Nat) (h : f.reg ≠ .QPTR) : ReadOnly s (s.addFld f u i n) :=
  .setFld s f u i _ h

theorem ReadOnly.raise (s : State) (e : Ev) (site unit : Nat) (l : List (Nat × Nat)) (o : RaiseOpts) :
    ReadOnly s (s.raise e site unit l o) :=
  .of_regs rfl rfl (fun c q => State.reg_raise s e site unit l o c q (by decide))

theorem ReadOnly.draw (s : State) (n : Nat) : ReadOnly s (s.draw n) := .of_regs rfl rfl (fun _ _ => rfl)

theorem ReadOnly.setMark (s : State) (k : Nat) (m : Option Mark) : ReadOnly s (s.setMark k m) := .of_regs rfl rfl (fun _ _ => rfl)

/-- A core's state replaced by one with the same queues. -/
theorem ReadOnly.setCore (s : State) (c : Nat) (x : Core) (h : x.queues = (s.core c).queues) : ReadOnly s (s.setCore c x) := by
  refine ⟨rfl, fun d q => ?_, fun _ _ => rfl⟩
  unfold State.queue
  by_cases hd : c = d
  · subst hd; rw [State.core_setCore_same, h]
  · rw [State.core_setCore_other _ _ hd]

theorem ReadOnly.countPast256 (s : State) (f : Fld) (u i n : Nat) (e : Ev) (site unit : Nat) (l : List (Nat × Nat))
    (o : RaiseOpts) (h : f.reg ≠ .QPTR) : ReadOnly s (s.countPast256 f u i n e site unit l o) := by
  unfold State.countPast256
  dsimp only
  split
  · exact (ReadOnly.addFld s f u i n h).trans (.raise _ _ _ _ _ _)
  · exact .addFld s f u i n h

/-! ## Memory -/

theorem ReadOnly.lanesRead (s : State) (c who : Nat) (ls : List Nat) : ReadOnly s (s.lanesRead c who ls).1 := by
  induction ls generalizing s with
  | nil => exact .refl s
  | cons l ls ih =>
    refine ReadOnly.trans ?_ (ih _)
    unfold State.laneRead
    split
    · exact .refl s
    · exact (ReadOnly.setCore s c _ (by rfl)).trans (.countPast256 _ _ _ _ _ _ _ _ _ _ (by decide))
    · exact (((ReadOnly.setMark s _ _).trans (.addFld _ _ _ _ _ (by decide))).trans (.setFld _ _ _ _ _ (by decide))).trans
        (.raise _ _ _ _ _ _)

theorem ReadOnly.sramRead (s : State) (c off n who : Nat) : ReadOnly s (s.sramRead c off n who).st := by
  unfold State.sramRead
  dsimp only
  split
  · exact .refl s
  · exact .lanesRead s c who _

theorem ReadOnly.dramCe (s : State) (c p b g : Nat) (q : Bool) : ReadOnly s (s.dramCe c p b g q) := by
  unfold State.dramCe
  dsimp only
  exact (((ReadOnly.of_regs (by rfl) (by rfl) (fun _ _ => by rfl)).trans (.setFld _ _ _ _ _ (by decide))).trans
    (.addFld _ _ _ _ _ (by decide))).trans (.countPast256 _ _ _ _ _ _ _ _ _ _ (by decide))

theorem ReadOnly.dramUe (s : State) (c p b src : Nat) : ReadOnly s (s.dramUe c p b src) :=
  (((ReadOnly.setMark s _ _).trans (.addFld _ _ _ _ _ (by decide))).trans (.addFld _ _ _ _ _ (by decide))).trans
    (.raise _ _ _ _ _ _)

theorem ReadOnly.beatRead (s : State) (c p b src rq : Nat) (e1 e2 : BitVec 272) (q : Bool) :
    ReadOnly s (s.beatRead c p b src rq e1 e2 q).st := by
  unfold State.beatRead
  dsimp only
  split
  · exact (ReadOnly.addFld s _ _ _ _ (by decide)).trans (.raise _ _ _ _ _ _)
  · split
    · split
      · exact .dramUe s _ _ _ _
      · exact .dramCe s _ _ _ _ _
      · exact .dramCe s _ _ _ _ _
    · exact .refl s
    · exact .refl s
    · exact .dramCe s _ _ _ _ _

theorem ReadOnly.sliceBeatsRead (s : State) (c rq : Nat) (e1 e2 : BitVec 272) (os : List Nat) :
    ReadOnly s (s.sliceBeatsRead c rq e1 e2 os).st := by
  induction os generalizing s e1 e2 with
  | nil => exact .refl s
  | cons o os ih =>
    refine ReadOnly.trans ?_ (ih _ _ _)
    unfold State.sliceBeatRead
    dsimp only
    split
    · exact .refl s
    · exact .beatRead s _ _ _ _ _ _ _ _

theorem ReadOnly.memRead (s : State) (a : Agent) (t : Target) (n : Nat) : ReadOnly s (s.memRead a t n).st := by
  unfold State.memRead
  split
  · exact .sliceBeatsRead s _ _ _ _ _
  · exact .sramRead s _ _ _ _
  · exact .refl s

/-! ## Control and status windows -/

theorem ReadOnly.rcClear (s : State) (r : Reg) (u i : Nat) : ReadOnly s (s.rcClear r u i) := by
  unfold State.rcClear
  dsimp only
  split
  · exact .refl s
  · rename_i h
    refine .setReg s r u i _ (fun hr => h ?_)
    subst hr
    rfl

theorem ReadOnly.csrRead (s : State) (w : Window) (u off n : Nat) : ReadOnly s (s.csrRead w u off n).1 := by
  unfold State.csrRead
  split
  · unfold State.msgPop
    split
    · exact .setCore s _ _ (by rfl)
    · exact .refl s
  · unfold State.fulIrqRead
    dsimp only
    split
    · exact .of_regs rfl rfl (fun _ _ => rfl)
    · exact .refl s
  · rename_i r ru i b _ _ _
    dsimp only
    have h1 : ReadOnly s (if r = .MIL_WDOG then s.draw else s) := by
      split
      · exact .draw s _
      · exact .refl s
    generalize (if r = .MIL_WDOG then s.draw else s) = u at h1 ⊢
    have h2 : ReadOnly s (if n = 8 then u.rcClear r ru i else u) := by
      split
      · exact h1.trans (.rcClear _ _ _ _)
      · exact h1
    split
    · exact h2.trans (.setCore _ _ _ (by rfl))
    · exact h2
  · exact .refl s

theorem ReadOnly.targetRead (s : State) (a : Agent) (t : Target) (n : Nat) : ReadOnly s (s.targetRead a t n).st := by
  unfold State.targetRead
  split
  · exact .memRead s _ _ _
  · exact .memRead s _ _ _
  · split
    · exact .csrRead s _ _ _ _
    · exact .refl s

theorem ReadOnly.refuse (s : State) (a : Agent) (da : Nat) (c : Check) : ReadOnly s (s.refuse a da c) := by
  unfold State.refuse
  split
  · exact .raise s _ _ _ _ _
  · refine ReadOnly.trans ?_ (.raise _ _ _ _ _ _)
    unfold State.fwRefuse
    split
    · exact ((((ReadOnly.addFld s _ _ _ _ (by decide)).trans (.setFld _ _ _ _ _ (by decide))).trans
        (.setFld _ _ _ _ _ (by decide))).trans (.setFld _ _ _ _ _ (by decide))).trans (.setReg _ _ _ _ _ (by decide))
    · exact .refl s
  · exact .addFld s _ _ _ _ (by decide)
  · exact .refl s

/-- A read request, refused or performed. -/
theorem ReadOnly.busRead (s : State) (a : Agent) (da n : Nat) : ReadOnly s (s.busRead a da n).st := by
  unfold State.busRead
  split
  · exact .targetRead s _ _ _
  · exact .refuse s _ _ _

/-! ## Moves -/

theorem ReadOnly.moveRead (s : State) (a : Agent) (rs : List (Nat × Nat)) : ReadOnly s (s.moveRead a rs).st := by
  induction rs generalizing s with
  | nil => exact .refl s
  | cons r rs ih =>
    unfold State.moveRead
    dsimp only
    split
    · exact .busRead s _ _ _
    · exact (ReadOnly.busRead s _ _ _).trans (ih _)

/-- The reading side of a move (R108). -/
theorem ReadOnly.moveRows (s : State) (a : Agent) (rows : List MoveRow) : ReadOnly s (s.moveRows a rows).st := by
  induction rows generalizing s with
  | nil => exact .refl s
  | cons r rs ih =>
    unfold State.moveRows
    dsimp only
    split
    · exact .moveRead s _ _
    · exact (ReadOnly.moveRead s _ _).trans (ih _)

/-! ## Ranges of one request (R14) -/

theorem splitReq_one (k da n : Nat) (h : da.testBit 39 = false) (h0 : n ≠ 0) (hn : da % 256 + n ≤ 256) :
    splitReq (k + 2) da n = [(da, n)] := by
  have hr : min n (reqRoom da) = n := by simp only [reqRoom, h]; simp; omega
  rw [splitReq, if_neg h0, hr, Nat.sub_self, splitReq, if_pos rfl]

theorem State.putAt_one (s : State) (a : Agent) (da : Nat) (b : List Byte) (h : da.testBit 39 = false) (h0 : b ≠ [])
    (hn : da % 256 + b.length ≤ 256) : s.putAt a da b = ⟨(s.busWrite a da b).st, (s.busWrite a da b).status⟩ := by
  have hl : b.length ≠ 0 := by simpa using h0
  unfold State.putAt
  rw [splitReq_one _ _ _ h hl hn, State.putEach, List.take_length]
  by_cases hs : (s.busWrite a da b).status = .ok
  · simp [State.putEach, hs]
  · simp [hs]

theorem State.moveRead_one (s : State) (a : Agent) (da n : Nat) :
    s.moveRead a [(da, n)] = ⟨(s.busRead a da n).st, (s.busRead a da n).status,
      if (s.busRead a da n).status = .ok then (s.busRead a da n).data else []⟩ := by
  by_cases h : (s.busRead a da n).status = .ok
  · simp [State.moveRead, h]
  · simp [State.moveRead, h]

end Sys2Proof.Machine
end

