-- ==== Sys2Proof/Laws/Units.lean ====
section
/-! SUPPORT. The accessors of the units that are no register: what was put is read back, another unit's entry, every register and
all memory stay. -/

namespace Sys2Proof.Machine

@[simp] theorem State.ful_setFul_same (s : State) (c n : Nat) (x : Fuller) : (s.setFul c n x).ful c n = x := by
  simp [State.ful, State.setFul, Tbl.at]

theorem State.ful_setFul_other (s : State) {c n c' n' : Nat} (x : Fuller) (h : fulKey c n ≠ fulKey c' n') :
    (s.setFul c n x).ful c' n' = s.ful c' n' := by
  simp [State.ful, State.setFul, Tbl.at, Tbl.find_set_other _ _ h]

@[simp] theorem State.reg_setFul (s : State) (c n : Nat) (x : Fuller) (r : Reg) (u i : Nat) : (s.setFul c n x).reg r u i = s.reg r u i := rfl
@[simp] theorem State.fld_setFul (s : State) (c n : Nat) (x : Fuller) (a : Fld) (u i : Nat) : (s.setFul c n x).fld a u i = s.fld a u i := rfl
@[simp] theorem State.mem_setFul (s : State) (c n : Nat) (x : Fuller) : (s.setFul c n x).mem = s.mem := rfl

@[simp] theorem State.blPort_setBlPort_same (s : State) (p : Nat) (x : BlPort) : (s.setBlPort p x).blPort p = x := by
  simp [State.blPort, State.setBlPort, Tbl.at]

theorem State.blPort_setBlPort_other (s : State) {p p' : Nat} (x : BlPort) (h : p ≠ p') :
    (s.setBlPort p x).blPort p' = s.blPort p' := by
  simp [State.blPort, State.setBlPort, Tbl.at, Tbl.find_set_other _ _ h]

@[simp] theorem State.reg_setBlPort (s : State) (p : Nat) (x : BlPort) (r : Reg) (u i : Nat) : (s.setBlPort p x).reg r u i = s.reg r u i := rfl
@[simp] theorem State.fld_setBlPort (s : State) (p : Nat) (x : BlPort) (a : Fld) (u i : Nat) : (s.setBlPort p x).fld a u i = s.fld a u i := rfl
@[simp] theorem State.mem_setBlPort (s : State) (p : Nat) (x : BlPort) : (s.setBlPort p x).mem = s.mem := rfl

@[simp] theorem State.meshEnd_setMeshEnd_same (s : State) (e d : Nat) (x : MeshEnd) : (s.setMeshEnd e d x).meshEnd e d = x := by
  simp [State.meshEnd, State.setMeshEnd, Tbl.at]

theorem State.meshEnd_setMeshEnd_other (s : State) {e d e' d' : Nat} (x : MeshEnd) (h : 16 * e + d ≠ 16 * e' + d') :
    (s.setMeshEnd e d x).meshEnd e' d' = s.meshEnd e' d' := by
  simp [State.meshEnd, State.setMeshEnd, Tbl.at, Tbl.find_set_other _ _ h]

@[simp] theorem State.reg_setMeshEnd (s : State) (e d : Nat) (x : MeshEnd) (r : Reg) (u i : Nat) : (s.setMeshEnd e d x).reg r u i = s.reg r u i := rfl
@[simp] theorem State.fld_setMeshEnd (s : State) (e d : Nat) (x : MeshEnd) (a : Fld) (u i : Nat) : (s.setMeshEnd e d x).fld a u i = s.fld a u i := rfl
@[simp] theorem State.mem_setMeshEnd (s : State) (e d : Nat) (x : MeshEnd) : (s.setMeshEnd e d x).mem = s.mem := rfl

@[simp] theorem State.evtBuf_setEvtBuf_same (s : State) (f : Nat) (x : FnBuf) : (s.setEvtBuf f x).evtBuf f = x := by
  simp [State.evtBuf, State.setEvtBuf, Tbl.at]

theorem State.evtBuf_setEvtBuf_other (s : State) {f f' : Nat} (x : FnBuf) (h : f ≠ f') :
    (s.setEvtBuf f x).evtBuf f' = s.evtBuf f' := by
  simp [State.evtBuf, State.setEvtBuf, Tbl.at, Tbl.find_set_other _ _ h]

@[simp] theorem State.reg_setEvtBuf (s : State) (f : Nat) (x : FnBuf) (r : Reg) (u i : Nat) : (s.setEvtBuf f x).reg r u i = s.reg r u i := rfl
@[simp] theorem State.fld_setEvtBuf (s : State) (f : Nat) (x : FnBuf) (a : Fld) (u i : Nat) : (s.setEvtBuf f x).fld a u i = s.fld a u i := rfl
@[simp] theorem State.mem_setEvtBuf (s : State) (f : Nat) (x : FnBuf) : (s.setEvtBuf f x).mem = s.mem := rfl

@[simp] theorem State.group_setGroup_same (s : State) (g : Nat) (x : Group) : (s.setGroup g x).group g = x := by
  simp [State.group, State.setGroup, Tbl.at]

theorem State.group_setGroup_other (s : State) {g g' : Nat} (x : Group) (h : g ≠ g') :
    (s.setGroup g x).group g' = s.group g' := by
  simp [State.group, State.setGroup, Tbl.at, Tbl.find_set_other _ _ h]

@[simp] theorem State.reg_setGroup (s : State) (g : Nat) (x : Group) (r : Reg) (u i : Nat) : (s.setGroup g x).reg r u i = s.reg r u i := rfl
@[simp] theorem State.fld_setGroup (s : State) (g : Nat) (x : Group) (a : Fld) (u i : Nat) : (s.setGroup g x).fld a u i = s.fld a u i := rfl
@[simp] theorem State.mem_setGroup (s : State) (g : Nat) (x : Group) : (s.setGroup g x).mem = s.mem := rfl

@[simp] theorem State.cpw_setCpw_same (s : State) (c : Nat) (x : CorePwr) : (s.setCpw c x).cpw c = x := by
  simp [State.cpw, State.setCpw, Tbl.at]

theorem State.cpw_setCpw_other (s : State) {c c' : Nat} (x : CorePwr) (h : c ≠ c') :
    (s.setCpw c x).cpw c' = s.cpw c' := by
  simp [State.cpw, State.setCpw, Tbl.at, Tbl.find_set_other _ _ h]

@[simp] theorem State.reg_setCpw (s : State) (c : Nat) (x : CorePwr) (r : Reg) (u i : Nat) : (s.setCpw c x).reg r u i = s.reg r u i := rfl
@[simp] theorem State.fld_setCpw (s : State) (c : Nat) (x : CorePwr) (a : Fld) (u i : Nat) : (s.setCpw c x).fld a u i = s.fld a u i := rfl
@[simp] theorem State.mem_setCpw (s : State) (c : Nat) (x : CorePwr) : (s.setCpw c x).mem = s.mem := rfl

@[simp] theorem State.ide_setIde_same (s : State) (f : Nat) (x : Ide) : (s.setIde f x).ide f = x := by
  simp [State.ide, State.setIde, Tbl.at]

theorem State.ide_setIde_other (s : State) {f f' : Nat} (x : Ide) (h : f ≠ f') :
    (s.setIde f x).ide f' = s.ide f' := by
  simp [State.ide, State.setIde, Tbl.at, Tbl.find_set_other _ _ h]

@[simp] theorem State.reg_setIde (s : State) (f : Nat) (x : Ide) (r : Reg) (u i : Nat) : (s.setIde f x).reg r u i = s.reg r u i := rfl
@[simp] theorem State.fld_setIde (s : State) (f : Nat) (x : Ide) (a : Fld) (u i : Nat) : (s.setIde f x).fld a u i = s.fld a u i := rfl
@[simp] theorem State.mem_setIde (s : State) (f : Nat) (x : Ide) : (s.setIde f x).mem = s.mem := rfl

@[simp] theorem State.slot_setSlot_same (s : State) (k : Nat) (x : Slot) : (s.setSlot k x).slot k = x := by
  simp [State.slot, State.setSlot, Tbl.at]

theorem State.slot_setSlot_other (s : State) {k k' : Nat} (x : Slot) (h : k ≠ k') :
    (s.setSlot k x).slot k' = s.slot k' := by
  simp [State.slot, State.setSlot, Tbl.at, Tbl.find_set_other _ _ h]

@[simp] theorem State.reg_setSlot (s : State) (k : Nat) (x : Slot) (r : Reg) (u i : Nat) : (s.setSlot k x).reg r u i = s.reg r u i := rfl
@[simp] theorem State.fld_setSlot (s : State) (k : Nat) (x : Slot) (a : Fld) (u i : Nat) : (s.setSlot k x).fld a u i = s.fld a u i := rfl
@[simp] theorem State.mem_setSlot (s : State) (k : Nat) (x : Slot) : (s.setSlot k x).mem = s.mem := rfl

@[simp] theorem State.dom_setDom_same (s : State) (d : Domain) (x : Dom) : (s.setDom d x).dom d = x := by
  simp [State.dom, State.setDom, Tbl.at]

theorem State.dom_setDom_other (s : State) {d d' : Domain} (x : Dom) (h : domKey d ≠ domKey d') :
    (s.setDom d x).dom d' = s.dom d' := by
  simp [State.dom, State.setDom, Tbl.at, Tbl.find_set_other _ _ h]

@[simp] theorem State.reg_setDom (s : State) (d : Domain) (x : Dom) (r : Reg) (u i : Nat) : (s.setDom d x).reg r u i = s.reg r u i := rfl
@[simp] theorem State.fld_setDom (s : State) (d : Domain) (x : Dom) (a : Fld) (u i : Nat) : (s.setDom d x).fld a u i = s.fld a u i := rfl
@[simp] theorem State.mem_setDom (s : State) (d : Domain) (x : Dom) : (s.setDom d x).mem = s.mem := rfl

@[simp] theorem State.spdm_setSpdm_same (s : State) (t : Transport) (x : Spdm) : (s.setSpdm t x).spdm t = x := by
  simp [State.spdm, State.setSpdm, Tbl.at]

theorem State.spdm_setSpdm_other (s : State) {t t' : Transport} (x : Spdm) (h : transportKey t ≠ transportKey t') :
    (s.setSpdm t x).spdm t' = s.spdm t' := by
  simp [State.spdm, State.setSpdm, Tbl.at, Tbl.find_set_other _ _ h]

@[simp] theorem State.reg_setSpdm (s : State) (t : Transport) (x : Spdm) (r : Reg) (u i : Nat) : (s.setSpdm t x).reg r u i = s.reg r u i := rfl
@[simp] theorem State.fld_setSpdm (s : State) (t : Transport) (x : Spdm) (a : Fld) (u i : Nat) : (s.setSpdm t x).fld a u i = s.fld a u i := rfl
@[simp] theorem State.mem_setSpdm (s : State) (t : Transport) (x : Spdm) : (s.setSpdm t x).mem = s.mem := rfl

@[simp] theorem State.session_setSession_same (s : State) (m : Nat) (z : Session) : (s.setSession m z).session m = some z := by
  simp [State.session, State.setSession]

theorem State.session_setSession_other (s : State) {m m' : Nat} (z : Session) (h : m ≠ m') :
    (s.setSession m z).session m' = s.session m' := by
  simp [State.session, State.setSession, Tbl.find_set_other _ _ h]

end Sys2Proof.Machine
end

