-- ==== Sys2Proof/WellFormed.lean ====
section
/-! DEFINITION. Well-formed commands: every name an operand carries lies in the range the spec gives it (R2, R3, R13, R207,
R264), and every flit, packet and access has a size its rule allows. `exec` is total on the others, too; nothing is claimed of
them. -/

namespace Sys2Proof

/-- An agent that exists (R24, R267). -/
def Agent.wf : Agent → Bool
  | .core c => decide (c < 288)
  | .milliner s => decide (s < 72)
  | .hatband => true
  | .pcie f => decide (f < 32)
  | .brimlink d p => decide (d < 4) && decide (p < 8)

/-- A register address of 48 bits, an offset in BAR0 or BAR2, or a setting of a function (R13, R206, R209). -/
def RegAddr.wf : RegAddr → Bool
  | .da a => decide (a < 2 ^ 48)
  | .bar0 f o => decide (f < 32) && decide (o < 2 ^ 18)
  | .bar2 f o => decide (f < 32) && decide (o < 2 ^ 16)
  | .cfg f _ => decide (f < 32)

/-- A transport that exists (R399, R405). -/
def Transport.wf : Transport → Bool
  | .doe f => decide (f < 32)
  | .fleet p => decide (p < 4096)
  | _ => true

/-- A sensor of R353. -/
def Sensor.wf : Sensor → Bool
  | .monitor s i => decide (s < 72) && decide (i < 16)
  | .diode s => decide (s < 72)
  | .dram s l => decide (s < 72) && decide (l < 2)
  | .brimMonitor d i => decide (d < 4) && decide (i < 8)
  | .brimDiode d => decide (d < 4)

/-- A regulated domain of R333. -/
def Domain.wf (d : Domain) : Bool := decide (d.site < 76) && decide (d.code < 8) && decide (d.core < 4)

/-- A mesh packet of R267: fields of their widths, a destination of R264 (127: multicast), data of the access's length or none. -/
def MeshPkt.wf (k : MeshPkt) : Bool :=
  decide (k.da < 2 ^ 40) && decide (k.status < 256) && decide (1 ≤ k.len) && decide (k.len ≤ 256) && decide (k.op < 16) &&
  decide (k.unit < 16) && decide (k.tag < 2 ^ 16) && (decide (k.dst < 76) || k.dst == 127) && decide (k.src < 76) && decide (k.spt < 8) &&
  decide (k.mbz < 2 ^ 30) && (k.data.isEmpty || k.data.length == k.len)

/-- A Brimlink packet of R241: fields of their widths. -/
def BlPkt.wf (k : BlPkt) : Bool :=
  decide (k.dst < 4096) && decide (k.src < 4096) && decide (k.dpt < 8) && decide (k.spt < 8) && decide (k.typ < 16) &&
  decide (k.nflit ≤ 128) && decide (k.ttl < 16) && decide (k.epoch < 2) && decide (k.pn < 2 ^ 48) && decide (k.tag < 2 ^ 128)

/-- A management request: an access of 4 or 8 bytes in a site's window, or a fuller of a core. -/
def MgmtReq.wf : MgmtReq → Bool
  | .read o n => decide (o < 2 ^ 24) && [4, 8].contains n
  | .write o n _ => decide (o < 2 ^ 24) && [4, 8].contains n
  | .gatherReduce c f _ => decide (c < 4) && decide (f < 34)
  | .clearFuller c f => decide (c < 4) && decide (f < 34)

/-- An instruction word that is not a compressed one. -/
def MilInstr.wf : MilInstr → Bool
  | .word w => w.toNat % 4 == 3
  | _ => true

/-- A unit entry of R303. -/
def BadUnit.wf (u : BadUnit) : Bool := decide (u.kind < 256) && decide (u.cause < 256) && decide (u.site < 76)

/-- What Fulling finds in a bank: a bank that exists, its rows and beat columns. -/
def BankTest.wf (b : BankTest) : Bool :=
  decide (b.site < 72) && decide (b.core < 4) && decide (b.chan < 17) && decide (b.bank < 16) &&
  b.beats.all (fun x => decide (x.1 < 2048) && decide (x.2 < 64)) && b.rowsAgain.all (fun r => decide (r < 2048)) &&
  b.colsAgain.all (fun c => decide (c < 64))

/-- A disturbed accumulator of a chain or of a matrix-vector block (R63). -/
def Upset.wf (u : Upset) : Bool := decide (u.row < 2 ^ 17) && decide (u.col < 2 ^ 17)

/-- A well-formed command. -/
def Instr.wf : Instr → Bool
  | .registerWrite by_ tgt size _ => by_.wf && tgt.wf && [4, 8].contains size
  | .rateWindowEnd die => decide (die < 76)
  | .read by_ tag da len => by_.wf && decide (tag < 2 ^ 16) && decide (da < 2 ^ 48) && decide (1 ≤ len) && decide (len ≤ 256)
  | .write by_ tag da bs => by_.wf && decide (tag < 2 ^ 16) && decide (da < 2 ^ 48) && decide (1 ≤ bs.length) && decide (bs.length ≤ 256)
  | .atomic by_ tag da _ size _ => by_.wf && decide (tag < 2 ^ 16) && decide (da < 2 ^ 48) && [4, 8].contains size
  | .response by_ tag => by_.wf && decide (tag < 2 ^ 16)
  | .mcast site _ _ typ _ => decide (site < 72) && decide (typ < 2 ^ 16)
  | .mgmt site req => decide (site < 72) && req.wf
  | .meshForward router pkt => decide (router < 76) && pkt.wf
  | .sramCeWriteback core => decide (core < 288)
  | .sramClearDone core => decide (core < 288)
  | .tailWrite core q value => decide (core < 288) && decide (q < 4) && decide (value < 2 ^ 16)
  | .resume core q _ => decide (core < 288) && decide (q < 4)
  | .skip core q _ => decide (core < 288) && decide (q < 4)
  | .ringFetchDone core q => decide (core < 288) && decide (q < 4)
  | .commandComplete core q index => decide (core < 288) && decide (q < 4) && decide (index < 2 ^ 16)
  | .waitLimitExpiry core q => decide (core < 288) && decide (q < 4)
  | .nop core q => decide (core < 288) && decide (q < 4)
  | .halt core q => decide (core < 288) && decide (q < 4)
  | .msg core q => decide (core < 288) && decide (q < 4)
  | .wreg core q => decide (core < 288) && decide (q < 4)
  | .semWait core q => decide (core < 288) && decide (q < 4)
  | .semSig core q => decide (core < 288) && decide (q < 4)
  | .semSet core q => decide (core < 288) && decide (q < 4)
  | .rsig core q => decide (core < 288) && decide (q < 4)
  | .fence core q => decide (core < 288) && decide (q < 4)
  | .bfence core q => decide (core < 288) && decide (q < 4)
  | .heavy core q => decide (core < 288) && decide (q < 4)
  | .light core q => decide (core < 288) && decide (q < 4)
  | .reservationStart core => decide (core < 288)
  | .reservationEnd core => decide (core < 288)
  | .forecastEnd core => decide (core < 288)
  | .slotAdv core q => decide (core < 288) && decide (q < 4)
  | .seedGo core slot => decide (core < 288) && decide (slot < 64)
  | .guardUpdateDone core slot => decide (core < 288) && decide (slot < 64)
  | .crc core q => decide (core < 288) && decide (q < 4)
  | .cmp core q => decide (core < 288) && decide (q < 4)
  | .copy core => decide (core < 288)
  | .fill core => decide (core < 288)
  | .xcopy core => decide (core < 288)
  | .fgo core => decide (core < 288)
  | .mma core => decide (core < 288)
  | .drain core => decide (core < 288)
  | .discard core => decide (core < 288)
  | .opx core => decide (core < 288)
  | .ewop core => decide (core < 288)
  | .segDown core => decide (core < 288)
  | .segUp core => decide (core < 288)
  | .mvm core => decide (core < 288)
  | .chainStreamEnd core array bank => decide (core < 288) && decide (array < 4) && decide (bank < 4)
  | .drainCompare core array bank upsets => decide (core < 288) && decide (array < 4) && decide (bank < 4) && upsets.all (·.wf)
  | .drainCommit core array bank => decide (core < 288) && decide (array < 4) && decide (bank < 4)
  | .arrayInplaceCompare core array bank upsets => decide (core < 288) && decide (array < 5) && decide (bank < 4) && upsets.all (·.wf)
  | .mvBlockCheck core upsets => decide (core < 288) && upsets.all (·.wf)
  | .mvInplaceCompare core _ upsets => decide (core < 288) && upsets.all (·.wf)
  | .add core => decide (core < 288)
  | .mul core => decide (core < 288)
  | .axpby core => decide (core < 288)
  | .max core => decide (core < 288)
  | .exp core => decide (core < 288)
  | .recip core => decide (core < 288)
  | .rsqrt core => decide (core < 288)
  | .rowsum core => decide (core < 288)
  | .rowmax core => decide (core < 288)
  | .rmsnorm core => decide (core < 288)
  | .rope core => decide (core < 288)
  | .gate core => decide (core < 288)
  | .cvt core => decide (core < 288)
  | .kvAppend core => decide (core < 288)
  | .attWalk core => decide (core < 288)
  | .attMerge core => decide (core < 288)
  | .quantCtrlWrite core _ => decide (core < 288)
  | .msgFifoPop by_ core => by_.wf && decide (core < 288)
  | .dramRead core off len _ _ _ => decide (core < 288) && decide (off < 2 ^ 30) && decide (1 ≤ len) && decide (len ≤ 256)
  | .dramWrite core off bs _ => decide (core < 288) && decide (off < 2 ^ 30) && decide (1 ≤ bs.length) && decide (bs.length ≤ 256)
  | .ceWriteback core pch => decide (core < 288) && decide (pch < 17)
  | .refresh core pch => decide (core < 288) && decide (pch < 17)
  | .scrubRow core pch => decide (core < 288) && decide (pch < 17)
  | .retrainDue core pch => decide (core < 288) && decide (pch < 17)
  | .retrainEnd core pch _ => decide (core < 288) && decide (pch < 17)
  | .channelDeadDetect core pch => decide (core < 288) && decide (pch < 17)
  | .rowSoft by_ site _ => by_.wf && decide (site < 72)
  | .colSoft by_ site _ => by_.wf && decide (site < 72)
  | .rowFuse by_ site _ => by_.wf && decide (site < 72)
  | .colFuse by_ site _ => by_.wf && decide (site < 72)
  | .query by_ site _ => by_.wf && decide (site < 72)
  | .clearSoft by_ site _ => by_.wf && decide (site < 72)
  | .swap by_ site _ => by_.wf && decide (site < 72)
  | .return_ by_ site _ => by_.wf && decide (site < 72)
  | .repairCmdDone site _ => decide (site < 72)
  | .swapCopyEnd core => decide (core < 288)
  | .swapRemap core => decide (core < 288)
  | .sparePoisonFillEnd core => decide (core < 288)
  | .dramInject by_ site _ => by_.wf && decide (site < 72)
  | .fullerMemWrite by_ core n off size _ => by_.wf && decide (core < 288) && decide (n < 34) && decide (off < 0x6000) && [4, 8].contains size
  | .loadDone core n => decide (core < 288) && decide (n < 34)
  | .fullerStop core n => decide (core < 288) && decide (n < 34)
  | .fullerBaseInstr core n => decide (core < 288) && decide (n < 34)
  | .flkBrd core n => decide (core < 288) && decide (n < 34)
  | .flkBwr core n => decide (core < 288) && decide (n < 34)
  | .flkWld core n => decide (core < 288) && decide (n < 34)
  | .flkWst core n => decide (core < 288) && decide (n < 34)
  | .flkWop core n => decide (core < 288) && decide (n < 34)
  | .flkCrc core n => decide (core < 288) && decide (n < 34)
  | .flkSxf core n => decide (core < 288) && decide (n < 34)
  | .flkMap core n => decide (core < 288) && decide (n < 34)
  | .flkSysFence core n => decide (core < 288) && decide (n < 34)
  | .flkSysDone core n => decide (core < 288) && decide (n < 34)
  | .flkSysPet core n => decide (core < 288) && decide (n < 34)
  | .flkSysIrq core n => decide (core < 288) && decide (n < 34)
  | .flkSysMbox core n => decide (core < 288) && decide (n < 34)
  | .flkSysPtst core n => decide (core < 288) && decide (n < 34)
  | .grGather core n => decide (core < 288) && decide (n < 34)
  | .grReduce core n => decide (core < 288) && decide (n < 34)
  | .grFill core n => decide (core < 288) && decide (n < 34)
  | .grCheck core n => decide (core < 288) && decide (n < 34)
  | .fullerWdogExpiry core n => decide (core < 288) && decide (n < 34)
  | .fullerFenceTimeout core n => decide (core < 288) && decide (n < 34)
  | .milLoad site rd pa size _ _ _ => decide (site < 72) && decide (rd < 32) && decide (pa < 2 ^ 56) && [1, 2, 4, 8].contains size
  | .milStore site pa size _ _ => decide (site < 72) && decide (pa < 2 ^ 56) && [1, 2, 4, 8].contains size
  | .milAmo site rd _ pa size _ _ => decide (site < 72) && decide (rd < 32) && decide (pa < 2 ^ 56) && [4, 8].contains size
  | .milFetch site pa _ => decide (site < 72) && decide (pa < 2 ^ 56)
  | .cboClean site pa => decide (site < 72) && decide (pa.pa < 2 ^ 56)
  | .cboFlush site pa => decide (site < 72) && decide (pa.pa < 2 ^ 56)
  | .cboInval site pa => decide (site < 72) && decide (pa.pa < 2 ^ 56)
  | .cboZero site pa => decide (site < 72) && decide (pa.pa < 2 ^ 56)
  | .milFence site _ => decide (site < 72)
  | .fenceI site => decide (site < 72)
  | .seteipnum by_ site file identity => by_.wf && decide (site < 72) && decide (file < 5) && decide (identity < 2 ^ 32)
  | .fulIrqPop by_ site => by_.wf && decide (site < 72)
  | .wdogPet by_ site val => by_.wf && decide (site < 72) && decide (val < 2 ^ 32)
  | .millinerWdogWarning site => decide (site < 72)
  | .millinerWdogExpiry site => decide (site < 72)
  | .sqTailDoorbell fn q val => decide (fn < 32) && decide (q < 64) && decide (val < 2 ^ 32)
  | .cqHeadDoorbell fn q val => decide (fn < 32) && decide (q < 64) && decide (val < 2 ^ 32)
  | .ringHeadDoorbell fn ring val => decide (fn < 32) && decide (ring < 64) && decide (val < 2 ^ 32)
  | .sqFetchDone fn sq _ => decide (fn < 32) && decide (sq < 64)
  | .createCq fn sq => decide (fn < 32) && decide (sq < 64)
  | .deleteCq fn sq => decide (fn < 32) && decide (sq < 64)
  | .createSq fn sq => decide (fn < 32) && decide (sq < 64)
  | .deleteSq fn sq => decide (fn < 32) && decide (sq < 64)
  | .createRing fn sq => decide (fn < 32) && decide (sq < 64)
  | .deleteRing fn sq => decide (fn < 32) && decide (sq < 64)
  | .identify fn sq => decide (fn < 32) && decide (sq < 64)
  | .getLog fn sq => decide (fn < 32) && decide (sq < 64)
  | .setCap fn sq => decide (fn < 32) && decide (sq < 64)
  | .partServe fn sq => decide (fn < 32) && decide (sq < 64)
  | .partDrain fn sq => decide (fn < 32) && decide (sq < 64)
  | .partFence fn sq => decide (fn < 32) && decide (sq < 64)
  | .partReset fn sq => decide (fn < 32) && decide (sq < 64)
  | .partReblock fn sq _ => decide (fn < 32) && decide (sq < 64)
  | .modDrain fn sq => decide (fn < 32) && decide (sq < 64)
  | .load fn sq _ => decide (fn < 32) && decide (sq < 64)
  | .readOut fn sq => decide (fn < 32) && decide (sq < 64)
  | .adapterLoad fn sq _ => decide (fn < 32) && decide (sq < 64)
  | .adapterLoadDone pt _ => decide (pt < 8)
  | .submit fn sq _ => decide (fn < 32) && decide (sq < 64)
  | .cancel fn sq => decide (fn < 32) && decide (sq < 64)
  | .kvSend fn sq => decide (fn < 32) && decide (sq < 64)
  | .kvRecv fn sq _ => decide (fn < 32) && decide (sq < 64)
  | .refill fn sq => decide (fn < 32) && decide (sq < 64)
  | .tokenRingWrite pt _ kind _ => decide (pt < 8) && decide (kind < 3)
  | .coalUsExpiry fn _ _ => decide (fn < 32)
  | .pullRead fn ring size => decide (fn < 32) && decide (ring < 64) && [4, 8].contains size
  | .apertureAccess fn _ off len _ => decide (fn < 32) && decide (off < 2 ^ 28) && decide (1 ≤ len) && decide (len ≤ 256)
  | .fnCtlWrite fn _ => decide (fn < 32)
  | .functionLevelReset fn => decide (fn < 32)
  | .flrComplete fn => decide (fn < 32)
  | .perstAssert => true
  | .perstDeassert _ => true
  | .hotReset => true
  | .linkDown _ => true
  | .linkUp _ _ => true
  | .blPartnerDetect port => decide (port < 16)
  | .blPortQualified port _ => decide (port < 16)
  | .blFlitRx port flit => decide (port < 16) && flit.payload.length == 120
  | .blRetrainEnd port _ => decide (port < 16)
  | .blLaneFail port lane => decide (port < 16) && decide (lane < 17)
  | .blPortResume port => decide (port < 16)
  | .blPortFence by_ port => by_.wf && decide (port < 16)
  | .blPortUnfence by_ port => by_.wf && decide (port < 16)
  | .blForward port pkt => decide (port < 16) && pkt.wf
  | .blCreditWaitExpiry port vc => decide (port < 16) && decide (vc < 4)
  | .sendDoorbell by_ die pt _ => by_.wf && decide (die < 4) && decide (pt < 8)
  | .recvDoorbell by_ die pt _ => by_.wf && decide (die < 4) && decide (pt < 8)
  | .collDoorbell by_ die pt _ => by_.wf && decide (die < 4) && decide (pt < 8)
  | .open_ pkt => pkt.wf
  | .accept pkt => pkt.wf
  | .reject pkt => pkt.wf
  | .data pkt => pkt.wf
  | .close pkt => pkt.wf
  | .missing pkt => pkt.wf
  | .done pkt => pkt.wf
  | .abort pkt => pkt.wf
  | .refillReq pkt => pkt.wf
  | .coll pkt => pkt.wf
  | .blMgmt pkt => pkt.wf
  | .openRetryTimer _ => true
  | .openTimeout _ => true
  | .xferInactivityTimeout _ => true
  | .collDeadline group => decide (group < 64)
  | .collLostTimeout group child => decide (group < 64) && decide (child < 4096)
  | .fleetSessionSetup peer _ _ => decide (peer < 4096)
  | .fleetSessionTimeout peer => decide (peer < 4096)
  | .epochGraceEnd peer => decide (peer < 4096)
  | .meshFlitRx endpoint link flit => decide (endpoint < 76) && decide (link < 9) && flit.data.length == 128
  | .meshLinkResume endpoint link _ _ _ peerLevel => decide (endpoint < 76) && decide (link < 9) && decide (peerLevel < 3)
  | .meshLinkDown endpoint link => decide (endpoint < 76) && decide (link < 9)
  | .meshTableSwitch _ => true
  | .meshLinkFence by_ endpoint link => by_.wf && decide (endpoint < 76) && decide (link < 9)
  | .pllLossOfLock endpoint => decide (endpoint < 76)
  | .refclkMissing die => decide (die < 4)
  | .aclkWake core => decide (core < 288)
  | .crossingOverrun site core link => decide (site < 76) && core.all (· < 4) && link.all (· < 9)
  | .inputRise40v => true
  | .modEnRise => true
  | .modEnFall => true
  | .firstStageOpen => true
  | .inputBelow30v => true
  | .inputSag _ => true
  | .cardingDone _ _ _ _ bad => bad.all (·.wf)
  | .battingFlowTimeout _ => true
  | .battingDone _ bad => bad.all (·.wf)
  | .retentionHoldEnd => true
  | .fullingDone _ bad => bad.units.all (·.wf) && bad.banks.all (·.wf)
  | .blockingDone silent => silent.all (· < 76)
  | .sizingDone _ _ bad => bad.all (·.wf)
  | .finishingDone => true
  | .linkTrainTimeout => true
  | .restart by_ _ => by_.wf
  | .restartWaitEnd => true
  | .siteBringupDone pt _ _ => decide (pt < 8)
  | .fenceCore by_ site cmask => by_.wf && decide (site < 72) && decide (cmask < 16)
  | .resetCore by_ site cmask => by_.wf && decide (site < 72) && decide (cmask < 16)
  | .unfenceCore by_ site cmask => by_.wf && decide (site < 72) && decide (cmask < 16)
  | .testCore by_ site cmask => by_.wf && decide (site < 72) && decide (cmask < 16)
  | .fenceTile by_ site => by_.wf && decide (site < 72)
  | .resetTile by_ site => by_.wf && decide (site < 72)
  | .unfenceTile by_ site => by_.wf && decide (site < 72)
  | .testTile by_ site => by_.wf && decide (site < 72)
  | .testDone site passed _ => decide (site < 72) && decide (passed < 16)
  | .resetDrainEnd site => decide (site < 72)
  | .brickPoll _ => true
  | .phaseLoss dom phase _ _ => dom.wf && decide (phase < 4)
  | .overvoltageDetect dom _ => dom.wf
  | .isolationCheck dom _ => dom.wf
  | .vsenseCheck core _ _ => decide (core < 288)
  | .corePwrOn by_ site core => by_.wf && decide (site < 72) && decide (core < 4)
  | .corePwrRetain by_ site core => by_.wf && decide (site < 72) && decide (core < 4)
  | .corePwrOff by_ site core => by_.wf && decide (site < 72) && decide (core < 4)
  | .admissionHeadroom dom => dom.wf
  | .admissionTimeout dom => dom.wf
  | .rampDone dom => dom.wf
  | .voltageMoveDone core => decide (core < 288)
  | .droopOnset core _ _ _ => decide (core < 288)
  | .estimatorInterval core => decide (core < 288)
  | .gainCalibration core _ _ _ => decide (core < 288)
  | .etaRefit _ _ _ => true
  | .capEvaluation _ _ => true
  | .rungUp => true
  | .tempSample sensor _ => sensor.wf
  | .tripEnableOpen => true
  | .sensorMissing sensor => sensor.wf
  | .flowUpdate => true
  | .flowPulseTimeout => true
  | .slopeEvaluation => true
  | .coolantTripCheck => true
  | .thermistorSample _ _ => true
  | .limitUpdate => true
  | .cycleSample => true
  | .cycleFlashWrite => true
  | .eventDelivery => true
  | .hatbandWdogExpiry _ => true
  | .hatbandMirror => true
  | .getVersion t => t.wf
  | .getCapabilities t => t.wf
  | .negotiateAlgorithms t _ => t.wf
  | .getDigests t => t.wf
  | .getCertificate t slot => t.wf && decide (slot < 8)
  | .challenge t slot _ => t.wf && decide (slot < 8)
  | .getMeasurements t index => t.wf && decide (index < 256)
  | .measurementReady pt => decide (pt < 8)
  | .keyExchange t _ => t.wf
  | .finish t _ => t.wf
  | .keyUpdate t => t.wf
  | .heartbeat t => t.wf
  | .endSession t => t.wf
  | .vendorDefinedRequest t _ => t.wf
  | .e2eOn fn => decide (fn < 32)
  | .keyProg fn keySet _ => decide (fn < 32) && decide (keySet < 2)
  | .kSetGo fn keySet => decide (fn < 32) && decide (keySet < 2)
  | .kSetStop fn keySet => decide (fn < 32) && decide (keySet < 2)
  | .queryDeviceIdentifiers t => t.wf
  | .getFirmwareParameters t => t.wf
  | .requestUpdate t => t.wf
  | .passComponentTable t _ => t.wf
  | .updateComponent t _ _ => t.wf
  | .requestFirmwareData t _ => t.wf
  | .activateFirmware t _ => t.wf
  | .getStatus t => t.wf
  | .cancelUpdateComponent t => t.wf
  | .cancelUpdate t => t.wf
  | .confirm by_ => by_.wf
  | .revert by_ => by_.wf
  | .ownerEnroll t slot _ => t.wf && decide (slot < 4)
  | .revocationOrder _ => true
  | .rollCall => true
  | .distHashDone site => decide (site < 72)
  | .fullerClaimTimeout core n => decide (core < 288) && decide (n < 34)
  | .distCommit => true
  | .registerReadClear by_ tgt size => by_.wf && tgt.wf && [4, 8].contains size
  | .millinerInstr site op => decide (site < 72) && op.wf
  | .vfEnable numVfs _ => decide (numVfs < 2 ^ 16)
  | .msixUnmask fn vector => decide (fn < 32) && decide (vector < 2048)
  | .managementCapWrite _ => true
  | .brimDieFence die => decide (die < 4)
  | .flowPulse => true
  | .firstStageLatchClear => true

end Sys2Proof
end

