-- ==== Sys2Proof/Tests/Slice0.lean ====
section
/-! SUPPORT. The tests of the model: a state for the hypotheses of each statement, ill-formed commands, and the worked examples of
the spec. Expected values are those the spec states, or its tables give. -/

namespace Sys2Proof.Tests

open Machine

set_option Elab.async false

/-! ## Small states -/

/-- The module in service with one tile, logical 0 on site 0, of partition 1. -/
def up : State :=
  ((({ State.reset with
      hb := { stage := 7 },
      image := { tiles := [⟨0, 0, 15, false, true⟩], parts := [⟨1, 0, 0, 1, 3, 0, 3000⟩] },
      parts := [(1, {})], fns := [(0, {}), (1, {})] } : State).setFld (FW_MAP.V 0) 0 0 1).setFld (FW_MAP.PT 0) 0 0 1)

/-- The first bytes of core 0's SRAM and slice, as device addresses. -/
def daSram : Nat := 2 ^ 38
def daDram : Nat := 0
def daCsr : Nat := 2 ^ 39

/-- A command word. -/
def cw (cls op body : Nat) : BitVec 128 := BitVec.ofNat 128 (cls + 16 * op + body)

/-- `up` with a command at the head of a running queue of core 0. -/
def at0 (q : Nat) (w : BitVec 128) : State :=
  (((up.setFld QCFG.EN 0 q 1).setFld QSTAT.STATE 0 q qRunning).setFld QPTR.TAIL 0 q 1).setQueue 0 q
    { fetched := [⟨0, w, none⟩], fetchAt := 1 }

def bytes0 (n : Nat) : List Byte := List.replicate n 0

/-- A check sequence goes on with a state and a value that `p` holds of. -/
def went {α : Type} (x : Step α) (p : State → α → Bool) : Bool :=
  match x with
  | .go u a => p u a
  | .stop _ _ => false

theorem went_go {α : Type} {x : Step α} {p : State → α → Bool} (h : went x p = true) : ∃ u a, x = .go u a ∧ p u a = true := by
  cases x with
  | go u a => exact ⟨u, a, rfl, h⟩
  | stop u a => cases h

/-- The head command of a queue of core 0. -/
def head0 (w : BitVec 128) : Fetched := ⟨0, w, none⟩

/-- A command at the head of its queue that waits for nothing issues. -/
theorem issues_head {s : State} {c q cls op : Nat} {f : Fetched} (h : s.headOf c q cls op = some f ∧ cmdWaitCnt f.word = 0) :
    s.issues c q cls op f (s.advanceHead c q) := ⟨s, h.1, by simp [State.waitTest, h.2], rfl⟩

/-! ## Witnesses: address space -/

theorem wit_SliceMapping : (2 ^ 30 - 1 < 2 ^ 30) ∧ (256 + 1) / 256 = 256 / 256 ∧ (15 : Nat) ≠ 0 := by decide

theorem wit_RequestChecks_refused :
    up.checkReq .read (.core 0) (2 ^ 40) 4 ≠ .pass ∧ up.checkReq .write (.core 0) (daDram + 255) 2 ≠ .pass ∧
    up.checkReq .atomic (.core 0) (daSram + 2) 4 ≠ .pass := by decide +kernel

theorem wit_RequestChecks_targets :
    up.decodeDa (2 ^ 40) = .unmapped ∧ shapeOk 0 .read (up.decodeDa daDram) daDram 256 = true ∧
    up.denied (.core 0) (up.decodeDa daDram) = none ∧ (up.denied (.pcie 0) (up.decodeDa daDram)).isSome = true ∧
    up.decodeDa (2 ^ 30 - 1) = .dram 0 (2 ^ 30 - 1) ∧ up.decodeDa daSram = .sram 0 0 ∧ up.decodeDa daCsr = .coreCsr 0 0 ∧
    up.decodeDa (daCsr + 2 ^ 23) = .milCsr 0 0 ∧ up.decodeDa (daCsr + 2 ^ 23 + 2 ^ 22) = .tileCsr 0 0 ∧
    up.decodeDa (3 * 2 ^ 38) = .brimCsr 0 0 := by decide +kernel

/-- Site 0 out of reach of brim die 0, whose Brimlink agent acts for partition 1, and for partition 2. -/
def lost0 : State := up.setFld ROUTE.UNREACH 72 0 1

theorem wit_RequestChecks_unreached :
    let a := Agent.brimlink 0 1
    lost0.denied a (lost0.decodeDa daSram) = none ∧ lost0.unreached a (lost0.decodeDa daSram) = true ∧
    lost0.denied (.brimlink 0 2) (lost0.decodeDa daSram) = some (0, false) ∧ up.unreached a (up.decodeDa daSram) = false ∧
    shapeOk lost0.hb.active .read (lost0.decodeDa daSram) daSram 8 = true ∧
    shapeOk up.hb.active .atomic (up.decodeDa daSram) (daSram + 2) 4 = false := by decide +kernel

/-- A read of channel 0 of core 0. -/
def readCh0 : Held := .read (.core 0) 0 daDram 32

theorem wit_CleanRequests_hold : up.queueFull readCh0 = false ∧
    ({ up with held := List.replicate 16 readCh0 } : State).queueFull readCh0 = true ∧
    (let s := up.setFld SRAM_STAT.CLEARING 0 0 1
     s.checkReq .read (.core 0) daSram 8 = .pass ∧ s.reqHeld (s.decodeDa daSram) 8 = true) := by decide +kernel

theorem wit_CleanRequests_sram : up.decodeDa daSram = .sram 0 0 ∧ up.fld SRAM_STAT.CLEARING 0 0 = 0 ∧
    up.checkReq .read (.core 0) daSram 256 = .pass ∧ up.checkReq .write (.core 0) daSram (bytes0 256).length = .pass ∧
    up.checkReq .atomic (.core 0) daSram 8 = .pass := by decide +kernel

theorem wit_CleanRequests_lanes : up.lanesClean 0 0 256 := by unfold State.lanesClean; decide +kernel

theorem wit_CleanRequests_dram : up.decodeDa daDram = .dram 0 0 ∧ up.checkReq .read (.core 0) daDram 256 = .pass ∧
    up.sliceHeld 0 0 256 = false ∧ up.checkReq .write (.core 0) daDram (bytes0 256).length = .pass := by decide +kernel

theorem wit_CleanRequests_beats : up.beatsClean 0 0 256 := by unfold State.beatsClean; decide +kernel

def lane0 (m : Mark) : State := up.setMark (sramByte 0 0) (some m)

theorem wit_SramReadErrors_lanes : (lane0 .laneCorrectable).laneMark 0 0 = some .laneCorrectable ∧
    (lane0 .laneBad).laneMark 0 0 = some .laneBad ∧ (lane0 .poison).laneMark 0 0 = some .poison ∧
    Tbl.sorted (lane0 .poison).marks = true := by decide +kernel

theorem wit_SramReadErrors_writeback :
    ∃ s : State, Tbl.sorted s.marks = true ∧ (s.core 0).sramWb = [0] ∧ s.laneMark 0 0 = some .laneCorrectable :=
  ⟨(lane0 .laneCorrectable).setCore 0 { sramWb := [0] }, by decide +kernel⟩

theorem wit_SramReadErrors_clear : (up.setFld SRAM_STAT.CLEARING 0 0 1).fld SRAM_STAT.CLEARING 0 0 = 1 ∧ up.held = [] ∧
    up.stalled = [] ∧ ({ up with held := [.read (.core 0) 0 daSram 8] } : State).held = [.read (.core 0) 0 daSram 8] := by decide +kernel

theorem wit_RegisterAccess : ∃ off r i, up.decodeDa (daCsr + off) = .coreCsr 0 off ∧ i < 2 ^ 16 ∧
    regAt .core 0 off = some (r, 0, i, 0) ∧ up.checkReq .write (.core 0) (daCsr + off) 8 = .pass ∧
    up.checkReq .read (.core 0) (daCsr + off) 8 = .pass ∧ r ≠ .MSG_FIFO ∧
    r ∉ [Reg.QUANT_CTRL, .ARRAY_CFG, .GUARD_CFG, .GUARD_CTRL, .QCFG, .QPTR, .QCTL, .FUL_CFG, .FUL_CTL] :=
  ⟨0x4100, .SRAM_STAT, 0, by decide +kernel⟩

theorem wit_RegisterAccess_any : up.daHeld .write (.core 0) daCsr 8 = false ∧ up.daHeld .read (.core 0) (2 ^ 40) 8 = false ∧
    up.barsOn 0 = true := by decide +kernel

/-! ## Witnesses: matrix commands -/

/-- A chain of one row whose cells are zero. -/
def chain0 : Chain := { cmds := [], rows := 1, gang := 0, compat := false, int := false, f := 0x3F800000, tol := 0, cells := [] }

/-- A bank of array 0 of core 0 in a state, with a chain. -/
def bank0 (s : State) (st : Nat) (x : Option Chain) : State :=
  (s.setFld (ARRAY_BANK.STATE 0 0) 0 0 st).setCore 0 { s.core 0 with chains := (x.map (fun y => (0, y))).toList }

theorem wit_BankTable_drain : let w := cw 5 1 0; cmdGang w = 0 ∧ cmdArray w = 0 ∧ cmdBank w = 0 ∧ cmdSigCnt w = 0 ∧
    (at0 0 w).fld ARRAY_CFG.GANG 0 0 = 0 ∧ cmdBits w 90 89 ≠ 3 ∧ cmdBits w 127 105 % 64 = 0 ∧
    (∀ st, st < 4 → (bank0 (at0 0 w) st none).headOf 0 0 5 1 = some (head0 w) ∧ cmdWaitCnt w = 0) ∧
    (bank0 (at0 0 w) bankEmpty none).bank 0 0 0 = bankEmpty ∧ (bank0 (at0 0 w) bankEmpty none).chain 0 0 0 = none ∧
    (bank0 (at0 0 w) bankDraining (some chain0)).bank 0 0 0 = bankDraining ∧
    (bank0 (at0 0 w) bankAborted none).bank 0 0 0 = bankAborted := by decide +kernel

theorem wit_BankTable_accum : let w := cw 5 1 0; let s := bank0 (at0 0 w) bankAccum (some chain0); s.bank 0 0 0 = bankAccum ∧
    s.chain 0 0 0 = some chain0 ∧ chain0.gang = 0 ∧ (drainOf (head0 w)).fits chain0 = true := by decide +kernel

theorem wit_BankTable_discard : let w := cw 5 2 0; cmdGang w = 0 ∧ (at0 0 w).headOf 0 0 5 2 = some (head0 w) ∧ cmdWaitCnt w = 0 ∧
    (bank0 (at0 0 w) bankAccum (some chain0)).headOf 0 0 5 2 = some (head0 w) ∧
    (at0 0 w).bank 0 0 0 ≠ bankDraining ∧ (at0 0 w).chain 0 0 0 = none ∧
    (bank0 (at0 0 w) bankAccum (some chain0)).chain 0 0 0 = some chain0 := by decide +kernel

theorem wit_ChainWork_issue : ([0, 1, 2, 3, 4, 5, 6].all (fun op => let w := cw 5 op 0
    ((at0 0 w).headOf 0 0 5 op == some (head0 w)) && decide (cmdWaitCnt w = 0) && (at0 0 w).slotReady 0 w 256)) = true ∧
    (at0 0 (cw 5 0 0)).issues 0 0 5 0 (head0 (cw 5 0 0)) ((at0 0 (cw 5 0 0)).advanceHead 0 0) :=
  ⟨by decide +kernel, issues_head (by decide +kernel)⟩

theorem wit_ChainWork_mma : let w := cw 5 0 0; ∃ u a, ((at0 0 w).advanceHead 0 0).mmaParse 0 (head0 w) = .go u a ∧
    (decide (a.1.use = none) && !cmdAcc w && (u.bankRefuses 0 (head0 w) false (some a.1.rows)).isNone &&
      (((u.setGang 0 w).setCompat 0 false (gangArrays 0 0)).readMma 0 a.1 []).fail.isNone) = true :=
  went_go (by decide +kernel)

theorem wit_ChainWork_mma_acc : let w := cw 5 0 (2 ^ 95); let s := bank0 (at0 0 w) bankAccum (some chain0);
    ∃ u a, (s.advanceHead 0 0).mmaParse 0 (head0 w) = .go u a ∧
    (decide (a.1.use = none) && cmdAcc w && (u.bankRefuses 0 (head0 w) true (some a.1.rows)).isNone &&
      (u.chain 0 0 0 == some chain0) && (u.readMma 0 a.1 []).fail.isNone) = true :=
  went_go (by decide +kernel)

theorem wit_ChainWork_opx : let w := cw 5 3 0; ∃ u o, ((at0 0 w).advanceHead 0 0).opxParse 0 (head0 w) = .go u o ∧
    (!cmdAcc w && (u.bankRefuses 0 (head0 w) false (some 64)).isNone && ((at0 0 w).headOf 0 0 5 3 == some (head0 w)) &&
      (((u.setGang 0 w).setCompat 0 true (gangArrays 0 0)).readOpx 0 o).fail.isNone) = true :=
  went_go (by decide +kernel)

/-- A chain whose DRAIN has issued. -/
def drained : Chain := { chain0 with drain := some ⟨0, 0, 512, 0⟩ }

theorem wit_ChainWork_compare : (bank0 up bankDraining (some drained)).chainAt 0 0 0 = some (0, drained) ∧
    drained.drain.isSome = true ∧ drained.breach = false ∧ drained.passed = [] ∧ drained.mism = 0 ∧
    (bank0 up bankDraining (some drained)).badLines drained 0 [] = [] ∧
    (bank0 up bankDraining (some drained)).badLines drained 0 [⟨0, 127, 0x40000000, none⟩] ≠ [] := by decide +kernel

theorem wit_ChainWork_breach : let x : Chain := { drained with breach := true }
    (bank0 up bankDraining (some x)).chainAt 0 0 0 = some (0, x) ∧ x.drain.isSome = true ∧ x.breach = true := by decide +kernel

theorem wit_ChainWork_commit : let x : Chain := { drained with passed := [0] }; let s := bank0 up bankDraining (some x)
    s.chainAt 0 0 0 = some (0, x) ∧ x.drain = some ⟨0, 0, 512, 0⟩ ∧ (∀ i, i ∈ gangBanks x.gang 0 → i ∈ x.passed) ∧
    x.mixed = false ∧ x.cols * outSize 0 ≤ 512 ∧ (DrainCmd.fits ⟨0, 0, 512, 0⟩ x) = true ∧
    (s.queue 0 0).inflight = [] := by decide +kernel

theorem wit_ChainWork_commit_lanes : (bank0 up bankDraining (some drained)).lanesClean 0 0 512 := by
  unfold State.lanesClean; decide +kernel

/-- One adapter of rank 1 in the slot list at offset 0, taken by row 0. -/
def adapter0 (s : State) : State := { s with mem := [(sramByte 0 8, 1)] }

theorem wit_ChainWork_segUp : let w := cw 5 6 (2 ^ 95 + 2 ^ 111);
    let s := bank0 (adapter0 (at0 0 w)) bankAccum (some chain0);
    ∃ u a, (s.advanceHead 0 0).segUpParse 0 (head0 w) = .go u a ∧
    ((s.headOf 0 0 5 6 == some (head0 w)) && cmdAcc w && (u.bankRefuses 0 (head0 w) true (some a.1.rows)).isNone &&
      (u.chain 0 0 0 == some chain0) &&
      (match u.segUpRun 0 0 a.1 ⟨chain0.cells, chain0.parts, chain0.lanes⟩ with
       | .inl x => went x (fun _ _ => true)
       | .inr _ => false)) = true :=
  went_go (by decide +kernel)

theorem wit_MatrixPaths_ewop : let w := cw 5 4 0; ∃ u o, ((at0 0 w).advanceHead 0 0).ewParse 0 (head0 w) = .go u o ∧
    (((at0 0 w).headOf 0 0 5 4 == some (head0 w)) &&
      (let ra := readOperand (sramReader 0 rqArray) ((u.setGang 0 w).setCompat 0 false (cmdArrays w)) o.a o.af 1 o.n
       ra.fail.isNone && (readOperand (sramReader 0 rqArray) ra.st o.b o.bf 1 o.n).fail.isNone)) = true :=
  went_go (by decide +kernel)

theorem localRead_unmarked {s : State} (h : s.marks = []) (c off n who : Nat) :
    (s.localRead c off n who).st = s ∧ (s.localRead c off n who).status = .ok := by
  have hl : ∀ off n, s.lanesClean c off n := fun off n j _ => by simp [State.laneMark, h]
  simp only [State.localRead, State.sramRead_clean s c _ _ who (hl _ _)]
  split <;> simp [Status.orElse]

theorem readPlain_unmarked {s : State} (h : s.marks = []) (c who : Nat) (f : Fmt) (R : Nat) (l : List Nat) :
    (readPlain (sramReader c who) f R s l).1 = s ∧ (readPlain (sramReader c who) f R s l).2.1 = none := by
  induction l with
  | nil => exact ⟨rfl, rfl⟩
  | cons off l ih => simpa [readPlain, sramReader, localRead_unmarked h] using ih

/-- A SEG_DOWN whose slot list at 0 holds one adapter of rank 1, and whose one row takes none. -/
def wSegDown : BitVec 128 := cw 5 5 (2 ^ 111)
def atSegDown : State := { at0 0 wSegDown with mem := [(sramByte 0 8, 1), (sramByte 0 100, 128), (sramByte 0 128, 0xFF)] }

theorem segDown_checks (i : Fin 512) :
    went (((atSegDown.advanceHead 0 0).draw).segDownChecks 0 (head0 wSegDown) (2 ^ 295) (128 * (1 + i))) (fun u o =>
      decide (u = (atSegDown.advanceHead 0 0).draw) && o.use.isNone && decide (o.xf = .bf16) && decide (o.rows = 1) &&
      decide (o.list = 0 ∧ o.idx = 128 ∧ o.slots = 1)) = true := by
  revert i; decide +kernel

theorem segDown_adapters :
    went ((((atSegDown.advanceHead 0 0).draw.setGang 0 wSegDown).setCompat 0 false [0]).readAdapters 0 0 128 1 1 (some .bf16))
      (fun v a => decide (v.marks = []) && decide (a.2 = [0xFF]) && decide (a.1.length = 1)) = true := by decide +kernel

theorem segDownSlots_idle (s : State) (c j : Nat) (o : SegDownOp) (p : HPitch) (ix : List Nat) (ups : List Upset)
    (l : List (Nat × AdEntry)) :
    (s.segDownSlots c j o p ix [] ups l).fail = none ∧ (s.segDownSlots c j o p ix [] ups l).bad = [] := by
  induction l with
  | nil => exact ⟨rfl, rfl⟩
  | cons a l ih => simpa [State.segDownSlots] using ih

theorem segDown_parse : (atSegDown.advanceHead 0 0).segDownParse 0 (head0 wSegDown) =
    ((atSegDown.advanceHead 0 0).draw).segDownChecks 0 (head0 wSegDown) (2 ^ 295)
      (128 * (1 + (atSegDown.advanceHead 0 0).freeVal % 512)) := by
  have hm : (atSegDown.advanceHead 0 0).marks = [] := by decide +kernel
  have hl := localRead_unmarked hm 0 (descOff wSegDown) 64 rqDma
  have hd : leNat ((atSegDown.advanceHead 0 0).localRead 0 (descOff wSegDown) 64 rqDma).data = 2 ^ 295 := by decide +kernel
  have hr : (atSegDown.advanceHead 0 0).readDesc 0 wSegDown = .go (atSegDown.advanceHead 0 0) (2 ^ 295) := by
    rw [State.readDesc]
    rw [if_pos hl.2, hl.1, hd]
  have hn : (atSegDown.advanceHead 0 0).need (gangOk wSegDown && cmdGang wSegDown == 0) .badFormat =
      .go (atSegDown.advanceHead 0 0) () := by
    rw [State.need, if_pos (by decide +kernel)]
  rw [State.segDownParse]
  simp only [head0] at *
  rw [hn]
  simp only [Step.next, hr]

theorem wit_MatrixPaths_segDown : atSegDown.headOf 0 0 5 5 = some (head0 wSegDown) ∧ cmdWaitCnt wSegDown = 0 ∧
    atSegDown.slotReady 0 wSegDown 320 = true ∧ ∃ u o es ix u' u'' xs sl,
      (atSegDown.advanceHead 0 0).segDownParse 0 (head0 wSegDown) = .go u o ∧
      ((u.setGang 0 wSegDown).setCompat 0 false [0]).readAdapters 0 o.list o.idx o.slots o.rows (some o.xf) = .go u' (es, ix) ∧
      u'.segDownX 0 o ix = (u'', none, xs, sl) ∧
      (let m := (u''.draw 6).segDownSlots 0 0 o (hPitch o.h es) ix xs (upsetsOf (u''.freeAt 0)) ((List.range es.length).zip es)
       m.fail = none ∧ m.bad = []) := by
  refine ⟨by decide +kernel, by decide +kernel, by decide +kernel, ?_⟩
  obtain ⟨u, o, ho, hp⟩ := went_go (segDown_checks ⟨(atSegDown.advanceHead 0 0).freeVal % 512, Nat.mod_lt _ (by decide)⟩)
  simp only [Bool.and_eq_true, decide_eq_true_eq] at hp
  obtain ⟨⟨⟨⟨hs, hu⟩, hx⟩, hr⟩, hl⟩ := hp
  have hP := segDown_parse.trans ho
  obtain ⟨v, ⟨es, ix⟩, hv, hq⟩ := went_go segDown_adapters
  rw [← hs, ← hx] at hv
  simp only [Bool.and_eq_true, decide_eq_true_eq] at hq
  obtain ⟨⟨hm, hix⟩, hlen⟩ := hq
  have hro : (readOperand (sramReader 0 rqArray) v o.x .bf16 1 o.k).st = v ∧
      (readOperand (sramReader 0 rqArray) v o.x .bf16 1 o.k).fail = none := by
    have hs : Fmt.bf16.scaled = false := rfl
    simp only [readOperand, hs]
    exact readPlain_unmarked hm 0 rqArray .bf16 o.k _
  have hX : v.segDownX 0 o ix = (v, none, [], []) := by
    simp only [State.segDownX, Option.isNone_iff_eq_none.1 hu, hx, hr, hix, hro, Option.map_none]
    simp [List.range_succ]
  exact ⟨u, o, _, _, v, v, [], [], hP, by rw [hl.1, hl.2.1, hl.2.2, hr]; exact hv, hX, segDownSlots_idle _ 0 0 o _ ix _ _⟩

theorem wit_MatrixPaths_mvm : let w := cw 6 0 0; ∃ u a, ((at0 0 w).advanceHead 0 0).mvParse 0 (head0 w) = .go u a ∧
    (((at0 0 w).headOf 0 0 6 0 == some (head0 w)) && ((at0 0 w).core 0).mv.isNone && (at0 0 w).slotReady 0 w 416 &&
      a.1.use.isNone) = true :=
  went_go (by decide +kernel)

/-- An INT8 vector in one block of one row. -/
def mv0 : MvOp :=
  { index := 0, w := ⟨0, 0, 0, 0, 0, 0, 0, 0, true⟩, x := ⟨0, 0, 0, 0, 0, 0, 0, 0, true⟩, wf := .int8, xf := .int8, src := .int8,
    use := none, first := [], final := [], n := 1, k := 32, b := 1, brows := 512, add := false, ofmt := 0, out := 0, check := 0,
    f := 0x3F800000, tol := 0 }

def mvUp : State := up.setMv 0 (some mv0)

theorem wit_MatrixPaths_block : (mvUp.core 0).mv = some mv0 ∧ mvUp.mvStalled 0 mv0 = false ∧ mv0.add = false ∧ mv0.b = 1 ∧
    mv0.out + mv0.first0 mv0.block * mvSize mv0.ofmt + 4 ≤ 2 ^ 23 ∧ (mvUp.mvRead 0 mv0).fail = none ∧ mv0.mism = 0 ∧ mv0.breach = false ∧
    mv0.block + 1 = mv0.blocks ∧
    (let r := mvUp.mvRead 0 mv0
     let outs := mv0.outs 32 r.w r.x r.st.freeAt []
     ((mv0.verdicts 32 outs r.x r.c r.a).getD 0 (false, false)).1 = false ∧
     (mv0.bytes ((column outs 0).map (fun a => a.result true mv0.f))).length = 4) := by decide +kernel

theorem wit_MatrixPaths_block_lanes : (mvUp.mvRead 0 mv0).st.lanesClean 0 0 4 := by unfold State.lanesClean; decide +kernel

theorem wit_MatrixPaths_mismatch : ∀ k, k = mv0.k ∨ k = 32 → (let r := mvUp.mvRead 0 mv0
    ((mv0.verdicts (k - k % 32) (mv0.outs (k - k % 32) r.w r.x r.st.freeAt [⟨0, 0, 0x40000000, none⟩]) r.x (r.c.take (k - k % 32))
      (r.a.take (k - k % 32))).getD 0 (false, false)).1 = true) := by
  intro k h; obtain rfl | rfl := h <;> decide +kernel

theorem wit_VectorCommands :
    ([(VOp.add, 0), (.mul, 1), (.axpby, 2), (.max, 3), (.exp, 4), (.recip, 5), (.rsqrt, 6), (.rowsum, 7), (.rowmax, 8),
      (.rmsnorm, 9), (.rope, 10), (.gate, 11), (.cvt, 12)] : List (VOp × Nat)).all (fun p =>
      let w := cw 7 p.2 (if p.2 = 10 ∨ p.2 = 11 then 2 ^ 96 else 0)
      ((at0 1 w).headOf 0 1 7 p.2 == some (head0 w)) && (at0 1 w).slotReady 0 w 448 &&
      went (((at0 1 w).advanceHead 0 1).vecParse 0 p.1 (head0 w)) (fun _ _ => true)) = true := by decide +kernel

theorem wit_GuardCommands : (at0 1 (cw 3 0 (63 * 2 ^ 32))).headOf 0 1 3 0 = some (head0 (cw 3 0 (63 * 2 ^ 32))) ∧
    cmdBits (cw 3 0 (63 * 2 ^ 32)) 37 32 = 63 ∧ up.fld GUARD_CFG.BUSY 0 63 = 0 ∧
    (up.setFld GUARD_CFG.BUSY 0 63 1).fld GUARD_CFG.BUSY 0 63 = 1 ∧ up.slotInUse 0 63 = false ∧
    cmdWaitCnt (cw 3 0 (63 * 2 ^ 32)) = 0 ∧ 0 + (2 * guardD 1 + 32 * 1) ≤ 2 ^ 23 ∧
    ((up.setCore 0 { updates := [{ slot := 63, seed := false, p := 1, win := 0, base := 0 }] }).core 0).updates.find?
      (fun v => v.slot == 63) = some { slot := 63, seed := false, p := 1, win := 0, base := 0 } ∧
    ((up.setCore 0 { updates := [{ slot := 63, seed := true, p := 1, win := 0, base := 0 }] }).core 0).updates.find? (fun v => v.slot == 63) =
      some { slot := 63, seed := true, p := 1, win := 0, base := 0 } := by decide +kernel

theorem wit_GuardCommands_lanes : up.lanesClean 0 0 (2 * guardD 1 + 32 * 1) := by unfold State.lanesClean; decide +kernel

/-! ## Witnesses: core command streams -/

theorem wit_RingCommands_tail : let s := at0 3 (cw 0 0 0); s.qState 0 3 ≠ qFenced ∧ s.ringSize 0 3 = 64 ∧
    (s.qTail 0 3 + 64 - s.qHead 0 3 % 64) % 64 ≤ (63 + 64 - s.qHead 0 3 % 64) % 64 ∧
    (0 + 64 - s.qHead 0 3 % 64) % 64 < (s.qTail 0 3 + 64 - s.qHead 0 3 % 64) % 64 := by decide +kernel

theorem wit_RingCommands_fetch : ((at0 3 0).setFld QPTR.TAIL 0 3 2).mayFetch 0 3 = true ∧
    (at0 3 0).fld QCFG.BASE 0 3 * 64 + 64 * (((at0 3 0).queue 0 3).fetchAt / 4) < 2 ^ 23 ∧
    2 ^ 23 ≤ (((at0 3 0).setFld QPTR.TAIL 0 3 32).setFld QCFG.BASE 0 3 (2 ^ 17 - 1)).fld QCFG.BASE 0 3 * 64 + 64 * (16 / 4) := by
  decide +kernel

theorem wit_RingCommands_lanes : (at0 3 0).lanesClean 0 0 64 := by unfold State.lanesClean; decide +kernel

theorem wit_QueueStops_trap : let w := cw 9 0 0; ((at0 0 w).queue 0 0).fetched = head0 w :: [] ∧ (at0 0 w).qState 0 0 = qRunning ∧
    (head0 w).bad = none ∧ trapCause 0 w = some 0 ∧ trapCause 0 (cw 4 0 0) = some 1 ∧ trapCause 0 (cw 0 0 (2 ^ 127)) = some 2 ∧
    trapCause 0 (cw 0 3 0) = some 4 ∧ bodyFields (cmdClass w) (cmdOp w) = none ∧ classOnQueue (cmdClass (cw 4 0 0)) 0 = false := by
  decide +kernel

theorem wit_ResumeAndWait_states : ∀ st, st < 7 → (up.setFld QSTAT.STATE 0 0 st).qState 0 0 = st ∧
    (up.setFld QSTAT.STATE 0 0 st).fld QSTAT.ERR_PEND 0 0 = 0 ∧ (up.queue 0 0).fetched = [] ∧
    ((up.setFld QSTAT.STATE 0 0 st).setFld QCFG.EN 0 0 1).fld QCFG.EN 0 0 = 1 := by decide +kernel

theorem wit_ResumeAndWait_limit : let w := cw 1 0 (2 ^ 16);
    let s := ((at0 0 w).setFld QSTAT.STATE 0 0 qWaiting).setFld SEQ_CFG.WAIT_LIMIT 0 0 1
    (s.queue 0 0).fetched = head0 w :: [] ∧ s.qState 0 0 = qWaiting ∧ s.fld SEQ_CFG.WAIT_LIMIT 0 0 ≠ 0 ∧
    (s.queue 0 0).warned = false ∧ cmdWaitCnt w ≠ 0 ∧ s.withheld .SEQ_WAIT_LONG (siteOf 0) (coreNo 0) 0 = false := by
  decide +kernel

theorem wit_ResumeAndWait_pending : ∀ st, st = qHalted ∨ st = qTrapped →
    ((up.setFld QSTAT.STATE 0 0 st).setFld QSTAT.ERR_PEND 0 0 1).qState 0 0 = st ∧
    ((up.setFld QSTAT.STATE 0 0 st).setFld QSTAT.ERR_PEND 0 0 1).fld QSTAT.ERR_PEND 0 0 = 1 := by
  intro st h; obtain rfl | rfl := h <;> decide +kernel

theorem wit_Semaphores : let sig := cw 1 1 (15 * 2 ^ 26 + 63 * 2 ^ 20); let wait := cw 1 0 (2 ^ 16); let set := cw 1 2 0;
    (at0 0 sig).headOf 0 0 1 1 = some (head0 sig) ∧ cmdWaitCnt sig = 0 ∧ cmdSigCnt sig ≠ 0 ∧
    (at0 0 sig).behindMoves 0 0 sig = false ∧
    (at0 0 wait).headOf 0 0 1 0 = some (head0 wait) ∧ cmdWaitCnt wait ≠ 0 ∧ cmdSigCnt wait = 0 ∧
    (at0 0 wait).semValue 0 (cmdWaitSem wait) < cmdWaitCnt wait ∧
    cmdWaitCnt wait ≤ ({ at0 0 wait with mem := [(sramByte 0 0, 1)] } : State).semValue 0 (cmdWaitSem wait) ∧
    (at0 0 set).headOf 0 0 1 2 = some (head0 set) ∧ cmdSigCnt set = 0 := by decide +kernel

theorem wit_Semaphores_clean : (at0 0 (cw 1 1 0)).semClean 0 63 := by unfold State.semClean; decide +kernel

theorem wit_ControlAndRegisters : ([(0, 0), (0, 1), (0, 2), (1, 0), (1, 1), (1, 2), (1, 3), (1, 4), (1, 5), (3, 1),
      (3, 2)] : List (Nat × Nat)).all (fun p =>
      ((at0 0 (cw p.1 p.2 0)).headOf 0 0 p.1 p.2 == some (head0 (cw p.1 p.2 0))) && decide (cmdWaitCnt (cw p.1 p.2 0) = 0)) = true ∧
    cmdSigCnt (cw 1 5 0) = 0 ∧ ((at0 0 (cw 0 2 0)).core 0).msgFifo.length < 16 ∧ ((at0 0 (cw 1 3 0)).queue 0 0).inflight = [] ∧
    (at0 0 (cw 1 4 0)).fenceOk 0 0 (head0 (cw 1 4 0)) = true ∧ (at0 0 (cw 1 5 0)).bfenceOk 0 (head0 (cw 1 5 0)) = true := by
  decide +kernel

theorem wit_ControlAndRegisters_issue : (at0 0 (cw 1 5 0)).issues 0 0 1 5 (head0 (cw 1 5 0)) ((at0 0 (cw 1 5 0)).advanceHead 0 0) :=
  issues_head (by decide +kernel)

theorem wit_ControlAndRegisters_fence : let w := cw 1 4 (2 ^ 35); let s := (at0 0 w).start 0 3 { index := 0, word := 0 }
    s.headOf 0 0 1 4 = some (head0 w) ∧ (cmdBits w 35 32).testBit 3 = true ∧ (s.queue 0 3).inflight ≠ [] := by decide +kernel

theorem wit_ControlAndRegisters_wreg : let w := cw 0 3 (0x800 * 2 ^ 32 + 2 ^ 64); wregOff w = 0x4000 ∧
    (at0 0 w).headOf 0 0 0 3 = some (head0 w) ∧ regAt .core 0 (wregOff w) = some (.CH_REMAP, 0, 0, 0) := by decide +kernel

theorem wit_SignalsAndChecks_rsig : let w := cw 1 3 (daSram * 2 ^ 32); (at0 0 w).headOf 0 0 1 3 = some (head0 w) ∧
    ((at0 0 w).queue 0 0).inflight = [] ∧ (at0 0 w).decodeDa (cmdBits w 71 32) = .sram 0 0 ∧
    (at0 0 w).checkReq .atomic (.core 0) (cmdBits w 71 32) 4 = .pass ∧
    (at0 0 (cw 1 3 (2 ^ 33))).headOf 0 0 1 3 = some (head0 (cw 1 3 (2 ^ 33))) ∧ cmdBits (cw 1 3 (2 ^ 33)) 71 32 % 4 ≠ 0 := by
  decide +kernel

theorem wit_SignalsAndChecks_crc : let w := cw 3 1 ((2 ^ 23 - 1) * 2 ^ 32 + 2 ^ 55); (at0 0 w).headOf 0 0 3 1 = some (head0 w) ∧
    cmdBits w 77 55 = 1 ∧ cmdBits w 54 32 + cmdBits w 77 55 = 2 ^ 23 ∧ cmdBits w 100 78 % 4 = 0 ∧
    (at0 0 w).laneMark 0 ((2 ^ 23 - 1) / 8) = none := by decide +kernel

theorem wit_SignalsAndChecks_cmp : let w := cw 3 2 0; (at0 0 w).headOf 0 0 3 2 = some (head0 w) ∧ cmdSigCnt w = 0 ∧
    (at0 0 w).behindMoves 0 0 w = false ∧ leNat (memBytes (at0 0 w).mem (sramByte 0 0) 4) &&& cmdBits w 127 96 = cmdBits w 95 64 ∧
    (0 : Nat) ≠ cmdBits (cw 3 2 (2 ^ 64)) 95 64 ∧ (at0 0 w).laneMark 0 0 = none := by decide +kernel

theorem wit_SignalsAndChecks_lanes : up.lanesClean 0 (2 ^ 23 - 1) 1 ∧ up.lanesClean 0 0 4 := by
  unfold State.lanesClean; decide +kernel

theorem wit_MoveEffects : ([0, 1, 2] : List Nat).all (fun k => let w := cw 4 k 0; let s := at0 3 w
      (s.headOf 0 3 4 k == some (head0 w)) && decide (cmdWaitCnt w = 0) && s.moveRoom 0 && !s.rowsHeld 0 [copyRow (head0 w)] &&
      !s.rowsHeld 0 (xcopyRows (leNat (memBytes s.mem (sramByte 0 (64 * cmdBits w 48 32)) 32)))) = true := by decide +kernel

theorem wit_MoveEffects_lanes : (at0 3 (cw 4 2 0)).lanesClean 0 0 32 := by unfold State.lanesClean; decide +kernel

theorem wit_MoveEffects_complete : let x : InFlight := { index := 63, word := 0, writes := [.sram (2 ^ 23 - 8) (bytes0 8)] }
    (up.start 0 3 x).completable 0 3 63 = some x ∧ x.status = .ok ∧ x.att = none ∧ x.scratch = none ∧ cmdSigCnt x.word = 0 ∧
    2 ^ 23 - 8 + (bytes0 8).length = 2 ^ 23 ∧ up.laneMark 0 (2 ^ 20 - 1) = none ∧
    (up.start 0 3 x).storeHeld 0 (.sram (2 ^ 23 - 8) (bytes0 8)) = false ∧ (up.start 0 3 x).walkHeld 0 x = false := by
  decide +kernel

theorem wit_MoveEffects_failed : let x : InFlight := { index := 63, word := 0, status := .badFormat }
    ((at0 3 0).start 0 3 x).completable 0 3 63 = some x ∧ x.status ≠ .ok ∧ x.att = none ∧ x.writes = [] ∧
    ((at0 3 0).start 0 3 x).qState 0 3 = qRunning := by decide +kernel

/-! ## Witnesses: attention -/

/-- Bytes put into core 0's SRAM. -/
def putSram (s : State) (off n v : Nat) : State := { s with mem := memPutBytes s.mem (sramByte 0 off) (leBytes n v) }

/-- A descriptor with E4M3 groups, one head of 64, one query row a token, its length table at 64 and its handles at 128. -/
def attDesc : Nat := 4 * 2 ^ 320 + 4 * 2 ^ 324 + 35 * 2 ^ 308 + 2 ^ 160 + 2 * 2 ^ 177 + 2 ^ 32 * 2 ^ 262

/-- `at0` on queue 2 with that descriptor and a table entry `e`. -/
def attUp (w : BitVec 128) (e : Nat) : State := putSram (putSram (at0 2 w) 0 64 attDesc) 64 32 e

theorem wit_AttentionWork_append : let w := cw 8 0 0; ∃ u a, ((attUp w 0).advanceHead 0 2).attParse 0 0 (head0 w) = .go u a ∧
    (((attUp w 0).headOf 0 2 8 0 == some (head0 w)) && (attUp w 0).slotReady 0 w 96 && (attUp w 0).slotReady 0 w 128 && !(attUp w 0).attStalled 0 attAppend (head0 w) &&
      decide (cmdWaitCnt w = 0) &&
      went (u.append 0 a.1 a.2.2) (fun _ _ => true)) = true := went_go (by decide +kernel)

theorem wit_AttentionWork_dup : let w := cw 8 0 (2 ^ 103); let s := attUp w (2 ^ 64 + 2 ^ 128 * 2 ^ 64);
    ∃ u a, (s.advanceHead 0 2).attParse 0 0 (head0 w) = .go u a ∧
    ((s.headOf 0 2 8 0 == some (head0 w)) && !s.attStalled 0 attAppend (head0 w) && s.slotReady 0 w 96 && s.slotReady 0 w 128 &&
      dupHandle a.2.2) = true := went_go (by decide +kernel)

theorem wit_AttentionWork_walk : let w := cw 8 1 0; ∃ u a, ((attUp w 0).advanceHead 0 2).attParse 0 1 (head0 w) = .go u a ∧
    (((attUp w 0).headOf 0 2 8 1 == some (head0 w)) && !(attUp w 0).attStalled 0 attWalk (head0 w) &&
      a.2.2.all (fun e => e.len == 0)) = true := went_go (by decide +kernel)

theorem wit_AttentionWork_merge : let w := cw 8 2 0; ∃ u a, ((attUp w (2 ^ 64)).advanceHead 0 2).attParse 0 2 (head0 w) = .go u a ∧
    (((attUp w (2 ^ 64)).headOf 0 2 8 2 == some (head0 w)) && decide (tokensOf a.2.2 * a.1.h * a.1.qpk = 1) &&
      went (u.readAllRecords 0 a.1 a.2.2 (u.mergeBase a.1) 1 (List.range 1)) (fun _ _ => true)) = true := went_go (by decide +kernel)

theorem wit_AttentionWork_retry : let e : LtEntry := ⟨0, 1, 0, 0, true⟩; let a : AttRun := ⟨[e], 0, 0, some 1, none, []⟩
    a.table[a.entry]? = some e ∧ a.gen = some 1 ∧ (AttP.of a.desc 0).htab + 16 * e.kvh + 16 ≤ 2 ^ 23 ∧
    bitsOf (leNat (memBytes up.mem (sramByte 0 0) 16)) 127 96 ≠ 1 ∧ up.laneMark 0 0 = none ∧ up.laneMark 0 1 = none ∧
    up.withheld .ATT_RETRY (siteOf 0) (coreNo 0) 0 = false := by
  decide +kernel

/-! ## Witnesses: bonded DRAM -/

/-- Channel 16 of core 0 is its spare. -/
def spared : State := up.setFld DRAM_CH_STAT.ROLE 0 16 1

/-- A beat of core 0's channel 0 with one wrong bit, queued for its write-back. -/
def beat1 : State := { up with marks := [(dramByte 0 0 32, .beatError 1)], chans := [(chKey 0 0, { wbq := [32] })] }

theorem wit_DramTraffic_read : (271 : Nat) < 272 ∧ up.sliceHeld 0 (32 * (2 ^ 25 - 1)) 32 = false := by decide +kernel

theorem wit_DramTraffic_beats : up.beatsClean 0 (32 * (2 ^ 25 - 1)) 32 := by unfold State.beatsClean; decide +kernel

theorem wit_DramTraffic_poison : let s : State := { up with marks := [(up.sliceKey 0 0, .poison)] }
    s.sliceHeld 0 0 32 = false ∧ s.lchDead 0 (sliceLch 0) = false ∧ Tbl.find s.marks (s.sliceKey 0 (32 * 0)) = some .poison := by
  decide +kernel

theorem wit_DramTraffic_writeback : (beat1.chan 0 0).wbq = [32] ∧ beat1.fld DRAM_CH_STAT.RETRAINING 0 0 = 0 ∧
    Tbl.find beat1.marks (dramByte 0 0 32) = some (.beatError 1) ∧ maskSet 1 = [0] := by decide +kernel

theorem wit_DramTraffic_scrub : up.fld DRAM_CH_STAT.RETRAINING 0 16 = 0 ∧ up.fld DRAM_CH_STAT.ROLE 0 16 ≠ 5 ∧
    (∀ j, j < 64 → Tbl.find up.marks (dramByte 0 16 (chanByte 0 0 (32 * j))) = none) := by decide +kernel

theorem wit_DramTraffic_inject : up.ltileOf 0 = some 0 ∧ up.denied .hatband (.tileCsr 0 0x2010) = none ∧
    up.fld DRAM_INJECT.ARM 0 0 = 0 ∧ up.coreEnabled 0 = true ∧ getBits (271 * 2 ^ 41) 60 59 = 0 ∧ getBits (271 * 2 ^ 41) 49 41 < 272 ∧
    getBits (3 * 2 ^ 59) 60 59 = 3 := by decide +kernel

theorem wit_DramTraffic_refused : (up.denied (.brimlink 0 2) (.tileCsr 0 0x2010)).isSome = true ∧ up.ltileOf 0 = some 0 := by decide +kernel

/-- Core 0's logical channel 0 on its spare, channel 1 out of service and tested. -/
def onSpare : State := ((up.setFld (CH_REMAP.PCH 0) 0 0 16).setFld DRAM_CH_STAT.ROLE 0 1 4).setChan 0 1 { tested := true }

theorem wit_RepairCommands_return : onSpare.repairStatus 7 0 1 0 0 0 0 = .ok ∧ onSpare.fld DRAM_REPAIR_STAT.BUSY 0 0 = 0 ∧
    onSpare.fld DRAM_CH_STAT.RETRAINING 0 (onSpare.remap 0 0) = 0 ∧ onSpare.fld DRAM_CH_STAT.RETRAINING 0 1 = 0 ∧
    onSpare.repairStatus 7 0 0 0 0 0 0 ≠ .ok := by decide +kernel

theorem wit_RepairCommands_start : up.ltileOf 0 = some 0 ∧ up.denied .hatband (.tileCsr 0 0x2100) = none ∧
    up.fld DRAM_REPAIR_STAT.BUSY 0 0 = 0 ∧ (up.setFld DRAM_REPAIR_STAT.BUSY 0 0 1).fld DRAM_REPAIR_STAT.BUSY 0 0 = 1 ∧
    spared.repairStatus 6 0 0 0 0 0 0 = .ok ∧ up.repairStatus 6 0 0 0 0 0 0 ≠ .ok ∧ spared.spareOf 0 = some 16 ∧
    spared.remap 0 0 ≠ 16 ∧ spared.fld DRAM_CH_STAT.RETRAINING 0 0 = 0 ∧ spared.fld DRAM_CH_STAT.RETRAINING 0 16 = 0 ∧
    (∀ k, k < 16 → up.fld DRAM_CH_STAT.ROLE 0 (up.remap 0 k) ≠ 5) ∧ spared.fld DRAM_CH_STAT.ROLE 0 (spared.remap 0 0) ≠ 5 := by decide +kernel

theorem wit_RepairCommands_end : ∀ op, op < 8 → ∀ st, (st = .ok ∨ st = .noResource) →
    Tbl.find ({ up with repairs := [(0, ⟨op, 3, 16, 15, 2047, 0, 0, false, st⟩)] } : State).repairs 0 =
      some ⟨op, 3, 16, 15, 2047, 0, 0, false, st⟩ ∧ up.fld DRAM_CH_STAT.RETRAINING 3 16 = 0 := by
  intro op _ st _; exact ⟨rfl, by decide +kernel⟩

/-- A swap of core 0's logical channel 15 to its spare. -/
def swap0 (w : Bool) (ph : SwapPhase) : Swap := ⟨15, 0, 16, false, w, ph, 0⟩

theorem wit_SwapSteps : ∀ ph, Tbl.find ({ up with swaps := [(0, swap0 false ph)] } : State).swaps 0 = some (swap0 false ph) ∧
    (swap0 false ph).src < 17 ∧ (swap0 false ph).dst < 17 ∧ (swap0 false ph).src ≠ (swap0 false ph).dst ∧
    (swap0 false ph).lch < 16 ∧ (swap0 false ph).window = false ∧ up.held = [] ∧ up.stalled = [] ∧
    (∀ p, p < 17 → up.fld DRAM_CH_STAT.RETRAINING 0 p = 0) ∧ (∀ k, k < 16 → up.fld DRAM_CH_STAT.ROLE 0 (up.remap 0 k) ≠ 5) := by
  intro ph; cases ph <;> decide +kernel

theorem wit_SwapSteps_marks : (∀ m, Tbl.find up.marks (dramByte 0 0 0 + m) ≠ none → 2 ^ 26 ≤ m) ∧ Tbl.sorted up.marks = true ∧
    (∀ p, p < 17 → (up.chan 0 p).due = false ∧ (up.chan 0 p).early = false) := by
  refine ⟨fun m h => absurd rfl h, ?_⟩; decide +kernel

theorem wit_Retraining_due : up.fld DRAM_CH_STAT.ROLE 287 16 ≠ 5 ∧ up.anyRetrain 287 = false ∧ up.swapOf 287 16 = none ∧
    (up.setFld DRAM_CH_STAT.RETRAINING 287 0 1).anyRetrain 287 = true := by decide +kernel

theorem wit_Retraining_end : (up.setFld DRAM_CH_STAT.RETRAINING 0 16 1).fld DRAM_CH_STAT.RETRAINING 0 16 = 1 ∧ up.held = [] ∧
    (∀ k, k < 17 → (up.chan 0 k).due = false ∧ (up.chan 0 k).early = false) ∧ up.stalled = [] ∧ Tbl.find up.repairs (siteOf 0) = none ∧ up.fld DRAM_CFG.AUTO_SWAP (siteOf 0) 0 = 0 := by decide +kernel

theorem wit_Retraining_dead : up.lchOf 0 0 = some 0 ∧ Tbl.find up.swaps 0 = none ∧ up.fld DRAM_CH_STAT.RETRAINING 0 0 = 0 ∧
    up.spareOf 0 = none ∧ spared.spareOf 0 = some 16 ∧ spared.lchOf 0 0 = some 0 ∧
    (spared.setFld DRAM_CFG.AUTO_SWAP 0 0 1).fld DRAM_CFG.AUTO_SWAP (siteOf 0) 0 = 1 := by decide +kernel

/-! ## Witnesses: fullers -/

/-- A program header of level 0 with no program. -/
def ful0 (s : State) (hdr : Nat) : State := { s with mem := memPutBytes s.mem (fulByte 0 0 0x2000) (leBytes 16 hdr) }

/-- Fuller 0 of core 0 runs an instruction word at pc 0, its x1 and x2 at 0x10000. -/
def fulUp (w : Nat) : State :=
  ((up.setFld FUL_STAT.STATE 0 0 1).setFul 0 0 { x := [(1, 0x10000), (2, 0x10000)] } |> fun s =>
    { s with mem := memPutBytes s.mem (fulByte 0 0 0) (leBytes 4 w) })

/-- An Xflk word. -/
def flk (f3 f7 rd r1 r2 : Nat) : Nat := 0x0B + rd * 2 ^ 7 + f3 * 2 ^ 12 + r1 * 2 ^ 15 + r2 * 2 ^ 20 + f7 * 2 ^ 25

theorem wit_FullerControl_mem : up.ltileOf (siteOf 0) = some 0 ∧ up.fulShown 0 33 = 0 ∧
    up.checkReq .write (.core 0) (coreDa 0 0 (0x100000 + 0x6000 * 33 + 0x5FF8)) 8 = .pass ∧
    up.checkReq .write .hatband (coreDa 0 0 0x100000) 8 = .pass ∧
    (up.setFld FUL_STAT.STATE 0 0 1).fulShown 0 0 ≠ 0 ∧
    up.checkReq .write (.brimlink 0 2) (coreDa 0 0 0x100000) 8 ≠ .pass ∧
    up.checkReq .write (.core 0) (coreDa 0 0 (0x100000 + 0x1FF8)) 8 = .pass := by decide +kernel

theorem wit_FullerControl_load : up.ptOfSite (siteOf 0) = some 1 ∧
    (let b := memBytes (ful0 up (0x4B4C4650 + crc32c [] * 2 ^ 96)).mem (fulByte 0 0 0x2000) 0x2000
     leNat ((b.drop 0).take 4) = 0x4B4C4650 ∧ leNat ((b.drop 5).take 3) = 0 ∧ leNat ((b.drop 8).take 4) = 0 ∧
     leNat ((b.drop 4).take 1) ≤ Tbl.at up.levels 1 0 ∧ leNat ((b.drop 12).take 4) = crc32c ((b.drop 16).take 0)) ∧
    leNat (memBytes up.mem (fulByte 0 0 0x2000) 4) ≠ 0x4B4C4650 ∧
    Tbl.at up.levels 1 0 < leNat (memBytes (ful0 up (2 ^ 32)).mem (fulByte 0 0 0x2004) 1) := by decide +kernel

theorem wit_FullerControl_run : (fulUp 0).fld FUL_STAT.STATE 0 0 = 1 ∧ ((fulUp 0).ful 0 0).hung = false ∧
    (((fulUp 0).setFul 0 0 { hung := true }).ful 0 0).hung = true ∧
    (((fulUp 0).setFul 0 0 { hung := true }).fld FUL_STAT.STATE 0 0 = 1) := by decide +kernel

theorem wit_FullerTransfers : ∀ p, p = (0, FulOp.brd, 0) ∨ p = (1, .bwr, 0) ∨ p = (5, .sxf, 0) ∨ p = (5, .sxf, 64) →
    let w := flk p.1 p.2.2 0 3 2
    (fulUp w).fulActive 0 0 = true ∧ (fulUp w).fulFetch 0 0 = some (w, 4) ∧ fulOpOf w 4 = p.2.1 ∧ rvF7 w % 64 + 1 = 1 ∧
    ((fulUp w).ful 0 0).reg (rvRs2 w) = 0x10000 + 0 ∧ (fulUp w).burstHeld 0 0 = false ∧ ((fulUp w).ful 0 0).reg (rvRs1 w) = 0 ∧
    Tbl.find (fulUp w).marks (dramByte 0 0 (baByte 0 0)) = none ∧ (fulUp w).dmemPoisoned 0 0 0x4000 = false := by
  rintro p (rfl | rfl | rfl | rfl) <;> decide +kernel

theorem wit_FullerTransfers_poison : let w := flk 0 0 1 3 2
    rvRd w ≠ 0 ∧ (({ fulUp w with marks := [(dramByte 0 0 0, .poison)] } : State).marks = [(dramByte 0 0 (baByte 0 0), .poison)]) ∧
    ({ fulUp w with marks := [(fulByte 0 0 0x4000, .poison)] } : State).dmemPoisoned 0 0 0x4000 = true ∧
    64 < 63 % 64 + (rvF7 (flk 0 1 0 3 2) % 64 + 1) := by decide +kernel

theorem wit_FullerInstructions : ∀ p, p ∈ [(flk 2 0 7 1 0, FulOp.wld), (flk 2 1 0 1 7, .wst), (flk 3 0 7 0 1, .wop), (flk 3 9 7 0 1, .wop),
      (flk 4 0 15 0 7, .crc), (flk 6 0 15 3 0, .map), (flk 7 0 0 0 0, .sys 0), (flk 7 1 0 0 0, .sys 1), (flk 7 2 0 0 0, .sys 2),
      (flk 7 3 0 0 0, .sys 3), (flk 7 4 1 0 0, .sys 4), (flk 7 5 1 7 0, .sys 5), (0x00100093, .base), (0x73, .base)] →
    (fulUp p.1).fulActive 0 0 = true ∧ (fulUp p.1).fulFetch 0 0 = some (p.1, 4) ∧ fulOpOf p.1 4 = p.2 := by
  decide +kernel

theorem wit_FullerInstructions_base : rvBase 32 16 ((fulUp 0x00100093).ful 0 0).reg 0 4 0x00100093 = .write 1 1 ∧
    rvBase 32 16 ((fulUp 0x0020A023).ful 0 0).reg 0 4 0x0020A023 = .store 0x10000 4 0x10000 ∧
    ((fulUp (flk 2 0 7 1 0)).ful 0 0).reg (rvRs1 (flk 2 0 7 1 0)) = 0x10000 + 0 ∧
    ((fulUp 0).mil (siteOf 0)).fulIrq.length < 32 := by decide +kernel

theorem wit_GatherReduce_fgo : let w := cw 4 3 (2 ^ 65); (at0 3 w).headOf 0 3 4 3 = some (head0 w) ∧ (at0 3 w).moveRoom 0 = true ∧
    maskBits 34 (cmdBits w 65 32) = [33] ∧ cmdBits w 79 66 % 2 = 0 ∧ cmdWaitCnt w = 0 ∧ ((at0 3 w).advanceHead 0 3).fgoCheck 0 (cmdBits w 79 66) [33] = .ok := by
  decide +kernel

/-- Fuller 0 of core 0 runs a bank-view descriptor of one beat, its result at 64. -/
def grDesc (mode red pat : Nat) : BitVec 512 :=
  BitVec.ofNat 512 (2 ^ 292 + 2 ^ 291 + mode * 2 ^ 296 + red * 2 ^ 293 + 64 * 2 ^ 298 + pat * 2 ^ 448)

def grUp (mode red pat : Nat) : State := (up.setFld FUL_STAT.STATE 0 0 2).setFul 0 0 { gr := some ⟨grDesc mode red pat, 0, false⟩ }

theorem wit_GatherReduce_run : ∀ mode, mode < 4 → (((grUp mode 2 0).ful 0 0).gr = some ⟨grDesc mode 2 0, 0, false⟩ ∧
    (grUp mode 2 0).fld FUL_STAT.STATE 0 0 = 2 ∧ ((grUp mode 2 0).ful 0 0).hung = false ∧ (grUp mode 2 0).burstHeld 0 0 = false ∧
    (grUp mode 2 0).grAhead 0 0 < 9 ∧ grBank (grDesc mode 2 0) = true ∧ grIdxNone (grDesc mode 2 0) = true ∧
    grRows (grDesc mode 2 0) = 1 ∧ grRowBeats (grDesc mode 2 0) = 1 ∧ grBase (grDesc mode 2 0) = 32 * 0 ∧
    (grUp mode 2 0).fld FUL_STAT.FENCED 0 (0 ^^^ 1) = 0 ∧ (grUp mode 2 0).fld FUL_STAT.FENCED 0 0 = 0 ∧
    grRes (grDesc mode 2 0) % 64 = 0 ∧ grRes (grDesc mode 2 0) + 64 * 0 + 64 ≤ 2 ^ 23 ∧ grMode (grDesc mode 2 0) = mode ∧
    grRed (grDesc mode 2 0) = 2 ∧ grDst (grDesc mode 2 0) + 32 ≤ grRes (grDesc mode 2 0)) := by decide +kernel

theorem wit_GatherReduce_lanes : (grUp 0 2 0).lanesClean 0 (grDst (grDesc 0 2 0)) 32 ∧
    grDst (grDesc 0 2 0) % 64 = 0 ∧ grDst (grDesc 0 2 0) + 32 ≤ 2 ^ 23 ∧
    Tbl.find (grUp 0 2 0).marks (dramByte 0 0 (baByte 0 0)) = none := by unfold State.lanesClean; decide +kernel

theorem wit_GatherReduce_check : memBytes (grUp 3 2 0).mem (dramByte 0 0 (baByte 0 0)) 32 = grFillBytes (grDesc 3 2 0) 0 0 ∧
    memBytes (grUp 3 2 1).mem (dramByte 0 0 (baByte 0 0)) 32 ≠ grFillBytes (grDesc 3 2 1) 0 0 := by decide +kernel

/-! ## Witnesses: milliners -/

/-- `up` with a running hart. -/
def milUp (m : Mil) : State := up.setMil 0 { m with running := true }

/-- A line of the slice's first bytes, dirty. -/
def line0 : CacheLine := { bytes := bytes0 64, dirty := true }

def milLine : State := milUp { dcache := [(0, line0)] }

theorem wit_MillinerMemory : ((milUp {}).mil 0).running = true ∧ (milUp {}).decodeDa daSram = .sram 0 0 ∧ bitsOf daSram 39 38 = 1 ∧
    daSram % 256 + 8 ≤ 256 ∧ (milUp {}).checkReq .read (.milliner 0) daSram 8 = .pass ∧
    (milUp {}).checkReq .write (.milliner 0) daSram 8 = .pass ∧ (milUp {}).checkReq .atomic (.milliner 0) daSram 8 = .pass ∧
    ((milUp {}).setFld (FW_MAP.V 0) 0 0 0).checkReq .read (.milliner 0) daSram 8 ≠ .pass ∧
    ((milUp {}).setFld (FW_MAP.V 0) 0 0 0).checkReq .write (.milliner 0) daSram 8 ≠ .pass ∧
    ((milUp {}).mil 0).storeFault = none ∧ ((milUp { storeFault := some (.auth, 0) }).mil 0).storeFault = some (.auth, 0) := by
  decide +kernel

/-- A clear of core 0's SRAM keeps a hart waiting there. -/
theorem wit_MillinerMemory_waits : (let s := (milUp {}).setFld SRAM_STAT.CLEARING 0 0 1
      s.milWaits 0 .read daSram 8 .plain = true ∧ s.milWaits 0 .write daSram 8 .plain = true) ∧
    (∀ k, k = ReqKind.read ∨ k = .write ∨ k = .atomic → (milUp {}).milWaits 0 k daSram 8 (milPath daSram .pma) = false ∧
      milLine.milWaits 0 k 56 8 (milPath 56 .pma) = false ∧ (milUp {}).milWaits 0 k daCsr 8 (milPath daCsr .pma) = false) ∧
    (milUp {}).milWaits 0 .read (2 ^ 40) 8 (milPath (2 ^ 40) .pma) = false ∧
    milPath daSram .pma = .plain ∧ milPath 56 .pma = .cached ∧ milPath daCsr .pma = .io := by
  refine ⟨by decide +kernel, ?_, by decide +kernel⟩
  rintro k (rfl | rfl | rfl) <;> decide +kernel

theorem wit_MillinerMemory_status : ((milUp {}).daRead (.milliner 0) daSram 8).status = .ok ∧
    ((milUp {}).daWrite (.milliner 0) daSram (bytes0 8)).status = .ok ∧
    ((milUp {}).daAtomic (.milliner 0) daSram .add 8 1).status = .ok ∧
    ((milLine.meetErr 0 0 .none).cacheRead 0 (lineParts 56 8)).status = .ok ∧
    ((milUp {}).busRead (.milliner 0) daCsr 8).status = .ok ∧
    shapeOk (milUp {}).hb.active .read ((milUp {}).decodeDa daCsr) daCsr 8 = true ∧
    (((milUp {}).setFld (FW_MAP.V 0) 0 0 0).daRead (.milliner 0) daSram 8).status ≠ .ok ∧
    (((milUp {}).setFld (FW_MAP.V 0) 0 0 0).daWrite (.milliner 0) daSram (bytes0 8)).status ≠ .ok := by decide +kernel

theorem wit_MillinerMemory_fetch : (milUp {}).daHeld .read (.milliner 0) 0 64 = false ∧
    ((milUp {}).busRead (.milliner 0) 0 64).status = .ok ∧ ((milUp {}).mil 0).dcache = [] ∧ ((milUp {}).mil 0).icache = [] ∧
    ((milUp { icache := [(0, line0)] }).mil 0).icache = [(0, line0)] := by decide +kernel

theorem wit_MillinerMemory_fence : ((milUp { storeFault := some (.auth, 0), ioFault := some (.fenced, 8) }).mil 0).ioFault =
      some (.fenced, 8) ∧ ((milUp {}).mil 0).ioFault = none ∧ ((milUp { ioFault := some (.fenced, 8) }).mil 0).storeFault = none := by
  decide +kernel

theorem wit_MillinerMemory_line : Tbl.find (milLine.mil 0).dcache (56 / 64) = some line0 ∧ line0.poisoned = false ∧
    56 % 64 + 8 ≤ 64 ∧ (milLine.mil 0).resv ≠ some 0 ∧ Tbl.find (milLine.mil 0).icache 0 = none ∧
    ((milUp { dcache := [(0, line0)], resv := some 0 }).mil 0).resv = some (56 / 64) := by decide +kernel

theorem wit_MillinerMemory_lanes : (milUp {}).lanesClean 0 0 8 := by unfold State.lanesClean; decide +kernel

theorem wit_MillinerAdmin_line : line0.dirty = true ∧ line0.bytes.length = 64 ∧ milLine.decodeDa (64 * (0 / 64)) = .dram 0 0 ∧
    milLine.checkReq .write (.milliner 0) (64 * (0 / 64)) 64 = .pass := by decide +kernel

theorem wit_MillinerAdmin_hold : milLine.daHeld .write (.milliner 0) (64 * (0 / 64)) 64 = false ∧
    (milLine.busWrite (.milliner 0) (64 * (0 / 64)) (List.replicate 64 0)).status = .ok ∧
    Tbl.find ((milUp {}).mil 0).dcache (0 / 64) = none ∧
    ((milUp { dcache := [(0, { line0 with dirty := false })] }).mil 0).dcache = [(0, { line0 with dirty := false })] := by
  decide +kernel

theorem wit_MillinerAdmin_beats : milLine.beatsClean 0 0 64 := by unfold State.beatsClean; decide +kernel

theorem wit_MillinerAdmin_instr : rvBase 64 32 ((milUp {}).mil 0).reg 0 4 (0x00100093 : BitVec 32).toNat = .write 1 1 ∧
    ((milUp {}).mil 0).priv = 3 ∧ getBits (10 * 2 ^ 60) 63 60 = 10 ∧ getBits (8 * 2 ^ 60) 63 60 = 8 ∧
    ((milUp {}).setFld MIL_WDOG.EN 0 0 1).fld MIL_WDOG.EN 0 0 = 1 ∧ ((milUp {}).mil 0).warned = false ∧
    Tbl.find ((milUp {}).mil 0).targets 9 = none ∧ (milUp {}).ownedBy 71 = [] := by decide +kernel

theorem wit_MillinerAdmin_window : up.ltileOf 0 = some 0 ∧
    up.checkReq .write (.milliner 0) (2 * 2 ^ 38 + (0x800000 + 0x1000 * 4)) 4 = .pass ∧
    up.decodeDa (2 * 2 ^ 38 + (0x800000 + 0x1000 * 4)) = .milCsr 0 (0x1000 * 4) ∧
    up.checkReq .read (.milliner 0) (2 * 2 ^ 38 + (0x800000 + 0x200018)) 8 = .pass ∧
    up.decodeDa (2 * 2 ^ 38 + (0x800000 + 0x200018)) = .milCsr 0 0x200018 ∧
    up.checkReq .write (.milliner 0) (2 * 2 ^ 38 + (0x800000 + 0x200008)) 8 = .pass ∧
    up.decodeDa (2 * 2 ^ 38 + (0x800000 + 0x200008)) = .milCsr 0 0x200008 ∧
    ((milUp { fulIrq := [(0, 33, 7)] }).mil 0).fulIrq = (0, 33, 7) :: [] ∧ (up.mil 0).fulIrq = [] := by decide +kernel

/-! ## Witnesses: host interface -/

/-- A submission entry: an opcode and values at byte offsets. -/
def entry (opc : Nat) (fs : List (Nat × Nat)) : BitVec 512 := BitVec.ofNat 512 (opc + (fs.map (fun p => p.2 * 256 ^ p.1)).sum)

/-- The command of an entry, on the admin queue or on queue 1. -/
def sub0 (opc : Nat) (fs : List (Nat × Nat)) : Sub := ⟨5, if opc < 0x20 then 0 else 1, entry opc fs, 1, false, false, .ok⟩

/-- A live sequence of PF0 on ring 0. -/
def seq7 : Seq := { fn := 0, ring := 0, stream := 3, adapter := 0xFFFF, pos := 4, left := 8 }

/-- PF0 of partition 1, in a state, with two queue pairs, two rings and commands; one sequence is live. -/
def hostWith (pst : Nat) (subs : List Sub) : State :=
  let s := (((milUp {}).setFld FN_STAT.PV 0 0 1).setFld FN_STAT.PT 0 0 1).setFld FN_STAT.RDY 0 0 1
  { s with
    fns := [(0, { sqs := [(0, ⟨0x1000, 16, 0, 0, 1, false⟩), (1, ⟨0x2000, 16, 1, 15, 0, false⟩)],
                  cqs := [(0, ⟨0x3000, 16, 0, 0, 0, 0, 0, 0, false, []⟩), (1, ⟨0x4000, 16, 1, 0, 4, 1, 0, 1, false, []⟩)],
                  rings := [(0, ⟨0x5000, 64, 2, 0, 0, false, 0, 0, 0, [], false⟩), (1, ⟨0, 64, 2, 0, 0, true, 1, 0, 0, [9], false⟩),
                            (2, ⟨0x6000, 64, 2, 0, 0, false, 64, 0, 0, [5], false⟩)],
                  unmasked := [1], cfg := { msixEn := true }, subs := subs })],
    parts := [(1, { state := pst, seqs := [(7, seq7)] })],
    levels := [(1, 2)],
    image := { s.image with adapters := [⟨0, daSram, 256, 2⟩] } }

def host0 (pst opc : Nat) (fs : List (Nat × Nat)) : State := hostWith pst [sub0 opc fs]

theorem wit_HostDoorbells : let s := hostWith 0 []
    s.fnExists 0 = true ∧ Tbl.find (s.fn 0).sqs 0 = some ⟨0x1000, 16, 0, 0, 1, false⟩ ∧ (1 + 16 - 0) % 16 ≤ (15 + 16 - 0) % 16 ∧
    (s.fn 0).flr = none ∧ s.fld FN_STAT.RDY 0 0 = 1 ∧ (⟨0x3000, 16, 0, 0, 0, 0, 0, 0, false, []⟩ : Cq).free = true ∧
    (⟨0x3000, 16, 0, 0, 0, 16, 0, 0, false, []⟩ : Cq).free = false ∧ s.fnPt 0 = some 1 ∧ s.ownerDown 1 = false ∧
    cmdRow (sub0 1 []).opc ≠ none ∧ Tbl.find (s.fn 0).cqs 1 = some ⟨0x4000, 16, 1, 0, 4, 1, 0, 1, false, []⟩ ∧
    (s.fn 0).unmasked.contains 1 = true ∧ (2047 : Nat) < msixVectors 0 ∧ (s.fn 0).cfg.d3hot = false ∧ (s.fn 0).cfg.msixEn = true := by decide +kernel

theorem wit_HostDoorbells_rings : let s := hostWith 0 []
    Tbl.find (s.fn 0).rings 0 = some ⟨0x5000, 64, 2, 0, 0, false, 0, 0, 0, [], false⟩ ∧
    Tbl.find (s.fn 0).rings 1 = some ⟨0, 64, 2, 0, 0, true, 1, 0, 0, [9], false⟩ ∧
    Tbl.find (s.fn 0).rings 2 = some ⟨0x6000, 64, 2, 0, 0, false, 64, 0, 0, [5], false⟩ ∧ 64 - headTo 0 64 64 1 < 64 := by
  decide +kernel

theorem wit_HostDoorbells_aperture : let s := (hostWith 0 []).setFld APERTURE.BASE 0 0 1024
    s.fld APERTURE.BASE 0 0 * 2 ^ 28 + 0 = daSram ∧ s.decodeDa daSram = .sram 0 0 ∧
    s.checkReq .write (.pcie 0) daSram (bytes0 8).length = .pass ∧ s.checkReq .read (.pcie 0) daSram 8 = .pass ∧
    s.checkReq .read (.pcie 0) (2 ^ 28 - 1) 2 ≠ .pass ∧ s.daHeld .write (.pcie 0) daSram (bytes0 8).length = false ∧
    s.daHeld .read (.pcie 0) daSram 8 = false ∧ (s.busWrite (.pcie 0) daSram (bytes0 8)).status = .ok ∧
    (s.busRead (.pcie 0) daSram 8).status = .ok := by decide +kernel

/-- Every command of the host has a state in which it is ready: partition state, opcode, fields. -/
theorem wit_hostReady : ∀ p, p ∈ ([(0, 0x01, [(4, 2), (24, 2)]), (0, 0x01, [(4, 1), (24, 2)]), (0, 0x02, [(4, 1)]), (0, 0x03, [(4, 63), (24, 2), (26, 1)]),
      (0, 0x04, [(4, 1)]), (0, 0x05, [(4, 63), (24, 64)]), (0, 0x06, [(4, 0)]), (0, 0x06, [(4, 2)]), (0, 0x07, [(4, 3)]),
      (0, 0x08, [(16, 64)]), (0, 0x09, [(4, 0xFF), (24, 100)]), (0, 0x09, [(4, 1), (24, 100)]), (0, 0x0A, []), (1, 0x0B, []),
      (2, 0x0C, [(4, 1)]), (3, 0x0D, [(4, 1)]), (3, 0x0E, [(4, 1), (16, 64)]), (1, 0x0F, []), (0, 0x20, [(16, 8), (24, daSram)]),
      (0, 0x20, [(16, 8), (24, daSram), (32, 1)]), (4, 0x21, [(16, 8), (24, daSram)]), (1, 0x22, [(4, 1), (16, 8)]),
      (1, 0x30, [(4, 9), (16, 4), (24, 3), (28, 0xFFFF), (30, 1), (36, 0x3F800000)]), (2, 0x31, [(4, 7)]), (1, 0x31, [(4, 8)]),
      (1, 0x38, [(4, 7), (24, 4095)]), (1, 0x39, [(4, 9), (16, 4), (24, 3), (28, 0xFFFF), (30, 1), (36, 0x3F800000), (60, 4095)]),
      (4, 0x3A, [(4, 0), (24, 4095)])] : List (Nat × Nat × List (Nat × Nat))) →
    (host0 p.1 p.2.1 p.2.2).hostReady 0 (sub0 p.2.1 p.2.2).sq p.2.1 (sub0 p.2.1 p.2.2) := by
  unfold State.hostReady; decide +kernel

/-- Commands that fail a check: a field out of its range, no partition, the wrong state. -/
theorem wit_HostQueues_checks : ∀ p, p ∈ ([(0, 0x01, [(4, 64), (24, 2)], Status.badFormat), (0, 0x0B, [], .stateConflict),
      (0, 0x30, [(4, 9), (16, 4)], .badFormat)] : List (Nat × Nat × List (Nat × Nat) × Status)) →
    (host0 p.1 p.2.1 p.2.2.1).subReady 0 (sub0 p.2.1 p.2.2.1).sq p.2.1 = some (sub0 p.2.1 p.2.2.1) ∧
    (host0 p.1 p.2.1 p.2.2.1).hostCheck 0 (sub0 p.2.1 p.2.2.1) = p.2.2.2 ∧ p.2.2.2 ≠ .ok := by decide +kernel

theorem wit_HostQueues : let s := host0 0 0x01 [(4, 2), (24, 2)]
    (∀ q, Tbl.find (s.fn 0).sqs 0 = some q → q.cq ≠ 2) ∧ Tbl.find (s.fn 0).cqs 2 = none ∧ Tbl.find (s.fn 0).cqs 1 ≠ none ∧
    (s.fn 0).sqs.any (fun q => q.2.cq == 1) = true ∧ (s.fn 0).sqs.any (fun q => q.2.cq == 2) = false ∧
    Tbl.find (s.fn 0).sqs 63 = none ∧ (∀ y, y ∈ (s.fn 0).subs → y.sq ≠ 1) ∧ Tbl.find (s.fn 0).rings 63 = none ∧
    s.ringInUse 0 0 = true ∧ s.ringInUse 0 2 = false ∧ (sub0 0x07 [(4, 3)]).sgl = false ∧ (s.evtBuf 0).dropped = 0 := by
  refine ⟨fun q h => ?_, ?_⟩
  · cases h; decide
  · decide +kernel

theorem wit_HostPartitions : let s := host0 3 0x0D [(4, 1)]
    s.fnPt 0 = some 1 ∧ Tbl.find s.partResets 1 = none ∧
    Tbl.find ({ s with partResets := [(1, { fn := 0, sub := 4, sites := [] })] } : State).partResets 1 ≠ none ∧
    ({ s with image := {} } : State).partTiles 1 = [] ∧ s.partTiles 1 ≠ [] ∧
    (match s.checkPartial 1 (bytes0 64) with
     | .bad _ => true
     | .good _ _ _ => false) = true := by decide +kernel

theorem wit_HostData : let s := host0 0 0x20 [(16, 8), (24, daSram)]
    s.decodeDa daSram = .sram 0 0 ∧ s.checkReq .write (.pcie 0) daSram 8 = .pass ∧ s.checkReq .read (.pcie 0) daSram 8 = .pass ∧
    daSram % 256 + 8 ≤ 256 ∧ s.rangeHeld .write (.pcie 0) daSram 8 = false ∧ s.rangeHeld .read (.pcie 0) daSram 8 = false ∧
    s.loadBelow daSram (bytes0 8) = false ∧ s.slotsHeld 0 1 1 = false ∧ (s.putAt (.pcie 0) daSram (bytes0 8)).status = .ok ∧
    s.loadBegun 0 (bytes0 8) (s.adapterSlots 1 1) = true ∧ s.adapterUsed 1 0xFFFF = true ∧ s.adapterUsed 1 1 = false ∧ s.adapterLoading 1 1 = false ∧
    s.adapterSlots 1 1 = [(daSram + 256, 256)] ∧ (s.writeSlots 0 (bytes0 8) [(daSram + 256, 256)]).status = .ok ∧
    (s.writeSlots 0 (bytes0 8) [(daSram + 256, 256)]).st.fns = s.fns ∧ s.adapterSlots 1 2 = [] ∧
    s.heldFor 1 1 = [] ∧ (hostWith 1 [{ sub0 0x22 [(4, 1)] with busy := true }]).adapterLoading 1 1 = true ∧ (s.fn 0).e2eKey = none ∧
    (s.part 1).adapters.contains 0xFFFF = false ∧ Tbl.find (s.part 1).seqs 9 = none ∧
    Tbl.find (s.part 1).seqs 7 = some seq7 ∧ seq7.left ≠ 0 ∧ seq7.stopped = false ∧ s.ringChoked seq7 = false ∧
    seq7.mayEnd 2 = true ∧ Status.fenced.code ∈ lostCodes ∧ ({ seq7 with left := 0 } : Seq).left = 0 ∧ s.partOfTile 0 = some 1 ∧
    s.reblocks.any (fun r => r.2.news.any (fun n => n.1 == 0)) = false := by decide +kernel

/-- Whether bytes are a kernel of FT4-E8 codes is a free function (log 119): a partition of level A0 refuses those that are. -/
theorem wit_HostData_below : ({ host0 0 0x20 [] with levels := [] } : State).loadBelow daSram (bytes0 8) = Config.namesE8 (bytes0 8) := by
  have h : (((({ host0 0 0x20 [] with levels := [] } : State).decodeDa daSram) = .sram 0 0) ∧
      ({ host0 0 0x20 [] with levels := [] } : State).ptOfSite (siteOf 0) = some 1) := by decide +kernel
  simp [State.loadBelow, h.1, h.2, Tbl.at, Tbl.find]

/-- A function with a session key, whose last prompt had the IV number `last`. -/
def keyed (last : Option Nat) : State :=
  (host0 1 0x30 []).setFn 0 { (host0 1 0x30 []).fn 0 with e2eKey := some 0, lastIv := last }

theorem wit_HostData_replayed : ((keyed (some 5)).fn 0).e2eKey = some 0 ∧
    (match (keyed (some 5)).openPrompt 0 (sub0 0x30 []) 0 (bytes0 32) with
     | .error r => r == 1
     | .ok _ => false) = true := by decide +kernel

/-- Whether a fresh prompt opens is the free function of AES-256-GCM (log 14). -/
theorem wit_HostData_fresh (b : List Byte) :
    (∃ u, (keyed none).openPrompt 0 (sub0 0x30 []) 0 b = .ok u) ↔
      (Config.gcmOpen 0 (b.take 12) (leBytes 1 0 ++ leBytes 4 (sub0 0x30 []).target ++ leBytes 2 ((sub0 0x30 []).at 24 2))
        ((b.drop 12).take (b.length - 28)) (b.drop (b.length - 16))).isSome = true := by
  have h : ((keyed none).fn 0).lastIv = none := by decide +kernel
  simp only [State.openPrompt, h, Option.any_none, Bool.false_eq_true, if_false]
  split
  · next hg => exact ⟨fun _ => by rw [hg]; rfl, fun _ => ⟨_, rfl⟩⟩
  · next hg => exact ⟨fun hu => (by obtain ⟨_, hu⟩ := hu; cases hu), fun hs => (by rw [hg] at hs; cases hs)⟩

theorem wit_HostData_adapter : let s := hostWith 1 [{ sub0 0x22 [(4, 1)] with busy := true }]
    let u := s.setPart 1 { s.part 1 with adapters := [1] }
    u.adapterLoading 1 1 = true ∧ (u.part 1).adapters.contains 1 = true ∧ u.heldFor 1 1 = [] ∧
    (∀ y, y ∈ u.loadSubs 1 1 → y.2.2 = .ok) := by decide +kernel

theorem wit_HostLinks : let s := hostWith 0 []
    s.fld FN_CTL.EN 0 0 = 0 ∧ (1 : Word).toNat % 2 = 1 ∧ (s.fn 0).flr = none ∧
    ((s.setFn 0 { flr := some 0 }).fn 0).flr = some 0 ∧ ((s.setFn 0 { flr := some 0 }).fn 0).flrSoft = false ∧
    ({ s with pcie := { s.pcie with up := true, perst := true, training := true } } : State).pcie.up = true ∧ s.hb.stage = 7 ∧ (s.fn 0).cfg.d3hot = false ∧
    (s.setFld FN_CTL.EN 0 0 1).fld FN_CTL.EN 0 0 = 1 ∧ ((s.setFn 0 { flr := some 0, flrSoft := true }).fn 0).flrSoft = true ∧
    ((s.setFn 0 { flr := some 0 }).fn 0).subs = [] ∧ linkLegal 16 5 = true ∧ s.pcie.width ≠ 16 ∧
    ({ s with pcie := { s.pcie with vfEnable := true, numVfs := 31 } } : State).fnExists 31 = true ∧
    ((({ s with pcie := { s.pcie with vfEnable := true, numVfs := 31 } } : State).setFn 31 { flr := some 0 }).fn 31).flr ≠ none := by
  decide +kernel

/-! ## Witnesses: Brimlink -/

/-- Bytes that are not zero, listed from an address. -/
def cells (a : Nat) (l : List Byte) : List Host.Cell :=
  ((List.range l.length).map (fun j => (a + j, l.getD j 0))).filter (fun c => c.2 != 0)

/-- Port 15 in a state, FABRIC, MINW x4. -/
def port15 (st : Nat) (x : BlPort) : State :=
  ((((up.setFld PORT_STAT.STATE 0 15 st).setFld PORT_CFG.ROLE 0 15 1).setFld PORT_STAT.WIDTH 0 15 3).setBlPort 15 x)

theorem wit_BrimlinkPorts_lanes : ([0, 8, 16] : List Nat) = maskBits 17 0x10101 ∧ ([15] : List Nat) = maskBits 17 0x8000 ∧
    ([7, 16] : List Nat) = maskBits 17 0x10080 ∧ ([0, 1, 8, 9] : List Nat) = maskBits 17 0x303 ∧
    (∀ k, k < 4 → 4 * 3 + k ∉ [0, 1, 8, 9]) := by decide

theorem wit_BrimlinkPorts_groups : ∀ g, g < 64 → up.fld GRP_CFG.EN 0 g = 0 := by decide +kernel

theorem wit_BrimlinkPorts_up : (port15 0 {}).portState 15 = 0 ∧ (port15 0 {}).brimReady 15 = true ∧
    (port15 0 {}).fld PORT_CFG.ROLE 0 15 = 1 ∧ (port15 1 {}).portState 15 = 1 ∧ (port15 4 { pause := 2 }).portState 15 = 4 ∧
    ((port15 4 { pause := 2 }).blPort 15).pause = 2 ∧ (port15 3 {}).portState 15 = 3 ∧
    ((port15 3 {}).fld PORT_STAT.LANE_FAIL 0 15).testBit 16 = false ∧ ((port15 3 {}).blPort 15).pause = 0 ∧
    (port15 4 { pause := 1 }).portState 15 = 4 ∧ ((port15 4 { pause := 1 }).blPort 15).pause = 1 ∧
    ((port15 4 { pause := 1 }).keptWidth 15 0).1 ≠ 0 ∧ (port15 5 {}).portState 15 = 5 ∧
    (∀ g, g < 64 → (port15 3 {}).fld GRP_CFG.EN 0 g = 0) := by decide +kernel

/-- A retrain that ends, a pause that ends with no width, a lane that fails with width and spare kept and changed, a port whose
width is gone, a fenced port that may not train. -/
theorem wit_BrimlinkPorts_lost : let s := (port15 4 { pause := 1 }).setFld PORT_STAT.LANE_FAIL 0 15 0xFFFF
    s.portState 15 = 4 ∧ (s.blPort 15).pause = 1 ∧ (s.keptWidth 15 (s.fld PORT_STAT.LANE_FAIL 0 15)).1 = 0 ∧
    ((port15 3 {}).keptWidth 15 1).1 ≠ 0 ∧ (port15 3 {}).keptWidth 15 1 ≠ (port15 3 {}).keptWidth 15 0 ∧
    (let u := (port15 3 {}).setFld PORT_STAT.LANE_FAIL 0 15 0xFFFE
     (u.fld PORT_STAT.LANE_FAIL 0 15).testBit 0 = false ∧ (u.keptWidth 15 ((u.failLanes 15 (2 ^ 0)).fld PORT_STAT.LANE_FAIL 0 15)).1 = 0) ∧
    (let u := port15 5 {}; (u.setFld PORT_CFG.ROLE 0 15 0).portMayTrain 15 = false ∧ (u.setFld PORT_CFG.ROLE 0 15 0).portState 15 = 5 ∧
      u.brimReady 15 = true ∧ ¬u.hb.stage < 5) := by decide +kernel

/-- The narrowest width MINW allows, and one it does not. -/
theorem wit_BrimlinkPorts_minw : (portWidth 0x303 none).1 = 1 ∧ (port15 3 {}).fld PORT_CFG.MINW 0 15 < 1 ∧
    ((port15 3 {}).setFld PORT_CFG.MINW 0 15 2).fld PORT_CFG.MINW 0 15 = 2 ∧ (portWidth 0x3 none).1 = 2 := by decide +kernel

theorem wit_BrimlinkPorts_fence : up.denied .hatband (.brimCsr (15 / 4) (0x100000 + 0x100 * (15 % 4))) = none ∧
    up.denied (.core 0) (.brimCsr (15 / 4) (0x100000 + 0x100 * (15 % 4))) ≠ none := by decide +kernel

/-- A DATA packet for module 2 of nine flits. -/
def pkt9 : BlPkt := { dst := 2, src := 3, dpt := 1, spt := 1, typ := 3, nflit := 9, ttl := 15, epoch := 0, pn := 5, fields := 0, body := [], tag := 0 }

theorem wit_BrimlinkPorts_stuck : let s := port15 3 { wait := [pkt9], credits := [256, 256, 0, 256] }
    (s.blPort 15).wait = [pkt9] ∧ vcOf pkt9.typ = 2 ∧ (s.blPort 15).credits.getD 2 0 = 0 ∧ (s.blPort 15).cur = [] ∧
    (s.blPort 15).nextOf 2 = some (0, pkt9) ∧
    s.withheld .BL_STUCK_DISCARD (72 + 15 / 4) uBrim 15 = false := by decide +kernel

/-- Module 1 with a session to module 2, whose route is port 3, and transfers; partition 1 and 0 admit it. -/
def peered (xs : Tbl Xfer) : State :=
  let s := ((((((((up.setFld BL_SELF.MODULE_ID 0 0 1).setFld BL_ROUTE.V 0 2 1).setFld BL_ROUTE.PRI 0 2 3).setFld BL_ROUTE.ALT_V 0 2 1).setFld
    BL_ROUTE.ALT 0 2 4).setFld PORT_STAT.STATE 0 3 3).setFld PORT_STAT.STATE 0 4 3).setFld (BL_ALLOW.A 2) 0 64 1)
  { s with brim := { s.brim with sessions := [(2, { epoch := 0, secret := 0 })], xfers := xs } }

theorem wit_canSend : ∀ vc, vc < 4 → (peered []).canSend 2 256 vc 3 := by
  intro vc h
  refine ⟨by decide +kernel, ⟨{ epoch := 0, secret := 0 }, by decide +kernel⟩, by decide +kernel, by decide +kernel, h, ?_, by decide +kernel,
    by decide +kernel, by decide +kernel⟩
  revert vc; decide +kernel

/-- A packet from module 2 for module 1. -/
def pktIn (typ fields : Nat) (body : List Byte) : BlPkt :=
  { dst := 1, src := 2, dpt := 1, spt := 1, typ := typ, nflit := 1, ttl := 15, epoch := 0, pn := 5, fields := fields, body := body, tag := 0 }

/-- Every packet of module 2 is accepted, of whatever type, fields and plaintext, where its tag is the one of that plaintext
(R243; log 40): the one thing the opaque cipher decides. -/
theorem wit_accepts (xs : Tbl Xfer) (typ fields : Nat) (body b : List Byte) (h : Config.blOpen (sessionKey 0 1) (sessionSalt 0 1) 5
    (pktHeader (pktIn typ fields body) 0) body 0 = some b) : (peered xs).accepts (pktIn typ fields body) b := by
  have hm : (peered xs).moduleId = 1 := (by decide +kernel : (peered []).moduleId = 1)
  have ha : (peered xs).admits 1 2 = true := (by decide +kernel : (peered []).admits 1 2 = true)
  refine ⟨hm.symm, ?_, ?_⟩
  · have hd : dirOf 2 ((peered xs).moduleId) = 1 := by rw [hm]; decide
    have hs : (peered xs).session 2 = some { epoch := 0, secret := 0 } := rfl
    simp only [State.authenticate, pktIn] at *
    rw [hs, hd]
    have hb : (PnWindow.bad {} 5) = false := by decide
    have h2 : Config.blOpen (sessionKey 0#256 1) (sessionSalt 0#256 1) 5 (pktHeader { dst := 1, src := 2, dpt := 1, spt := 1, typ := typ, nflit := 1, ttl := 15, epoch := 0, pn := 5, fields := fields, body := body, tag := 0 } 0) body 0 = some b := h
    simp only [if_true, hb, Bool.false_eq_true, if_false]
    rw [show (0 : BitVec 256) = 0#256 from rfl, h2]
  · split
    · exact ⟨1, by decide, ha⟩
    · exact ha

theorem wit_BrimlinkPackets_forward : let s := (peered []).setFld PORT_STAT.STATE 0 15 3
    s.portIsUp 15 = true ∧ s.brim.fenced.contains (15 / 4) = false ∧ pkt9.dst ≠ s.moduleId ∧ pkt9.dst < 4096 ∧ pkt9.ttl ≠ 0 ∧
    ({ pkt9 with ttl := 0 } : BlPkt).ttl = 0 ∧ s.withheld .BL_TTL_EXPIRED (72 + 15 / 4) uBrim 15 = false ∧
    s.fld BL_ROUTE.V 0 2 = 1 ∧ s.fld BL_ROUTE.PRI 0 2 = 3 ∧ s.portState 3 = 3 ∧ 9 ≤ (s.blPort 3).credits.getD 2 0 ∧
    (s.blPort 3).replay.length + 9 ≤ 2048 ∧ (s.blPort 3).wait = [] ∧ (s.blPort 3).cur = [] ∧ s.blRoute 2 = some 3 ∧
    ((s.setFld PORT_STAT.STATE 0 3 0).portState ((s.setFld PORT_STAT.STATE 0 3 0).fld BL_ROUTE.PRI 0 2) ∉ [3, 4] ∧
      s.fld BL_ROUTE.ALT_V 0 2 = 1 ∧ s.fld BL_ROUTE.ALT 0 2 = 4 ∧ s.portState 4 = 3) ∧
    s.fld BL_ROUTE.V 0 4095 = 0 ∧ s.withheld .BL_NO_ROUTE (72 + 15 / 4) uBrim 15 = false := by decide +kernel

theorem wit_BrimlinkPackets_auth : let s := peered []
    s.session 4 = none ∧ (∀ k, k ∈ [pktIn 3 0 [], pktIn 0 0 [], pktIn 9 0 []] → s.dataHeld k = false ∧ k.dst = s.moduleId) ∧
    ({ epoch := 0, secret := 0 } : Session).window.top < 5 + 65536 ∧ 5 ∉ ({ epoch := 0, secret := 0 } : Session).window.seen ∧
    ({ pktIn 3 0 [] with epoch := 1 } : BlPkt).epoch ≠ 0 ∧ ({ epoch := 0, secret := 0 } : Session).prev = none ∧
    s.withheld .BL_AUTH_FAIL 72 uBrim 16 = false ∧ s.withheld .BL_PEER_REFUSED 72 uBrim 16 = false ∧
    s.session 2 = some { epoch := 0, secret := 0 } ∧ s.admits 0 2 = false ∧ (9 : Nat) ∈ [1, 2, 4, 5, 6, 7, 9] ∧
    (0 : Nat) + 65536 ≤ (PnWindow.take {} 65536).top := by decide +kernel

theorem wit_BrimlinkPackets_mgmt : ({ pktIn 0xA 0 [1] with pn := 0 } : BlPkt).dst = (peered []).moduleId ∧
    ({ pktIn 0xA 0 [1] with pn := 0 } : BlPkt).typ = 0xA ∧ ({ pktIn 0xA 0 [1] with pn := 0 } : BlPkt).pn = 0 ∧
    (pktIn 0xA 0 [1]).tag = 0 := by decide +kernel

/-- A flit with a header and its right CRC. -/
def flitOf (h : Nat) : BlFlit := ⟨BitVec.ofNat 64 (flitCrc 0 h (bytes0 120) * 2 ^ 32 + h), bytes0 120, true⟩

theorem wit_BrimlinkPackets_flit : (peered []).portState 3 = 3 ∧ ((peered []).blPort 3).wait = [] ∧
    (let f := flitOf 0x93000; flitCrc 0 (bitsOf f.header.toNat 31 0) f.payload = bitsOf f.header.toNat 63 32 ∧
      bitsOf f.header.toNat 19 18 = 2 ∧ f.fecOk = true) ∧
    (let f := flitOf 0x8000; flitCrc 0 (bitsOf f.header.toNat 31 0) f.payload = bitsOf f.header.toNat 63 32 ∧
      bitsOf f.header.toNat 19 18 = 0 ∧ bitsOf f.header.toNat 14 14 = 0) ∧
    (let f := flitOf 0x40FC0; flitCrc 0 (bitsOf f.header.toNat 31 0) f.payload = bitsOf f.header.toNat 63 32 ∧
      bitsOf f.header.toNat 19 18 = 1) ∧
    flitCrc 1 (bitsOf (flitOf 0x8000).header.toNat 31 0) (bytes0 120) ≠ bitsOf (flitOf 0x8000).header.toNat 63 32 := by
  decide +kernel

theorem wit_BrimlinkPackets_session : let s := peered []
    s.brim.waiting = [] ∧ s.nv.fleetMinSvn ≤ 0 ∧ s.admits 1 2 = true ∧ (∀ p, p < 8 → s.admits p 4095 = false) ∧
    (let u : State := { s with brim := { s.brim with waiting := [⟨4, 1, 1, 0, 0, [], none⟩] } }
     u.session 4 = none ∧ (⟨4, 1, 1, 0, 0, [], none⟩ : BlMsg) ∈ u.brim.waiting.filter (fun w => w.dst == 4)) ∧
    s.session 2 = some { epoch := 0, secret := 0 } ∧ ({ epoch := 0, secret := 0 } : Session).fresh = false := by decide +kernel

/-- A bulk descriptor at SRAM byte 0: VER 1, peer module 2 or 4, TOTAL bytes, MATCH 7, XID, bitmap at 1024, record at 2048,
word at 3072. -/
def bulkDesc (ver peer xid total : Nat) : Nat :=
  (daSram + 2048) * 2 ^ 472 + (daSram + 3072) * 2 ^ 432 + ver * 2 ^ 368 + total * 2 ^ 328 + 7 * 2 ^ 296 + peer * 2 ^ 284 +
    xid * 2 ^ 256 + (daSram + 1024) * 2 ^ 216

def withDesc (s : State) (d : Nat) : State := { s with mem := cells (sramByte 0 0) (leBytes 64 d) }

theorem wit_sramAt : let s := withDesc (peered []) (bulkDesc 0x100 2 512 256)
    ∀ p, p ∈ [(ReqKind.read, 64), (.read, 8), (.write, 16), (.write, 256), (.write, 1), (.read, 1), (.atomic, 4), (.read, 256), (.read, 4),
      (.write, 4)] → ∀ o, o ∈ [0, 1024, 2048, 3072, 4096, 8192] → s.sramAt p.1 (.brimlink 3 1) (daSram + o) p.2 0 o := by
  unfold State.sramAt State.lanesClean; decide +kernel

theorem wit_BulkTransfers_bell : let s := withDesc (peered []) (bulkDesc 0x100 4 512 256)
    s.bellHeld 3 1 daSram = false ∧ s.descAt daSram = true ∧ s.descAt 0 = false ∧ s.descAt (daSram + 4) = false ∧
    s.sramWord (daSram + 3072) = true ∧ s.sramWord (daSram + 3074) = false ∧ s.bellHeld 3 1 (2 ^ 63 + 1) = false ∧
    s.ptSram 1 (daSram + 4096) = true ∧ s.ptSram 1 (daSram + 4096 + 255) = true ∧ s.ptSram 2 (daSram + 4096) = false := by decide +kernel

theorem wit_BulkTransfers_bad : bitsOf ((2 ^ 63 + 1 : Word)).toNat 39 0 % 64 ≠ 0 ∧ up.agentPt (.core 0) = some 1 ∧
    (Instr.collDoorbell (.core 0) 3 1 1, 16) ∈ [(Instr.sendDoorbell (.core 0) 3 1 1, 0), (.recvDoorbell (.core 0) 3 1 1, 8),
      (.collDoorbell (.core 0) 3 1 1, 16)] := by decide +kernel

theorem wit_BulkTransfers_desc : let s := withDesc (peered []) (bulkDesc 0x100 4 512 256)
    let d := leNat (memBytes s.mem (sramByte 0 0) 64)
    (BitVec.ofNat 64 daSram).toNat % 64 = 0 ∧ bitsOf d 215 215 = 0 ∧ bitsOf d 391 368 % 256 = 0 ∧ bitsOf d 391 368 ≠ 0 ∧ bitsOf d 214 0 = 0 ∧
    s.session (bitsOf d 295 284) = none ∧ bitsOf d 267 256 / 512 = 1 ∧ s.brim.xfers = [] ∧
    (xferPkts (bitsOf d 367 328) + 7) / 8 = 1 ∧ bitsOf d 255 216 = daSram + 1024 := by decide +kernel

theorem wit_BulkTransfers_badDesc : let s := withDesc (peered []) (bulkDesc 1 4 512 256)
    let d := leNat (memBytes s.mem (sramByte 0 0) 64); bitsOf d 215 215 = 0 ∧ bitsOf d 391 368 % 256 ≠ 0 := by decide +kernel

/-- A transfer with module 2 of partition 1: the map's words at SRAM byte 0, bitmap 1024, record 2048, word 3072. -/
def xf (sender : Bool) (phase total : Nat) : Xfer :=
  { sender := sender, die := 3, pt := 1, statDa := daSram + 2048, semDa := daSram + 3072, mapDa := daSram, unit := 256, total := total,
    matchId := 7, peer := 2, xid := 512, bitmap := daSram + 1024, weights := false, phase := phase }

/-- A state with one transfer, whose map's first word names SRAM byte 4096. -/
def xfering (x : Xfer) : State := { peered [(0, x)] with mem := cells (sramByte 0 0) (leBytes 8 (daSram + 4096)) }

theorem wit_BulkTransfers_one : ∀ x, x ∈ [xf true 0 256, xf true 1 256, xf true 2 256, xf false 0 256, xf false 1 256] →
    (xfering x).oneXfer (fun y => y.sender = x.sender ∧ y.matchId = 7 ∧ y.peer = 2 ∧ y.xid = 512 ∧ y.pt = 1 ∧ y.phase = x.phase ∧
      (xfering x).admits y.pt 2 = true) 0 x ∧ Tbl.find (xfering x).brim.xfers 0 = some x ∧ x.sub = none ∧ x.hatband = false ∧
      x.weights = false ∧ x.missing = 0 ∧ x.mask = 0 ∧ (xfering x).dataHeld (pktIn 3 (512 * 2 ^ 84 + 256 * 2 ^ 39) []) = false ∧
      (xfering x).session 2 = some { epoch := 0, secret := 0 } ∧
      leNat (memBytes (xfering x).mem (sramByte 0 0) 8) % 2 ^ 40 = daSram + 4096 ∧ x.total ≤ x.unit ∧ xferPkts x.total = 1 ∧
      leNat (memBytes (xfering x).mem (sramByte 0 1024) 1) = 0 := by
  intro x hx
  have h1 : (xfering x).brim.xfers = [(0, x)] := rfl
  have hc : ∀ x, x ∈ [xf true 0 256, xf true 1 256, xf true 2 256, xf false 0 256, xf false 1 256] →
      (xfering x).admits 1 2 = true ∧ x.matchId = 7 ∧ x.peer = 2 ∧ x.xid = 512 ∧ x.pt = 1 ∧ Tbl.find (xfering x).brim.xfers 0 = some x ∧
      x.sub = none ∧ x.hatband = false ∧ x.weights = false ∧ x.missing = 0 ∧ x.mask = 0 ∧
      (xfering x).dataHeld (pktIn 3 (512 * 2 ^ 84 + 256 * 2 ^ 39) []) = false ∧ (xfering x).session 2 = some { epoch := 0, secret := 0 } ∧
      leNat (memBytes (xfering x).mem (sramByte 0 0) 8) % 2 ^ 40 = daSram + 4096 ∧ x.total ≤ x.unit ∧ xferPkts x.total = 1 ∧
      leNat (memBytes (xfering x).mem (sramByte 0 1024) 1) = 0 := by decide +kernel
  obtain ⟨ha, hm, hp, hi, ht, hr⟩ := hc x hx
  refine ⟨⟨by rw [h1]; exact List.mem_singleton.mpr rfl, ⟨rfl, hm, hp, hi, ht, rfl, by rw [ht]; exact ha⟩, ?_⟩, hr⟩
  intro y hy _
  rw [h1] at hy
  exact List.mem_singleton.mp hy

theorem wit_BulkTransfers_close : (List.range 1).filter (fun i => !Nat.testBit 0 i) ≠ [] ∧
    (List.range 1).filter (fun i => !Nat.testBit 1 i) = [] ∧ ({ xf false 1 256 with rounds := 3 } : Xfer).rounds = 3 ∧
    Status.ofCode 0x0C = .stateConflict ∧ Status.ofCode 0x0E ≠ .stateConflict := by decide +kernel

/-- Tile 0 of partition 1 with a weight image, and a request for its weights. -/
def weighty : State := (peered []).setPart 1 { weight := some 5 }

theorem wit_BulkTransfers_refill : let b := leBytes 4 7 ++ leBytes 1 0 ++ leBytes 64 5
    leNat ((b.drop 4).take 1) = 0 ∧ weighty.partOfTile 0 = some 1 ∧ (weighty.part 1).state < 2 ∧ weighty.admits 1 2 = true ∧
    (weighty.part 1).weight = some (BitVec.ofNat 512 (leNat ((b.drop 5).take 64))) ∧ (peered []).partOfTile 0 = some 1 ∧
    ((peered []).part 1).weight ≠ some (BitVec.ofNat 512 (leNat ((b.drop 5).take 64))) := by decide +kernel

theorem wit_BulkTransfers_refill_send : weighty.canSend 2 13 0 3 :=
  ⟨by decide +kernel, ⟨{ epoch := 0, secret := 0 }, by decide +kernel⟩, by decide +kernel⟩

/-- Group 63 of partition 1: a root without children, or a member with children 4 and 5 and parent 2. -/
def grouped (root en : Nat) (g : Group) (d : Nat) : State :=
  let s := (((((((peered []).setFld GRP_CFG.EN 0 63 en).setFld GRP_CFG.ROOT 0 63 root).setFld GRP_CFG.PT 0 63 1).setFld
    GRP_CFG.NKIDS 0 63 (2 - 2 * root)).setFld GRP_CFG.PARENT 0 63 2).setFld (GRP_KIDS.KID 0) 0 126 4).setFld (GRP_KIDS.KID 1) 0 126 2
  let u := s.setFld GRP_KIDS.GTAG 0 126 0xFFFF
  { withDesc u d with brim := { u.brim with groups := [(63, g)] } }

/-- A collective descriptor at SRAM byte 0: record at 2048, word at 3072, destination 4096, source 8192. -/
def collDescr (seq len op : Nat) : Nat :=
  (daSram + 2048) * 2 ^ 472 + (daSram + 3072) * 2 ^ 432 + (daSram + 4096) * 2 ^ 392 + (daSram + 8192) * 2 ^ 352 + seq * 2 ^ 336 +
    len * 2 ^ 320 + op * 2 ^ 318

theorem wit_Collectives_bell : ∀ p, p ∈ [(1, 0, 3), (1, 256, 0)] → let s := grouped 1 1 {} (collDescr p.1 p.2.1 p.2.2)
    let val := BitVec.ofNat 64 (63 * 2 ^ 58 + daSram); let d := leNat (memBytes s.mem (sramByte 0 0) 64)
    bitsOf val.toNat 63 58 = 63 ∧ s.bellHeld 3 1 val.toNat = false ∧ s.sramWord (bitsOf d 471 432) = true ∧
    s.ptSram 1 (bitsOf d 431 392) = true ∧ (p.2.1 = 0 ∨ s.ptSram 1 (bitsOf d 431 392 + p.2.1 - 1) = true) ∧ bitsOf val.toNat 39 0 % 64 = 0 ∧ bitsOf val.toNat 39 0 = daSram ∧ s.fld GRP_CFG.EN 0 63 = 1 ∧
    s.fld GRP_CFG.ROOT 0 63 = 1 ∧ s.fld GRP_CFG.NKIDS 0 63 = 0 ∧ s.group 63 = {} ∧ s.fld GRP_CFG.PT 0 63 = 1 ∧
    bitsOf d 351 336 = (s.fld GRP_STAT.SEQ_DONE 0 63 + 1) % 65536 ∧ bitsOf d 314 0 = 0 ∧ bitsOf d 317 316 ≠ 3 ∧
    bitsOf d 319 318 = p.2.2 ∧ bitsOf d 335 320 = p.2.1 := by decide +kernel

theorem wit_Collectives_sram : let s := grouped 1 1 {} (collDescr 1 256 0)
    ∀ p, p ∈ [(ReqKind.read, 64), (.read, 256), (.write, 256), (.write, 16), (.atomic, 4)] →
      ∀ o, o ∈ [0, 2048, 3072, 4096, 8192] → s.sramAt p.1 (.brimlink 3 1) (daSram + o) p.2 0 o := by
  unfold State.sramAt State.lanesClean; decide +kernel

/-- The same of core 1, where a destination or a source apart from the record lies. -/
theorem wit_Collectives_core1 : let s := grouped 1 1 {} (collDescr 1 256 0)
    s.sramAt .write (.brimlink 3 1) (daSram + 2 ^ 23) 256 1 0 ∧ s.sramAt .read (.brimlink 3 1) (daSram + 2 ^ 23 + 256) 256 1 256 := by
  unfold State.sramAt State.lanesClean; decide +kernel

theorem wit_Collectives_packet : let s := grouped 0 1 {} 0; let f := fun kind => 0xFFFF * 2 ^ 80 + 1 * 2 ^ 64 + kind * 2 ^ 34
    (∀ kind, kind < 4 → bitsOf (f kind) 37 34 = kind ∧ bitsOf (f kind) 95 80 = 0xFFFF ∧
      bitsOf (f kind) 79 64 = (s.fld GRP_STAT.SEQ_DONE 0 63 + 1) % 65536) ∧
    s.fld GRP_KIDS.GTAG 0 (2 * 63) = 0xFFFF ∧ (∀ j, j < 64 → s.fld GRP_KIDS.GTAG 0 (2 * j) = 0xFFFF → j = 63) ∧
    (grouped 0 0 {} 0).fld GRP_CFG.EN 0 63 = 0 ∧ s.fld GRP_CFG.EN 0 63 = 1 ∧ 2 ∈ s.grpKids 63 ∧ s.fld GRP_CFG.POLICY 0 63 = 0 := by
  decide +kernel

theorem wit_Collectives_times : let s := grouped 0 1 { desc := some ⟨3, 0, 0, 0, 0, 65535, 4, 1, 0, 0⟩ } 0
    s.fld GRP_CFG.EN 0 63 = 1 ∧ (s.group 63).desc = some ⟨3, 0, 0, 0, 0, 65535, 4, 1, 0, 0⟩ ∧ 4 ∈ s.grpKids 63 ∧ 4 ∉ (s.group 63).heard ∧
    4 ∉ (s.group 63).late ∧ (∀ d, (s.group 63).desc = some d → d.op ≠ 0) ∧
    (let u := (grouped 0 1 {} 0).setFld GRP_CFG.NKIDS 0 63 0; (u.group 63).desc = none ∧ u.fld GRP_CFG.NKIDS 0 63 = 0 ∧ u.waitedBy 63 = [2]) ∧
    (grouped 1 1 { desc := some ⟨3, 0, 0, 0, 0, 1, 4, 2, 0, 0⟩ } 0).fld GRP_CFG.ROOT 0 63 = 1 ∧ (s.group 63).sent = false ∧ s.fld GRP_CFG.ROOT 0 63 = 0 ∧ s.fld GRP_CFG.PARENT 0 63 = 2 := by
  decide +kernel

theorem wit_Collectives_send : (grouped 0 1 { desc := some ⟨3, 0, 0, 0, 0, 65535, 4, 1, 0, 0⟩ } 0).canSend 2 0 3 3 :=
  ⟨by decide +kernel, ⟨{ epoch := 0, secret := 0 }, by decide +kernel⟩, by decide +kernel⟩

/-! ## Witnesses: panel mesh -/

/-- Router 0 knows endpoint 71 by its east port, in every class. -/
def routed (lk : Nat) (m : Mesh) : State :=
  let s := (((((up.setFld ROUTE.V 0 71 1).setFld (ROUTE.PORT 0) 0 71 2).setFld (ROUTE.PORT 1) 0 71 2).setFld (ROUTE.PORT 2) 0 71 2).setFld
    (ROUTE.PORT 3) 0 71 2).setFld MESH_LINK.STATE 0 1 lk
  { s with mesh := m }

/-- A mesh packet of core 0 of site 0. -/
def mpk (op dst : Nat) : MeshPkt := { da := daSram, len := 8, op := op, unit := 0, tag := 0, dst := dst, src := 0, spt := 1, hb := false }

theorem wit_MeshPackets_forward : ∀ op, op ∈ [0, 1, 2, 3, 5] → let s := routed 2 {}; let k : MeshPkt := { mpk op 71 with data := bytes0 8 }; let c := classOf k.op
    s.egressCheck 0 k = .pass ∧ s.mesh.paused = [] ∧ (s.meshEnd 0 1).out = [] ∧ (s.meshEnd 0 1).replay.length + meshFlits k ≤ 128 ∧
    (routed 2 { paused := [(0, 1)] }).egressCheck 0 k = .pass ∧ (routed 2 { paused := [(0, 1)] }).mesh.paused ≠ [] ∧ k.src = 0 ∧
    (c = if k.op = 3 then 1 else if k.op = 4 then 3 else 0) ∧ k.op ≠ 4 ∧ k.dst ≠ 0 ∧ k.dst < 76 ∧
    s.fld (ROUTE.PORT c) 0 k.dst = 2 ∧ linkOk 0 1 = true ∧ s.fld ROUTE.V 0 k.dst = 1 ∧ s.fld ROUTE.UNREACH 0 k.dst = 0 ∧ s.linkState 0 1 = 2 ∧
    meshFlits k ≤ (s.meshEnd 0 1).credits.getD c 0 ∧ s.mesh.waiting = [] ∧
    (routed 1 {}).linkState 0 1 ≠ 2 := by decide +kernel

theorem wit_MeshPackets_noRoute : up.fld ROUTE.V 0 71 = 0 ∧ (mpk 2 71).op ≤ 2 ∧ (mpk 2 71).unit < 4 ∧
    ((routed 2 {}).setFld ROUTE.UNREACH 0 71 1).fld ROUTE.UNREACH 0 71 = 1 := by decide +kernel

/-- A packet that fails its source tile's checks, and a multicast. -/
theorem wit_MeshPackets_checked : (routed 2 {}).egressCheck 0 (mpk 1 71) ≠ .pass ∧
    (routed 2 {}).egressCheck 0 (mpk 4 127) = .pass ∧ (mpk 4 127).mbz = 0 ∧ (mpk 4 127).op = 4 := by decide +kernel

theorem wit_MeshPackets_check : up.mgmtCheck .read 0 0x600008 8 = .ok ∧ up.mgmtCheck .write 0 0x600008 8 = .ok ∧
    up.mgmtCheck .read 0 0x600004 8 ≠ .ok := by decide +kernel

theorem wit_MeshPackets_arrived : (mpk 6 0).dst = 0 ∧ (mpk 6 0).unit < 4 ∧ 6 ≤ (mpk 6 0).op ∧ (mpk 2 0).op ≤ 2 ∧
    ({ mpk 2 0 with mbz := 1 } : MeshPkt).mbz ≠ 0 ∧ (mpk 0 0).op = 0 ∧ (mpk 1 0).op = 1 ∧ (mpk 3 0).op = 3 ∧ (mpk 0 0).mbz = 0 := by
  decide

/-- A response on its way. -/
def rsp : Resp := ⟨.core 0, 7, .ok, 8, []⟩

theorem wit_MeshPackets_response : let s := routed 2 { responses := [rsp] }
    rsp ∈ s.mesh.responses ∧ rsp.by_ = .core 0 ∧ rsp.tag = 7 ∧ (∀ y, y ∈ s.mesh.responses → y.by_ = .core 0 → y.tag = 7 → y = rsp) ∧
    (Agent.core 0, 7) ∉ s.mesh.absorbing ∧ (Agent.core 0, 7) ∈ (routed 2 { responses := [rsp], absorbing := [(.core 0, 7)] }).mesh.absorbing := by
  decide +kernel

theorem wit_MeshPackets_mgmt : (71 : Nat) < 72 ∧ (3 : Nat) < 4 ∧ (33 : Nat) < 34 ∧ grOk 0 1 = true ∧
    up.fld FUL_STAT.FENCED (coreKey 71 3) 33 = 0 ∧ up.fulInSwap (coreKey 71 3) 33 = false ∧ up.fld FUL_STAT.STATE (coreKey 71 3) 33 = 0 ∧
    0x600008 / 0x200000 = 3 ∧ 0x600008 % 8 = 0 ∧ (up.setFld RESET_STAT.TILE_CAUSE 71 0 3).coreFenced (coreKey 71 3) = true := by
  decide +kernel

theorem wit_MeshPackets_msg : up.ltileOf (siteOf 3) = some 0 ∧ up.decodeDa (2 * 2 ^ 38 + 0 * 2 ^ 24 + 0x200000 * coreNo 3 + 0x90) = .coreCsr 3 0x90 ∧
    up.checkReq .read (.core 0) (2 * 2 ^ 38 + 0 * 2 ^ 24 + 0x200000 * coreNo 3 + 0x90) 8 = .pass ∧ (up.core 3).msgFifo = [] ∧
    ((up.setCore 3 { msgFifo := [(3, 2 ^ 32 - 1)] }).core 3).msgFifo = (3, 2 ^ 32 - 1) :: [] := by decide +kernel

theorem wit_MeshPackets_wake : let s : State := { up with held := [.read (.core 0) 7 daSram 8] }
    s.held = [.read (.core 0) 7 daSram 8] ∧ s.decodeDa daSram = .sram 0 0 ∧ s.checkReq .read (.core 0) daSram 8 = .pass ∧
    s.fld SRAM_STAT.CLEARING 0 0 = 0 := by decide +kernel

theorem wit_MeshPackets_wake_lanes : ({ up with held := [.read (.core 0) 7 daSram 8] } : State).lanesClean 0 0 8 := by
  unfold State.lanesClean; decide +kernel

theorem wit_MeshLinks_width : (2 : Nat) < 3 ∧ linkWidth [(0, 0), (0, 1)] 2 = 2 ∧ linkWidth [(0, 0), (0, 1), (31, 0), (31, 1)] 0 = 1 ∧
    linkWidth ([0, 8, 16, 24].flatMap (fun g => [(g, 0), (g, 32)])) 0 = 0 ∧ linkWidth [(5, 32)] 0 = 3 := by decide

theorem wit_MeshLinks_states : (∀ st, st < 5 → (routed st {}).linkState 0 1 = st) ∧ linkOk 0 1 = true ∧ linkPeer 0 1 = (1, 3) ∧
    linkOk 75 8 = true ∧ up.ltileOf 0 = some 0 ∧ (routed 3 {}).dieHeld 0 = false ∧ (routed 3 {}).dieHeld 1 = false ∧ 5 < up.hb.stage := by decide +kernel

/-- Four routers that send round for endpoint 71. -/
def ringTables : List (Nat × Nat × Word) := [(0, 71, 0x12222), (1, 71, 0x13333), (9, 71, 0x14444), (8, 71, 0x11111)]

theorem wit_MeshLinks_tables : let s := routed 0 { paused := [(0, 1)] }
    s.mesh.paused = [(0, 1)] ∧ s.mesh.switched = false ∧ s.meshHoldsOnlyWaiting = true ∧ s.meshEmpty = true ∧ s.mesh.inject = [] ∧
    s.mesh.waiting = [] ∧
    ((routed 0 {}).setMeshEnd 0 1 { replay := [(⟨0, 0, []⟩, [mpk 0 71])] }).meshHoldsOnlyWaiting = false ∧ (∀ x, x ∈ [((0 : Nat), (75 : Nat), (0x12222 : Word))] → x.2.1 < 76) := by
  decide +kernel

/-- The row of an endpoint in the dependencies of a class. -/
def depRow (t : Tables) (c e : Nat) : List (Nat × Nat) :=
  (List.range 76).filterMap (fun r =>
    match hop t r e c with
    | some (d, r') =>
      (match hop t r' e c with
       | some (d', _) => if r' = e then none else some (16 * r + d, 16 * r' + d')
       | none => none)
    | none => none)

/-- Tables that only endpoint `e` has routes of have only its dependencies. -/
theorem channelDeps_one {t : Tables} {c e0 : Nat} (he0 : e0 < 76) (h : ∀ e, e < 76 → e ≠ e0 → depRow t c e = []) :
    channelDeps t c = depRow t c e0 := by
  have hl : ∀ l : List Nat, (∀ e, e ∈ l → e < 76) → l.Nodup → l.flatMap (depRow t c) = if e0 ∈ l then depRow t c e0 else [] := by
    intro l
    induction l with
    | nil => intro _ _; rfl
    | cons x xs ih =>
      intro hm hn
      rw [List.nodup_cons] at hn
      rw [List.flatMap_cons, ih (fun e he => hm e (List.mem_cons_of_mem _ he)) hn.2]
      by_cases hx : x = e0
      · subst hx; simp [hn.1]
      · rw [h x (hm x List.mem_cons_self) hx]; simp [Ne.symm hx]
  have := hl (List.range 76) (fun e he => List.mem_range.mp he) List.nodup_range
  rw [if_pos (List.mem_range.mpr he0)] at this
  exact this

theorem wit_MeshLinks_acyclic : routesAcyclic ((routed 0 { paused := [(0, 1)] }).tablesWith [(0, 75, 0x12222)]) = true := by
  have h : ∀ c, c < 4 → ∀ e, e < 76 → depRow ((routed 0 { paused := [(0, 1)] }).tablesWith [(0, 75, 0x12222)]) c e = [] := by
    decide +kernel
  refine List.all_eq_true.mpr fun c hc => ?_
  have hc4 := List.mem_range.mp hc
  rw [channelDeps_one (e0 := 0) (by decide) (fun e he _ => h c hc4 e he), h c hc4 0 (by decide)]
  decide

theorem wit_MeshLinks_cyclic : routesAcyclic ((routed 0 { paused := [(0, 1)] }).tablesWith ringTables) = false := by
  have h : ∀ e, e < 76 → e ≠ 71 → depRow ((routed 0 { paused := [(0, 1)] }).tablesWith ringTables) 0 e = [] := by decide +kernel
  have h1 : depRow ((routed 0 { paused := [(0, 1)] }).tablesWith ringTables) 0 71 = [(1, 18), (18, 147), (128, 1), (147, 128)] := by
    decide +kernel
  refine List.all_eq_false.mpr ⟨0, by decide, ?_⟩
  rw [channelDeps_one (by decide) h, h1]
  decide

/-- A mesh flit with a sideband word and its right CRC. -/
def mflit (h : Nat) : MeshFlit := ⟨BitVec.ofNat 64 (meshCrc 0 h (bytes0 128) * 2 ^ 32 + h), bytes0 128⟩

set_option maxRecDepth 4000 in
theorem wit_MeshLinks_flit : (routed 2 {}).linkState 0 1 = 2 ∧ (routed 2 {}).mesh.switched = false ∧ ((routed 2 {}).meshEnd 0 1).out = [] ∧
    (∀ v, v ∈ ((routed 2 {}).meshEnd 0 1).owed → v = 0) ∧ (routed 2 {}).mesh.waiting = [] ∧ (let f := mflit 0x40FF00; bitsOf f.sideband.toNat 23 22 = 1 ∧
      meshCrc 0 (bitsOf f.sideband.toNat 31 0) f.data = bitsOf f.sideband.toNat 63 32) ∧
    bitsOf (mflit 0xC00000).sideband.toNat 23 22 = 3 ∧
    meshCrc 1 (bitsOf (mflit 0).sideband.toNat 31 0) (bytes0 128) ≠ bitsOf (mflit 0).sideband.toNat 63 32 := by decide +kernel

theorem wit_MeshLinks_clock : up.supply.on = true ∧ up.hb.halted = false ∧ (71 : Nat) < 72 ∧ linkOk 71 3 = true := by decide +kernel

/-! ## Witnesses: bring-up -/

/-- Bring-up in a stage. -/
def staged (n : Nat) : State := { State.reset with hb := { stage := n } }

theorem wit_BringupStages : (∀ n, n < 7 → n ≠ 0 → (staged n).inStage n = true) ∧ (staged 1).slotBoots (staged 1).nv.active = true ∧
    (1999 : Nat) < 2000 ∧ popCount 5 0x1E = 4 ∧ popCount 5 0x16 < 4 ∧ (staged 2).badPhases 71 3 = 0 ∧ (staged 6).pcie.perst = true ∧
    ({ staged 6 with pcie := { perst := false } } : State).inStage 6 = true ∧
    ({ staged 6 with boot := { linkTurn := true } } : State).boot.linkTurn = true := by decide +kernel

/-- A bank with one failing beat has spares for it, one with 40 failing rows has not. -/
theorem wit_BringupStages_banks : let b : BankTest := { site := 71, core := 3, chan := 17, bank := 15, beats := [(2047, 63)] }
    let b2 : BankTest := { b with beats := (List.range 40).map (fun r => (r, r)) }
    let x := (staged 3).chan (coreKey 71 3) 17
    (staged 3).inStage 3 = true ∧ b.beats ≠ [] ∧ (bankRows b).length ≤ x.rowsLeft 15 ∧ (bankCols b).length ≤ x.colsLeft 15 ∧
    b2.beats ≠ [] ∧ x.rowsLeft 15 < (bankRows b2).length := by decide +kernel

theorem wit_BringupStages_ports : (staged 6).portsBusy = false ∧ ((staged 6).setFld PORT_STAT.STATE 0 15 1).portsBusy = true ∧
    (staged 4).slotStandsIn (staged 4).nv.active = true := by decide +kernel

theorem wit_BringupStages_blocking : (staged 4).checkImage (Tbl.at ((staged 4).slot (staged 4).nv.active).images 4 []) = .bad 1 0 .auth ∧
    (staged 4).slotStandsIn (1 - (staged 4).nv.active) = false := by decide +kernel

theorem wit_PowerUpAndReblock_power : let off : State := { State.reset with supply := { input := false, on := false }, hb := { stage := 0 } }
    off.supply.modEn = true ∧ off.supply.latch = false ∧ off.supply.on = false ∧
    ({ input := true, modEn := false, on := false, latch := true } : Supply).input = true ∧
    ({ powerDown := true } : Supply).powerDown = true ∧ State.reset.supply.on = true ∧ State.reset.supply.powerDown = false ∧
    up.boot.restarting = false ∧ (∀ x, x ∈ up.parts → x.2.state ≠ 1 ∧ x.2.state ≠ 2) ∧ up.hb.halted = false ∧ up.boot.failed = false ∧
    up.boot.stopped = false ∧ ((1, ({ state := 2 } : Part)) ∈ (up.setPart 1 { state := 2 }).parts) ∧
    ({ restarting := true } : Boot).restarting = true := by decide +kernel

/-- A re-block of partition 1 that serves a command of PF0. -/
def reblocking : State :=
  { hostWith 4 [{ sub0 0x0C [(4, 1)] with busy := true }] with reblocks := [(1, ⟨0, 5, [0], [(0, 1)], up.image, 0, false⟩)] }

theorem wit_PowerUpAndReblock_reblock : Tbl.find reblocking.reblocks 1 = some ⟨0, 5, [0], [(0, 1)], up.image, 0, false⟩ ∧
    { sub0 0x0C [(4, 1)] with busy := true } ∈ (reblocking.fn 0).subs ∧ (sub0 0x0C [(4, 1)]).id = 5 ∧
    (∀ z, z ∈ (reblocking.fn 0).subs → z.id = 5 → z = { sub0 0x0C [(4, 1)] with busy := true }) ∧ (reblocking.fn 0).flr = none ∧
    (∀ z, z ∈ (reblocking.fn 0).subs → z.busy = true → z.opc ≠ 4) := by decide +kernel

/-! ## Witnesses: partial reset -/

/-- A reset or test of the tile on site 0. -/
def resetting (op m : Nat) : State := { up with resets := [(0, { op := op, cmask := m })] }

theorem wit_FencesAndResets : up.ltileOf 0 = some 0 ∧ Tbl.find up.resets 0 = none ∧
    up.fld (RESET_STAT.CORE_CAUSE 3) 0 0 ∈ [0, 1, 9] ∧
    (up.setFld (RESET_STAT.CORE_CAUSE 3) 0 0 2).fld (RESET_STAT.CORE_CAUSE 3) 0 0 ∉ [0, 1, 9] ∧
    (up.fld RESET_STAT.TEST_PASS 0 0).testBit 3 = false ∧ ((up.setFld RESET_STAT.TEST_PASS 0 0 8).fld RESET_STAT.TEST_PASS 0 0).testBit 3 = true ∧
    (15 : Nat).testBit 3 = true ∧ up.fld RESET_STAT.TILE_CAUSE 0 0 = 0 ∧ (0 : Nat) ∉ up.tilePass ∧
    (up.setFld RESET_STAT.TILE_CAUSE 0 0 2).fld RESET_STAT.TILE_CAUSE 0 0 ∉ [0, 1, 9] ∧
    (up.setFld RESET_STAT.TILE_CAUSE 0 0 2).fld RESET_STAT.TILE_CAUSE 0 0 ≠ 0 ∧ up.fld (RESET_STAT.CORE_CAUSE 3) 0 0 = 0 := by
  decide +kernel

theorem wit_FencesAndResets_runs : ∀ op m, Tbl.find (resetting op m).resets 0 = some { op := op, cmask := m } ∧
    ({ op := op, cmask := m } : ResetRun).part = none ∧ ({ op := op, cmask := m } : ResetRun).writes = [] ∧
    (2 : Nat) ≠ 6 := fun _ _ => ⟨rfl, rfl, rfl, by decide⟩

theorem wit_FencesAndResets_idle : (resetting 2 8).held = [] ∧ (resetting 2 8).stalled = [] ∧ (∀ n, n < 4 →
    Nat.testBit 8 n = true → n = 3) := by decide +kernel

theorem wit_FencesAndResets_dies : (1 : Nat) ∉ up.brim.fenced ∧ (3 : Nat) ∉ up.brim.fenced ∧ (2 : Nat) ∉ up.brim.fenced ∧ up.hb.active = 0 ∧
    Tbl.find up.loaded (regKey .QCFG (coreKey 0 3) 3) = none := by decide +kernel

/-! ## Witnesses: power -/

/-- A module with five bricks, and core 0 at 750 mV. -/
def powered : State :=
  let s := up.setFlds [(PWR_MEAS.BRICKS, 0, 0, 31), (CORE_PWR_STAT.PHASES, 0, 0, 15), (DOM_STAT.PHASES, 0, 0, 0xFF)]
  { s with image := { s.image with points := [(0, 40 * 2 ^ 96 + 750 * 2 ^ 32)] } }

theorem wit_PowerFaults : powered.supply.on = true ∧ powered.fld PWR_MEAS.BRICKS 0 0 ≠ 0 ∧ popCount 5 0x07 = 3 ∧ popCount 5 0x03 = 2 ∧
    powered.pwrState 0 = 0 ∧ (List.replicate 8 750).length = 8 ∧ domOk ⟨0, 0, 0⟩ = true ∧ domOk ⟨75, 7, 0⟩ = true ∧
    (3 : Nat) < domPhases 0 ∧ powered.domOn ⟨0, 0, 0⟩ = true ∧ (powered.dom ⟨0, 0, 0⟩).lost = [] ∧
    ((powered.setDom ⟨0, 0, 0⟩ { lost := [1] }).dom ⟨0, 0, 0⟩).lost ≠ [] ∧ (powered.setDom ⟨0, 0, 0⟩ { lost := [1] }).domOn ⟨0, 0, 0⟩ = true ∧
    (3 : Nat) ∉ ((powered.setDom ⟨0, 0, 0⟩ { lost := [1] }).dom ⟨0, 0, 0⟩).lost ∧
    (powered.setPoint ⟨0, 0, 0⟩).1 * 100 + 12 * (powered.setPoint ⟨0, 0, 0⟩).2 < 921 * 100 ∧
    550 * 100 ≤ (powered.setPoint ⟨0, 0, 0⟩).1 * 100 + 12 * (powered.setPoint ⟨0, 0, 0⟩).2 ∧
    (∀ c, c ∈ [1, 2, 3, 4] → powered.domOn ⟨0, c, 0⟩ = true) ∧ powered.domOn ⟨72, 5, 0⟩ = true ∧ powered.domOn ⟨74, 5, 0⟩ = true ∧
    ((powered.setDom ⟨0, 0, 0⟩ { isolated := true, dark := true }).dom ⟨0, 0, 0⟩).isolated = true := by decide +kernel

theorem wit_PowerSwitching : up.ltileOf 0 = some 0 ∧ up.denied .hatband (.tileCsr 0 0x5000) = none ∧ up.coreEnabled (coreKey 0 3) = true ∧
    up.coreFenced (coreKey 0 3) = false ∧ up.pwrState (coreKey 0 3) = 0 ∧ up.coreIdle (coreKey 0 3) = true ∧
    (at0 3 0).coreIdle (coreKey 0 0) = false ∧
    (∀ st, st < 4 → (up.setFld CORE_PWR_STAT.STATE 0 3 st).pwrState (coreKey 0 3) = st) ∧ (up.dom (vcore (coreKey 0 3))).ramp = 0 ∧
    (up.setFld (RESET_STAT.CORE_CAUSE 3) 0 0 1).coreFenced (coreKey 0 3) = true := by decide +kernel

theorem wit_PowerSwitching_ramp : ∀ r, r < 4 → ((up.setDom ⟨0, 0, 3⟩ { ramp := r }).dom ⟨0, 0, 3⟩).ramp = r ∧
    ((up.setDom ⟨0, 4, 0⟩ { ramp := r }).dom ⟨0, 4, 0⟩).ramp = r ∧ up.withheld .ADMIT_SLOW 0 (domUnit ⟨0, 0, 3⟩) 0 = false ∧
    ((up.setCpw 3 { fromOff := true }).cpw (domCore ⟨0, 0, 3⟩)).fromOff = true ∧ (up.cpw (domCore ⟨0, 0, 3⟩)).fromOff = false ∧
    ((up.setCpw 3 { move := some 3 }).cpw 3).move = some 3 := by decide +kernel

/-- Tile 0 capped at 40 W. -/
def capped : State := up.setFlds [(PWR_MEAS.ETA, 0, 0, 920), (PWR_CAP.CAP, 0, 0, 40), (MOD_CAP.HOST, 0, 0, 3000), (MOD_CAP.MGMT, 0, 0, 3000), (MOD_CAP.LIMIT, 0, 0, 3000),
  (PT_CAP.CAP, 0, 1, 3000)]

theorem wit_PowerControl : up.pwrState 0 = 0 ∧ (3 : Nat) < 4 ∧ up.withheld .DROOP_MANY 0 0 0 = false ∧ up.withheld .EST_DRIFT 0 0 0 = false ∧
    up.supply.on = true ∧ up.enabledCores = [0, 1, 2, 3] ∧ capped.capKeys = [0, 17, 256] ∧ capped.capWatts 256 = some 40 ∧
    40 * 1000 < (capped.setFld MOD_CAP.EFFECTIVE 0 0 3000).capMw [(0, 100000)] 0 256 ∧
    (capped.setFld MOD_CAP.EFFECTIVE 0 0 3000).stepsUnder 256 0 = true ∧
    (up.setFld CORE_PWR_STAT.RUNG 0 0 20).rung 0 = 20 ∧ up.rungFloor 0 < 20 := by decide +kernel

theorem wit_PowerControl_cores : up.enabledCores.Nodup := by decide +kernel

theorem wit_PowerHints : let w := cw 2 0 (2 ^ 56 + 2 ^ 60); ((at0 0 w).headOf 0 0 2 0 = some (head0 w)) ∧ cmdWaitCnt w = 0 ∧ cmdSigCnt w = 0 ∧
    cmdBits w 61 60 < 2 ∧ ((at0 0 (cw 2 1 0)).headOf 0 0 2 1 = some (head0 (cw 2 1 0))) ∧ cmdWaitCnt (cw 2 1 0) = 0 ∧ cmdSigCnt (cw 2 1 0) = 0 := by
  decide +kernel

/-- Core 0 with a reservation, started or not, and a forecast that has ended. -/
def reserved (b : Bool) : State :=
  { up.setCore 0 { resv := some ⟨3, 0, 50, 100, b, 500, 0⟩ } with pwr := { forecasts := [⟨0, [(1, 20)], true⟩] } }

theorem wit_PowerHints_reservation : (∀ b, ((reserved b).core 0).resv = some ⟨3, 0, 50, 100, b, 500, 0⟩) ∧
    (reserved true).pwr.forecasts.find? (fun f => f.core == 0 && f.ended) = some ⟨0, [(1, 20)], true⟩ := by decide +kernel

/-! ## Witnesses: temperature and coolant -/

theorem wit_ThermalResponses : up.supply.on = true ∧
    (∀ x, x ∈ [Sensor.monitor 71 15, .diode 71, .dram 71 1, .brimMonitor 3 7, .brimDiode 3] → sensorOk x = true ∧
      up.sensorRetired (sensorPlace x).1 (sensorPlace x).2 = false ∧ up.sensorBroken (sensorPlace x).1 (sensorPlace x).2 = false) ∧
    up.fld COOL_STAT.IN_BROKEN 0 0 = 0 ∧ up.fld COOL_STAT.OUT_BROKEN 0 0 = 0 ∧ up.therm.inMiss < 9 ∧
    (up.setFld COOL_STAT.IN_BROKEN 0 0 1).fld COOL_STAT.IN_BROKEN 0 0 = 1 ∧ 9 ≤ ({ inMiss := 9 } : Therm).inMiss := by decide +kernel

/-- A die at 119 °C, and one at 90 °C with its DRAM at 111 °C. -/
theorem wit_ThermalResponses_hot :
    ({ up with therm := { readings := [(sensorKey 71 16, 119 * 16)] } } : State).dieTemp 71 = some (119 * 16) ∧
    ({ up with therm := { readings := [(sensorKey 71 18, 111 * 16)] } } : State).dramTemp 71 = some (111 * 16) ∧
    ({ up with therm := { readings := [(sensorKey 75 16, 116 * 16)] } } : State).dieTemp 75 = some (116 * 16) := by decide +kernel

/-- The coolant state and its therm. -/
def cooled (st : Nat) (x : Therm) : State := { up.setFld COOL_STAT.STATE 0 0 st with therm := x }

theorem wit_CoolantStates_steps (st : Nat) : StepsBounded (cooled st {}).therm := fun _ => by
  show (0 : Nat) ≤ 5; decide

theorem wit_CoolantStates : up.supply.on = true ∧ (cooled 0 {}).shedding = false ∧ (cooled 4 {}).shedding = true ∧
    (cooled 4 { pulses := [9, 9, 9, 9, 9], steady := 19 }).therm.pulses.headD 0 ≠ 0 ∧
    85 * (up.fld COOL_CFG.KFACTOR 0 0 * up.fld COOL_CFG.SETPOINT 0 0) ≤ 100 * (cooled 4 { pulses := [10 ^ 9] }).flowNum ∧
    100 * (cooled 4 {}).flowNum ≤ 85 * (up.fld COOL_CFG.KFACTOR 0 0 * up.fld COOL_CFG.SETPOINT 0 0) ∧
    (cooled 4 { hot1 := 8, hot2 := 8 }).therm.hot1 = 8 ∧ (cooled 4 {}).supply.trip = false ∧ (cooled 4 {}).hotTiles = 0 ∧
    ({ trip := true } : Supply).trip = true := by decide +kernel

/-- Eight tiles that have risen by 49/16 °C. -/
theorem wit_CoolantStates_slope : let x : Therm := { readings := (List.range 8).map (fun e => (sensorKey e 16, 1049)),
                                                     prev2 := (List.range 8).map (fun e => (e, 1000)), hot1 := 8 }
    8 ≤ (cooled 0 x).hotTiles ∧ 8 ≤ (cooled 0 x).therm.hot1 ∧ (cooled 0 x).shedding = false := by decide +kernel

theorem wit_CoolantStates_hot : (cooled 4 { readings := [(sensorKey 71 16, 106 * 16)] }).dieTemp 71 = some (106 * 16) ∧
    (∀ e, e < 72 → (cooled 4 {}).dieTemp e = none) := by decide +kernel

/-! ## Witnesses: events -/

/-- A record of tile 0 and partition 1. -/
def rec0 (sev : Nat) : EvtRec := ⟨0x1101, 0, 0, 0, true, 1, sev, false, 0, 0, 1, [], none⟩

/-- A state with records that wait; the tile's milliner and PF0, of partition 1, listen to every class. -/
def telling (stage : Nat) (e : EventState) : State :=
  let s := (hostWith 0 []).setFlds [(MIL_EVT_CFG.CLASS_EN, 0, 0, 0x7FFF), (HIF_EVT_CFG.CLASS_EN, 0, 0, 0x7FFF)]
  { s with hb := { stage := stage }, events := e }

theorem wit_EventDelivery : ∀ sev, sev < 4 → let s := telling 7 { undelivered := [rec0 sev] }
    s.supply.on = true ∧ s.events.undelivered = rec0 sev :: [] ∧ s.events.flash.length ≤ 4096 ∧ s.events.early = [] ∧
    (s.ltileOf (rec0 sev).site).isSome = true ∧ (s.fld MIL_EVT_CFG.CLASS_EN 0 0).testBit ((rec0 sev).cls - 1) = true ∧
    s.fld MIL_EVT_CFG.SEV_MIN 0 0 ≤ sev ∧ (0 : Nat) ∉ s.events.milFull ∧ 0 ∈ s.readers (rec0 sev) ∧ 1 ∉ s.readers (rec0 sev) ∧
    (s.fld HIF_EVT_CFG.CLASS_EN 0 0).testBit ((rec0 sev).cls - 1) = true ∧ (s.evtBuf 0).recs = [] ∧
    s.fld HIF_EVT_CFG.NOTICE_SEV 0 0 ≤ 3 ∧ (telling 6 { undelivered := [rec0 sev] }).hb.stage ≠ 7 := by decide +kernel

theorem wit_EventDelivery_cq : ∃ c, Tbl.find ((telling 7 {}).fn 0).cqs 0 = some c ∧ c.tail - c.head < c.size ∧ (telling 7 {}).hb.stage = 7 :=
  ⟨_, rfl, by decide +kernel⟩

theorem wit_EventDelivery_full : let s := telling 7 { undelivered := [rec0 2], early := [rec0 1], milFull := [0],
                                                      bufs := [(0, { recs := List.replicate 1024 (rec0 1), noticed := some 2 })] }
    s.events.early = rec0 1 :: [] ∧ 0 ∈ s.events.milFull ∧ 1024 ≤ (s.evtBuf 0).recs.length ∧ (s.evtBuf 0).noticed = some 2 ∧
    (1 : Nat) ≤ 2 := by decide +kernel

theorem wit_WindowsAndStandby : up.supply.on = true ∧ up.hb.halted = false ∧ 2 ≤ up.hb.stage ∧ up.standbyGood = true ∧ up.hb.active = 0 ∧
    State.reset.hb.stage < 2 ∧ (up.setFld EVT_STAT.STANDBY_OK 0 0 1).fld EVT_STAT.STANDBY_OK 0 0 = 1 ∧
    up.fld EVT_STAT.STANDBY_OK 0 0 = 0 ∧ (∀ y, y ∈ capped.mirrored → y.1 % 2 ^ 7 ∈ mirrorRegs) ∧ capped.mirrored ≠ [] := by decide +kernel

/-! ## Witnesses: security and update -/

/-- An SPDM connection of VF 1 or of I3C in a phase. -/
def spdmIn (x : Transport) (y : Spdm) : State :=
  { up with pcie := { up := true, numVfs := 1, vfEnable := true }, fns := [(0, {}), (1, {})] }.setSpdm x y

theorem wit_Attestation : ∀ x, x ∈ [Transport.doe 1, .doe 0, .vdm, .i3c] → ∀ ph, ph < 6 →
    (spdmIn x { phase := ph }).hears x = true ∧ ((spdmIn x { phase := ph }).spdm x).phase = ph := by decide +kernel

theorem wit_Attestation_weights : let s := (spdmIn (.doe 1) { phase := 3, waits := [1] }).setFlds [(FN_STAT.PV, 1, 0, 1), (FN_STAT.PT, 1, 0, 1)]
    s.measureOf (.doe 1) 9 = some 1 ∧ s.measureOf (.doe 1) 12 = none ∧ 16 + 1 ∉ (s.spdm (.doe 1)).waits ∧ 1 ∈ (s.spdm (.doe 1)).waits ∧
    16 + 1 ∈ ((s.setSpdm (.doe 1) { phase := 3, waits := [17] }).spdm (.doe 1)).waits ∧ (s.ide 1).tdi = 0 ∧ (s.ide 1).keys = [] ∧
    ((s.setIde 1 { keys := [(1, 5)], inUse := some 1, tdi := 1 }).ide 1).tdi = 1 ∧
    Tbl.find ((s.setIde 1 { keys := [(1, 5)], inUse := some 1, tdi := 1 }).ide 1).keys 1 ≠ none ∧
    byAt [1, 0x83] 0 1 = 1 ∧ byAt [1, 0x83] 1 1 = 0x83 ∧ byAt [0] 0 1 ≠ 1 := by decide +kernel

/-- An image of a TYPE signed under ROOT 0, with a body of one byte. -/
def image1 (typ : Nat) (body : List Byte) : List Byte :=
  leBytes 4 0x4B484452 ++ leBytes 2 1 ++ leBytes 1 typ ++ leBytes 9 0 ++ leBytes 8 body.length ++ List.replicate 488 0 ++ body

/-- It passes R391 where its key, its signature and its digest are right, which the opaque functions alone decide. -/
theorem wit_verifyImage {typ : Nat} (ht : typ < 6) (h1 : Config.sha512 (((image1 typ [1]).drop 128).take 133) = Config.root 0)
    (h2 : Config.ecdsaOk (((image1 typ [1]).drop 128).take 133) ((image1 typ [1]).take 264) (((image1 typ [1]).drop 264).take 132) = true)
    (h3 : Config.sha512 (imgBody (image1 typ [1])) = imgDigest (image1 typ [1])) : up.verifyImage (image1 typ [1]) typ = 0 := by
  have hk : ∀ typ, typ < 6 →
      (¬((image1 typ [1]).length < 512 ∨ byAt (image1 typ [1]) 0 4 ≠ 0x4B484452 ∨ byAt (image1 typ [1]) 4 2 ≠ 1 ∨ imgType (image1 typ [1]) ≠ typ ∨
        5 < typ ∨ 3 < imgSlot (image1 typ [1]) ∨
        !(zeroAt (image1 typ [1]) 96 32 && zeroAt (image1 typ [1]) 261 3 && zeroAt (image1 typ [1]) 396 116) ∨
        (typ ≠ 1 ∧ imgFormat (image1 typ [1]) ≠ 0) ∨ byAt (image1 typ [1]) 16 8 ≠ (imgBody (image1 typ [1])).length ∨
        maxBody typ < (imgBody (image1 typ [1])).length)) ∧
      imgSlot (image1 typ [1]) = 0 ∧ byAt (image1 typ [1]) 24 8 = 0 ∧ imgSvn (image1 typ [1]) = 0 ∧ up.nv.prog.testBit 0 = true ∧
      up.nv.revoke.testBit 0 = false ∧ up.nv.svn.getD typ 0 = 0 := by decide +kernel
  obtain ⟨a, b, c, d, e, f, g⟩ := hk typ ht
  have hr : up.rootKey 0 = Config.root 0 := rfl
  unfold State.verifyImage
  clear hk
  generalize image1 typ [1] = l at *
  rw [if_neg a, b, hr, if_neg (by simp [h1, e, f]), if_neg (by simp [h2]), if_neg (by rw [c, d, g]; simp), if_neg (by simp [h3])]

/-- A module with an update agent and two firmware slots. -/
def updating (u : Option Upd) (sa sb : Nat) : State :=
  { up with sec := { upd := u }, nv := { slots := [(0, { state := sa }), (1, { state := sb })] } }

theorem wit_FirmwareUpdate : (∀ u sa sb, u ∈ [none, some ({ by_ := .i3c } : Upd)] → sa < 5 → sb < 5 →
      (updating u sa sb).pldmHears .i3c = true ∧ (updating u sa sb).hears .i3c = true ∧ (updating u sa sb).sec.upd = u ∧
      (updating u sa sb).nv.active = 0 ∧ ((updating u sa sb).slot 0).state = sa ∧ ((updating u sa sb).slot 1).state = sb ∧
      (updating u sa sb).liveOk = true ∧ (updating u sa sb).hb.stage = 7) := by
  have h : ∀ sa, sa < 5 → ∀ sb, sb < 5 → ∀ u, u ∈ [none, some ({ by_ := .i3c } : Upd)] → (updating u sa sb).pldmHears .i3c = true ∧ (updating u sa sb).hears .i3c = true ∧ (updating u sa sb).sec.upd = u ∧
      (updating u sa sb).nv.active = 0 ∧ ((updating u sa sb).slot 0).state = sa ∧ ((updating u sa sb).slot 1).state = sb ∧
      (updating u sa sb).liveOk = true ∧ (updating u sa sb).hb.stage = 7 := by decide +kernel
  exact fun u sa sb hu ha hb => h sa ha sb hb u hu

theorem wit_FirmwareUpdate_fields : distinct [1, 5] = true ∧ (513 : Nat) ≤ 512 + maxBody (5 - 1) ∧ ([] : List Byte).length = min 4096 (0 - 0) ∧
    (Transport.i3c ≠ .vdm) ∧ up.verifyImage [] 0 ≠ 0 ∧ up.denied .hatband (.brimCsr 0 0x8004010) = none ∧
    up.nv.prog.testBit 2 = false ∧ up.nv.prog.testBit 0 = true ∧ byAt (imgBody (image1 5 [1])) 0 1 = 1 ∧ imgSlot (image1 5 [1]) = 0 ∧
    up.nv.revoke.testBit 0 = false := by decide +kernel

/-- The microcode of one packet on its way to fuller 33 of core 0, claimed. -/
def dist0 (ph rd : Nat) (got : List Nat) : Dist :=
  { typ := 3, number := 9, body := [7, 8, 9], digest := 0, phase := ph, round := rd, targets := [⟨0, some (0, 33)⟩],
    got := [((⟨0, some (0, 33)⟩ : DistTarget).key, got)], result := if got = [] then [] else [(⟨0, some (0, 33)⟩, 1)],
    hashed := if got = [] then [] else [0] }

/-- A module that distributes it. -/
def distributing (st : Nat) (d : Dist) : State :=
  { up.setFlds [(FUL_STAT.STATE, 0, 33, st), (MCAST_MASK.MASK, 0, 0, 1)] with sec := { dist := some d } }

theorem dist0_sound (ph rd : Nat) (got : List Nat) : (dist0 ph rd got).sound := by
  refine ⟨List.nodup_cons.mpr ⟨List.not_mem_nil, List.nodup_nil⟩, fun u hu => ?_⟩
  rw [List.mem_singleton.mp hu]
  refine ⟨by decide, fun c n h => ⟨?_, fun v hv _ => List.mem_singleton.mp hv⟩⟩
  cases h; decide

theorem wit_Distribution : ∀ x, x ∈ [([], 2), ([0], 1)] → ∀ ph, ph < 4 → let d := dist0 ph 3 x.1
    let s := distributing 3 d; let u : DistTarget := ⟨0, some (0, 33)⟩
    s.sec.dist = some d ∧ d.phase = ph ∧ d.targets = [u] ∧ 0 < distPackets d.body ∧ d.body.length ≤ 8192 ∧ s.targetFenced u = false ∧
    s.fld FUL_STAT.STATE 0 33 = 3 ∧ (s.fld MCAST_MASK.MASK 0 0).testBit 0 = true ∧ d.number ≠ 8 ∧
    (d.missing u = 0 ↔ x.2 = 1) ∧ (0 ∈ d.hashed ↔ x.2 = 1) ∧ s.finalResult d u = x.2 ∧
    (distributing 1 d).fld FUL_STAT.STATE 0 33 = 1 ∧ s.fld UPD_CTL.DIST_POLICY 0 0 = 0 ∧ (dist0 ph 2 []).round < 3 := by
  decide +kernel

/-- A target that is fenced has reported 4, and is not good. -/
theorem wit_Distribution_fenced : let d := dist0 3 0 []
    let s := (distributing 3 d).setFld FUL_STAT.FENCED 0 33 1
    s.targetFenced ⟨0, some (0, 33)⟩ = true ∧ s.finalResult d ⟨0, some (0, 33)⟩ = 4 := by decide +kernel

/-- Fuller 31, whose channel is no spare. -/
theorem wit_Distribution_spare : (⟨0, some (0, 31)⟩ : DistTarget).spare = false ∧ (⟨0, some (0, 33)⟩ : DistTarget).spare = true := by decide

/-! ## Witnesses: the whole block -/

theorem wit_StepTakesFront : up.pending = [] := rfl

/-- A step with a command in front, from a state that keeps the invariants, answers a state. -/
def commanded : State := { up with pending := [.write (.core 0) 7 daSram (List.replicate 8 5)] }

theorem wit_invariants : Memory.wf commanded.mem = true ∧ HatbandLegal commanded.hb ∧
    (match step commanded with
     | .next t => Memory.wf t.mem && decide (t.mem.length = 8) && decide (t.pending = [])
     | _ => false) = true := by decide +kernel

theorem wit_invariants_logs : LogsBounded commanded.events :=
  ⟨by decide, by decide, fun _ => by show (0 : Nat) ≤ 1024; decide⟩

theorem wit_invariants_steps : StepsBounded up.therm := fun _ => by
  show (0 : Nat) ≤ 5; decide

/-! ## Well-formed commands: one ill-formed term for each check -/

/-- A Brimlink packet and a mesh packet that are well formed. -/
def goodBl : BlPkt := { dst := 2, src := 3, dpt := 1, spt := 1, typ := 3, nflit := 9, ttl := 15, epoch := 0, pn := 5, fields := 0, body := [], tag := 0 }
def goodMesh : MeshPkt := { da := daSram, len := 8, op := 0, unit := 0, tag := 0, dst := 71, src := 0, spt := 1, hb := false }

theorem test_wf_good : goodBl.wf = true ∧ goodMesh.wf = true ∧ (Instr.read (.core 287) 0 daSram 256).wf = true ∧
    (Instr.mma 287).wf = true ∧ (Instr.blForward 15 goodBl).wf = true ∧ (Instr.meshForward 75 goodMesh).wf = true := by decide +kernel

theorem test_wf_agents : (Agent.core 288).wf = false ∧ (Agent.milliner 72).wf = false ∧ (Agent.pcie 32).wf = false ∧
    (Agent.brimlink 4 0).wf = false ∧ (Agent.brimlink 0 8).wf = false ∧ (RegAddr.da (2 ^ 48)).wf = false ∧ (RegAddr.bar0 32 0).wf = false ∧
    (RegAddr.bar0 0 (2 ^ 18)).wf = false ∧ (RegAddr.bar2 0 (2 ^ 16)).wf = false ∧ (RegAddr.bar2 32 0).wf = false ∧
    (∀ k, (RegAddr.cfg 32 k).wf = false) ∧ (Transport.doe 32).wf = false ∧ (Transport.fleet 4096).wf = false :=
  ⟨by decide, by decide, by decide, by decide, by decide, by decide, by decide, by decide, by decide, by decide, fun _ => rfl, by decide, by decide⟩

theorem test_wf_sensors : (Sensor.monitor 72 0).wf = false ∧ (Sensor.monitor 0 16).wf = false ∧ (Sensor.diode 72).wf = false ∧
    (Sensor.dram 72 0).wf = false ∧ (Sensor.dram 0 2).wf = false ∧ (Sensor.brimMonitor 4 0).wf = false ∧ (Sensor.brimMonitor 0 8).wf = false ∧
    (Sensor.brimDiode 4).wf = false ∧ (Domain.mk 76 0 0).wf = false ∧ (Domain.mk 0 8 0).wf = false ∧ (Domain.mk 0 0 4).wf = false := by decide

theorem test_wf_meshPkt : ∀ k, k ∈ [{ goodMesh with da := 2 ^ 40 }, { goodMesh with status := 256 }, { goodMesh with len := 0 },
    { goodMesh with len := 257 }, { goodMesh with op := 16 }, { goodMesh with unit := 16 }, { goodMesh with tag := 2 ^ 16 },
    { goodMesh with dst := 76 }, { goodMesh with src := 76 }, { goodMesh with spt := 8 }, { goodMesh with mbz := 2 ^ 30 },
    { goodMesh with data := [0] }] → k.wf = false := by decide +kernel

theorem test_wf_blPkt : ∀ k, k ∈ [{ goodBl with dst := 4096 }, { goodBl with src := 4096 }, { goodBl with dpt := 8 }, { goodBl with spt := 8 },
    { goodBl with typ := 16 }, { goodBl with nflit := 129 }, { goodBl with ttl := 16 }, { goodBl with epoch := 2 },
    { goodBl with pn := 2 ^ 48 }, { goodBl with tag := 2 ^ 128 }] → k.wf = false := by decide +kernel

theorem test_wf_parts : (MgmtReq.read (2 ^ 24) 4).wf = false ∧ (MgmtReq.read 0 2).wf = false ∧ (MgmtReq.write (2 ^ 24) 4 0).wf = false ∧
    (MgmtReq.write 0 2 0).wf = false ∧ (MgmtReq.gatherReduce 4 0 0).wf = false ∧ (MgmtReq.gatherReduce 0 34 0).wf = false ∧
    (MgmtReq.clearFuller 4 0).wf = false ∧ (MgmtReq.clearFuller 0 34).wf = false ∧ (MilInstr.word 1).wf = false ∧
    (BadUnit.mk 256 0 0 0 0 0 0 0).wf = false ∧ (BadUnit.mk 0 256 0 0 0 0 0 0).wf = false ∧ (BadUnit.mk 0 0 76 0 0 0 0 0).wf = false ∧
    (Upset.mk (2 ^ 17) 0 0 none).wf = false ∧ (Upset.mk 0 (2 ^ 17) 0 none).wf = false := by decide +kernel

theorem test_wf_banks : ∀ b, b ∈ [BankTest.mk 72 0 0 0 [] [] [], .mk 0 4 0 0 [] [] [], .mk 0 0 17 0 [] [] [], .mk 0 0 0 16 [] [] [],
    .mk 0 0 0 0 [(2048, 0)] [] [], .mk 0 0 0 0 [(0, 64)] [] [], .mk 0 0 0 0 [] [2048] [], .mk 0 0 0 0 [] [] [64]] → b.wf = false := by decide

theorem test_wf_commands : ∀ c, c ∈ [Instr.registerWrite (.core 288) (.da 0) 4 0, .registerWrite .hatband (.da (2 ^ 48)) 4 0,
    .registerWrite .hatband (.da 0) 2 0, .rateWindowEnd 76, .read .hatband (2 ^ 16) 0 8, .read .hatband 0 (2 ^ 48) 8, .read .hatband 0 0 0,
    .read .hatband 0 0 257, .write .hatband 0 0 [], .write .hatband 0 0 (bytes0 257), .mcast 72 0 0 0 [], .mcast 0 0 0 (2 ^ 16) [],
    .mgmt 0 (.read 0 2), .meshForward 76 goodMesh, .mma 288, .tailWrite 0 4 0, .tailWrite 0 0 (2 ^ 16), .commandComplete 0 0 (2 ^ 16),
    .seedGo 0 64, .chainStreamEnd 0 4 0, .chainStreamEnd 0 0 4, .drainCompare 0 0 0 [⟨2 ^ 17, 0, 0, none⟩], .arrayInplaceCompare 0 5 0 [],
    .dramRead 0 (2 ^ 30) 8 0 0 0, .ceWriteback 0 17] → c.wf = false := by decide +kernel

theorem test_wf_commands_tile : ∀ c, c ∈ [Instr.fullerMemWrite .hatband 0 34 0 4 0, .fullerMemWrite .hatband 0 0 0x6000 4 0,
    .milLoad 0 32 0 8 false .pma .none, .milLoad 0 0 (2 ^ 56) 8 false .pma .none, .milLoad 0 0 0 3 false .pma .none, .seteipnum .hatband 0 5 0,
    .seteipnum .hatband 0 0 (2 ^ 32), .wdogPet .hatband 0 (2 ^ 32), .sqTailDoorbell 32 0 0, .sqTailDoorbell 0 64 0, .ringHeadDoorbell 0 64 0,
    .createCq 0 64, .adapterLoadDone 8 0, .tokenRingWrite 0 0 3 0, .apertureAccess 0 false (2 ^ 28) 8 [], .blPartnerDetect 16,
    .blFlitRx 0 ⟨0, [], true⟩, .blLaneFail 0 17, .blCreditWaitExpiry 0 4, .sendDoorbell .hatband 4 0 0, .collDeadline 64,
    .collLostTimeout 0 4096, .fleetSessionTimeout 4096, .meshLinkDown 76 0, .meshLinkDown 0 9, .meshFlitRx 0 0 ⟨0, []⟩,
    .meshLinkResume 0 0 [] [] 0 3] → c.wf = false := by decide +kernel

theorem test_wf_commands_module : ∀ c, c ∈ [Instr.crossingOverrun 76 none none, .crossingOverrun 0 (some 4) none, .crossingOverrun 0 none (some 9),
    .sizingDone true true [⟨256, 0, 0, 0, 0, 0, 0, 0⟩], .blockingDone (some 76), .fenceCore .hatband 0 16, .testDone 0 16 true,
    .phaseLoss ⟨76, 0, 0⟩ 0 0 0, .phaseLoss ⟨0, 0, 0⟩ 4 0 0, .corePwrOn .hatband 0 4, .tempSample (.diode 72) 0, .getVersion (.doe 32),
    .getCertificate .i3c 8, .getMeasurements .i3c 256, .keyProg 0 2 0, .ownerEnroll .i3c 4 0, .millinerInstr 0 (.word 1), .vfEnable (2 ^ 16) true,
    .msixUnmask 0 2048, .open_ { goodBl with typ := 16 }] → c.wf = false := by decide +kernel

/-! ## The spec's worked examples -/

/-- Worked example of chapter 02: DA 0x1B_8A5C_3E40. -/
theorem test_slice_mapping : sliceLch 0x0A5C3E40 = 10 ∧ sliceBank 0x0A5C3E40 = 3 ∧ sliceRow 0x0A5C3E40 = 331 ∧ sliceCol 0x0A5C3E40 = 832 ∧
    bitsOf 0x1B8A5C3E40 39 38 = 0 ∧ bitsOf 0x1B8A5C3E40 37 32 = 27 ∧ bitsOf 0x1B8A5C3E40 31 30 = 2 := by decide

/-- R175, worked conversion: BA 0x6_52DA of F32 under logical channel 10. -/
theorem test_fuller_address : sliceOfBank 32 10 0x652DA = 0x0A5C3E40 ∧ chanByte 3 331 832 = 32 * 0x652DA := by decide

/-- Worked example of chapter 18: the host's way back from a DRAM_UE record. -/
theorem test_record_address : sliceLch 0x0964A580 = 7 ∧ sliceBank 0x0964A580 = 5 ∧ sliceRow 0x0964A580 = 300 ∧ sliceCol 0x0964A580 = 640 := by
  decide

/-- Its FLAGS (R376): PV, partition 2, SEV 2: 0xA8. -/
theorem test_record_flags : (EvtRec.bytes ⟨0x3202, 30, 27, 2, true, 2, 2, false, 0, 0, 0, [], none⟩).getD 5 0 = 0xA8 := by decide +kernel

/-- Worked example of chapter 03: a number of quarters and halves, by its value in 1/100000. -/
def ftIn : List Machine.Num :=
  [.zero, .zero, .fin false 1 (-1), .zero, .fin false 1 (-2), .fin false 23 (-1), .zero, .zero, .zero, .fin false 3 (-2), .zero,
   .fin true 41 (-10), .zero, .fin true 41 (-12), .zero, .zero, .zero, .fin true 29 (-2), .zero, .zero, .zero, .zero, .fin true 5 (-3),
   .zero, .zero, .zero, .zero, .zero, .zero, .zero, .fin false 123 (-12), .zero]

/-- FT4-E4 fine, F = 2^-4, H = 4: scale 0x40, the codes of the table, escapes 11.5 and -7.25, record 0x2E40. -/
theorem test_ft4_encode : let g := encodeGroup .ft4e4f (.fin false 1 (-4)) 4 4 32 false (fun _ => .near) .jit ftIn
    g.scale = 0x40 ∧ g.escs = [0x4138, 0xC0E8] ∧
    [4, 5, 9, 11, 13, 17, 22, 2, 30].map (fun i => g.codes.getD i 0) = [4, 8, 7, 9, 0, 8, 14, 6, 0] ∧
    (packCodes 4 g.codes).getD 2 0 = 0x84 ∧ scaleRecord g.escs.length (9 + 5) g.scale = 0x2E40 := by decide +kernel

/-- Its coarse scale: code 0x7C. -/
theorem test_ft4_coarse : formScale .ft4e4c .zero (.fin false 3 (-2)) = 0x7C := by decide +kernel

/-- MXFP8 E4M3 0x5C under 0x7A is 0.75; 0xFF is NaN. -/
theorem test_mxfp8_decode : ((Machine.Num.mul (Fmt.elem .mxE4m3 0x5C) (scaleCode .mxE4m3 0x7A)).sub (.fin false 3 (-2))).isZero = true := by decide +kernel

theorem test_mxfp8_nan : (Fmt.elem .mxE4m3 0xFF).isNan = true := by decide +kernel

/-- Worked example of chapter 05: the scales of MXFP4 and the entries 5.21875 and 0.6015625. -/
theorem test_guard_scales : formScale .mxfp4 .zero (.fin false 3 0) = 126 ∧ formScale .mxfp4 .zero (ofFp32 0x40A66666) = 127 ∧
    formScale .mxfp4 .zero (.fin false 40 0) = 130 ∧ formScale .mxfp4 .zero (ofFp32 0x3F19999A) = 124 ∧
    toBf16Up (ofFp32 0x40A66666) = 0x40A7 ∧ toBf16Up (ofFp32 0x3F19999A) = 0x3F1A := by decide +kernel

/-- Worked example of chapter 12: the last packet of 1,440 bytes takes 13 flits, a full one 128; 13,861 packets in all. -/
theorem test_flits : flitsFor 1440 = 13 ∧ flitsFor 15320 = 128 ∧ xferPkts 212336640 = 13861 := by decide

/-- Worked example of chapter 13: a write of 256 bytes is 3 flits at level 1; one failed wire of group 17 is spared, two halve the
width. -/
theorem test_mesh_link : meshFlits { goodMesh with op := 1, len := 256, data := bytes0 256 } = 3 ∧ linkWidth [(17, 3)] 0 = 3 ∧
    linkWidth [(17, 3), (17, 16)] 0 = 2 := by decide +kernel

/-- Worked example of chapter 16: ILIM at the rungs of CEIL 13 A, in 1/512 A. -/
theorem test_ilim : let s := { powered with image := { powered.image with points := [(0, 52 * 2 ^ 96 + 720 * 2 ^ 32)] } }
    [0, 1, 5, 6, 7, 8].map (s.ilimAt 0) = [6656, 6344, 5096, 4784, 4472, 4160] := by decide +kernel

/-- Worked example of chapter 17: f = 0.60 is LIMITED with COOL_W 2,025 W. -/
theorem test_coolant : (match execFlowUpdate { up.setFlds [(COOL_CFG.KFACTOR, 0, 0, 800)] with therm := { pulses := [2, 1, 1, 1, 1] } } with
     | .next t => [t.fld COOL_STAT.STATE 0 0, t.fld THERM_LIMITS.COOL_W 0 0]
     | _ => []) = [2, 2025] := by decide +kernel

/-- Worked example of chapter 07: PMIN is 40,960 bytes. -/
theorem test_kv_page : (AttP.of (2 ^ 338 + 3 * 2 ^ 335 + 10 * 2 ^ 324 + 10 * 2 ^ 320 + 3040 * 2 ^ 296) 0).pmin = 40960 := by decide +kernel

/-! ## Reset and commands -/

theorem test_reset_hatband : HatbandLegal State.reset.hb := by decide

/-- A write and a read of SRAM, and a read of nothing's address (R26). -/
theorem test_write_read : (match exec (.write (.core 0) 7 daSram [1, 2, 3]) up with
     | .next t => (match exec (.read (.core 0) 8 (daSram + 1) 2) t with
        | .next u => (u.mesh.responses.getLast?.map (fun r => (r.tag, r.status, r.data)))
        | _ => none)
     | _ => none) = some (8, .ok, [2, 3]) := by decide +kernel

end Sys2Proof.Tests
end

section
/-! PROOFS. The slice mapping of R15: what each coordinate is made of, its inverse, and O2. -/

namespace Sys2Proof.Machine

theorem bitsOf_lt (w hi lo : Nat) : bitsOf w hi lo < 2 ^ (hi + 1 - lo) := Nat.mod_lt _ (Nat.two_pow_pos _)

theorem sliceLch_lt (o : Nat) : sliceLch o < 16 := Nat.xor_lt_two_pow (n := 4) (bitsOf_lt o 11 8) (bitsOf_lt o 26 23)

theorem sliceBank_lt (o : Nat) : sliceBank o < 16 := Nat.xor_lt_two_pow (n := 4) (bitsOf_lt o 18 15) (bitsOf_lt o 22 19)

theorem sliceRow_lt (o : Nat) : sliceRow o < 2048 := bitsOf_lt o 29 19

theorem sliceCol_lt (o : Nat) : sliceCol o < 2048 := by
  have h1 := bitsOf_lt o 14 12
  have h2 := bitsOf_lt o 7 0
  unfold sliceCol
  omega

/-! ## The inverse -/

/-- A mask mixed in twice drops out. -/
theorem xor_mask_twice (a m : Nat) : a ^^^ m ^^^ m = a := by rw [Nat.xor_assoc, Nat.xor_self, Nat.xor_zero]

/-- The row holds the bits that the bank is mixed with. -/
theorem sliceBank_xor_row (o : Nat) : sliceBank o ^^^ sliceRow o % 16 = bitsOf o 18 15 := by
  have h : sliceRow o % 16 = bitsOf o 22 19 := by unfold sliceRow bitsOf; omega
  rw [h, sliceBank, xor_mask_twice]

/-- The row holds the bits that the logical channel is mixed with. -/
theorem sliceLch_xor_row (o : Nat) : sliceLch o ^^^ bitsOf (sliceRow o) 7 4 = bitsOf o 11 8 := by
  have h : bitsOf (sliceRow o) 7 4 = bitsOf o 26 23 := by unfold sliceRow bitsOf; omega
  rw [h, sliceLch, xor_mask_twice]

/-- The offset that R175's bank view names, with the byte within its beat, is the offset whose coordinates were taken: `n` is a
fuller of the bank's half. -/
theorem sliceOfBank_coords {o n : Nat} (ho : o < 2 ^ 30) (hn : n % 2 = sliceBank o / 8) :
    sliceOfBank n (sliceLch o) (sliceBank o % 8 * 2 ^ 17 + sliceRow o * 2 ^ 6 + sliceCol o / 32) + sliceCol o % 32 = o := by
  have hr := sliceRow_lt o
  have hc := sliceCol_lt o
  have h1 : n % 2 * 8 + bitsOf (sliceBank o % 8 * 2 ^ 17 + sliceRow o * 2 ^ 6 + sliceCol o / 32) 19 17 = sliceBank o := by
    unfold bitsOf; omega
  have h2 : bitsOf (sliceBank o % 8 * 2 ^ 17 + sliceRow o * 2 ^ 6 + sliceCol o / 32) 16 6 = sliceRow o := by
    unfold bitsOf; omega
  have h3 : bitsOf (sliceBank o % 8 * 2 ^ 17 + sliceRow o * 2 ^ 6 + sliceCol o / 32) 5 0 = sliceCol o / 32 := by
    unfold bitsOf; omega
  unfold sliceOfBank
  dsimp only
  rw [h1, h2, h3, sliceBank_xor_row, sliceLch_xor_row]
  unfold sliceRow sliceCol bitsOf
  omega

/-- The mapping is one-to-one over the slice (R15). -/
theorem slice_injective {o o' : Nat} (ho : o < 2 ^ 30) (ho' : o' < 2 ^ 30) (hl : sliceLch o = sliceLch o')
    (hb : sliceBank o = sliceBank o') (hr : sliceRow o = sliceRow o') (hc : sliceCol o = sliceCol o') : o = o' := by
  have hn : sliceBank o / 8 % 2 = sliceBank o / 8 := by
    have := sliceBank_lt o
    omega
  calc o = sliceOfBank (sliceBank o / 8) (sliceLch o) (sliceBank o % 8 * 2 ^ 17 + sliceRow o * 2 ^ 6 + sliceCol o / 32) +
          sliceCol o % 32 := (sliceOfBank_coords ho hn).symm
    _ = o' := by
      rw [hb] at hn
      rw [hl, hb, hr, hc, sliceOfBank_coords ho' hn]

/-! ## Stripes -/

/-- Bits above the byte within a stripe depend on the stripe alone. -/
theorem bitsOf_of_stripe_eq {o o' : Nat} (hi : Nat) {lo : Nat} (hlo : 8 ≤ lo) (h : o / 256 = o' / 256) :
    bitsOf o hi lo = bitsOf o' hi lo := by
  have hbase (x : Nat) : bitsOf x hi lo = bitsOf (256 * (x / 256)) hi lo := by
    rw [← bitsOf_stripe (256 * (x / 256)) (x % 256) hi lo hlo (by omega), Nat.div_add_mod]
  rw [hbase o, hbase o', h]

/-- A stripe lies in one row of one bank of one channel (R15). -/
theorem slice_of_stripe_eq {o o' : Nat} (h : o / 256 = o' / 256) :
    sliceLch o = sliceLch o' ∧ sliceBank o = sliceBank o' ∧ sliceRow o = sliceRow o' := by
  have hbits (hi lo : Nat) (hlo : 8 ≤ lo) : bitsOf o hi lo = bitsOf o' hi lo := bitsOf_of_stripe_eq hi hlo h
  refine ⟨?_, ?_, hbits 29 19 (by decide)⟩
  · rw [sliceLch, sliceLch, hbits 11 8 (by decide), hbits 26 23 (by decide)]
  · rw [sliceBank, sliceBank, hbits 18 15 (by decide), hbits 22 19 (by decide)]

/-- The stripes of an aligned 4 KiB: the stripe's number in the block, mixed with bits of the block's. -/
theorem sliceLch_block (p : Nat) {i : Nat} (hi : i < 16) : sliceLch (4096 * p + 256 * i) = i ^^^ bitsOf p 14 11 := by
  have h1 : bitsOf (4096 * p + 256 * i) 11 8 = i := by unfold bitsOf; omega
  have h2 : bitsOf (4096 * p + 256 * i) 26 23 = bitsOf p 14 11 := by unfold bitsOf; omega
  rw [sliceLch, h1, h2]

/-- Settles O2: the mapping has the inverse of R175, so it is one-to-one; a stripe's coordinates leave out its low 8 bits; and the
channels of sixteen aligned stripes are the numbers 0 to 15 under one mask. -/
theorem sliceMapping : Obligations.SliceMapping := by
  unfold Obligations.SliceMapping
  refine ⟨fun o _ => ⟨rfl, rfl, rfl, rfl, sliceLch_lt o, sliceBank_lt o, sliceRow_lt o, sliceCol_lt o⟩,
    fun _ _ => slice_injective, fun _ _ _ _ => slice_of_stripe_eq, fun p i j _ hi hj hij => ?_, fun _ _ _ => rfl⟩
  rw [sliceLch_block p hi, sliceLch_block p hj]
  intro h
  have hm : i ^^^ bitsOf p 14 11 ^^^ bitsOf p 14 11 = j ^^^ bitsOf p 14 11 ^^^ bitsOf p 14 11 := by rw [h]
  rw [xor_mask_twice, xor_mask_twice] at hm
  exact hij hm

end Sys2Proof.Machine
end

section
/-! PROOFS. The checks of R26 in their order, what a refused request leaves behind, and O3. -/

namespace Sys2Proof.Machine

/-! ## The first check that fails -/

theorem State.shapeOk_unmapped {s : State} {k : ReqKind} {da len : Nat} (h : s.decodeDa da = .unmapped) :
    shapeOk s.hb.active k (s.decodeDa da) da len = false := by rw [h]; rfl

/-- Order 1 (R13, R14). -/
theorem State.checkReq_misshapen {s : State} {k : ReqKind} {da len : Nat} (a : Agent)
    (h : shapeOk s.hb.active k (s.decodeDa da) da len = false) : s.checkReq k a da len = .order1 := by
  simp [State.checkReq, h]

section WellShaped

variable {s : State} {k : ReqKind} {a : Agent} {da len : Nat}
variable (hs : shapeOk s.hb.active k (s.decodeDa da) da len = true)
include hs

/-- Order 2: a destination that no route reaches does not judge the request, a router on the way answers (R275). -/
theorem State.checkReq_denied {r : Nat} {e : Bool} (hd : s.denied a (s.decodeDa da) = some (r, e)) :
    s.checkReq k a da len =
      if e = false ∧ s.unreached a (s.decodeDa da) = true then .order3 .fenced else .order2 r e := by
  simp [State.checkReq, hs, hd]

/-- No route to a site that the maps allow (R275). -/
theorem State.checkReq_unreached (hd : s.denied a (s.decodeDa da) = none) (hu : s.unreached a (s.decodeDa da) = true) :
    s.checkReq k a da len = .order3 .fenced := by
  simp [State.checkReq, hs, hd, hu]

/-- Orders 3 and 4 decide a request that is allowed and reaches its target. -/
theorem State.checkReq_reached (hd : s.denied a (s.decodeDa da) = none) (hu : s.unreached a (s.decodeDa da) = false) :
    s.checkReq k a da len =
      (s.fenceCheck k (s.decodeDa da)).elim ((s.powerCheck (s.decodeDa da)).elim .pass .order4) .order3 := by
  simp only [State.checkReq, hs, hd, hu]
  cases s.fenceCheck k (s.decodeDa da) with
  | some st => rfl
  | none => cases s.powerCheck (s.decodeDa da) <;> rfl

theorem State.checkReq_denied_status {r : Nat} {e : Bool} (hd : s.denied a (s.decodeDa da) = some (r, e)) :
    (s.checkReq k a da len).status =
      if e = false ∧ s.unreached a (s.decodeDa da) = true then .fenced else .auth := by
  rw [State.checkReq_denied hs hd, apply_ite Check.status]
  rfl

variable (hd : s.denied a (s.decodeDa da) = none) (hu : s.unreached a (s.decodeDa da) = false)
include hd hu

/-- The status of a request that reaches its target: the fence's, or else the power state's. -/
theorem State.checkReq_reached_status :
    (s.checkReq k a da len).status =
      (s.fenceCheck k (s.decodeDa da)).getD (if (s.powerCheck (s.decodeDa da)).isSome then .stateConflict else .ok) := by
  rw [State.checkReq_reached hs hd hu]
  cases s.fenceCheck k (s.decodeDa da) with
  | some st => rfl
  | none => cases s.powerCheck (s.decodeDa da) <;> rfl

theorem State.checkReq_dram_status {c o : Nat} (ht : s.decodeDa da = .dram c o) :
    (s.checkReq k a da len).status =
      if s.coreFenced c then (if k = .read then .poison else .fenced) else .ok := by
  rw [State.checkReq_reached_status hs hd hu, ht]
  by_cases hf : s.coreFenced c <;> simp [State.fenceCheck, State.powerCheck, hf]

theorem State.checkReq_sram_status {c o : Nat} (ht : s.decodeDa da = .sram c o) :
    (s.checkReq k a da len).status =
      if s.coreFenced c then (if k = .read then .poison else .fenced)
      else if s.pwrState c ≠ 0 then .stateConflict else .ok := by
  rw [State.checkReq_reached_status hs hd hu, ht]
  by_cases hf : s.coreFenced c <;> simp [State.fenceCheck, State.powerCheck, hf]

theorem State.checkReq_coreCsr_status {c o : Nat} (ht : s.decodeDa da = .coreCsr c o) :
    (s.checkReq k a da len).status =
      if s.coreFenced c then .fenced else if s.pwrState c ≠ 0 then .stateConflict else .ok := by
  rw [State.checkReq_reached_status hs hd hu, ht]
  by_cases hf : s.coreFenced c <;> simp [State.fenceCheck, State.powerCheck, hf]

theorem State.checkReq_milCsr_status {st o : Nat} (ht : s.decodeDa da = .milCsr st o) :
    (s.checkReq k a da len).status = if s.milFenced st then .fenced else .ok := by
  rw [State.checkReq_reached_status hs hd hu, ht]
  by_cases hf : s.milFenced st <;> simp [State.fenceCheck, State.powerCheck, hf]

/-- The always-on windows of a tile and of a brim die are served whatever is fenced or off. -/
theorem State.checkReq_alwaysOn {st o : Nat} (ht : s.decodeDa da = .tileCsr st o ∨ s.decodeDa da = .brimCsr st o) :
    s.checkReq k a da len = .pass := by
  rw [State.checkReq_reached hs hd hu]
  rcases ht with ht | ht <;> rw [ht] <;> rfl

end WellShaped

/-! ## What a refusal leaves behind -/

theorem SameBut.refl (fs : List Fd) (s : State) : SameBut fs s s := fun f _ => by cases f <;> rfl

theorem SameBut.trans {fs : List Fd} {s t u : State} (h : SameBut fs s t) (k : SameBut fs t u) : SameBut fs s u := fun f hf => by
  have h1 := h f hf
  have h2 := k f hf
  cases f <;> exact Eq.trans h2 h1

theorem SameBut.mono {fs gs : List Fd} {s t : State} (h : SameBut fs s t) (hfg : fs ⊆ gs) : SameBut gs s t :=
  fun f hf => h f (fun hf' => hf (hfg hf'))

theorem sameBut_setReg (s : State) (r : Reg) (u i : Nat) (w : Word) : SameBut [.regs] s (s.setReg r u i w) := fun f hf => by
  cases f
  case regs => exact absurd (List.mem_singleton_self _) hf
  all_goals rfl

theorem sameBut_raise (s : State) (e : Ev) (site unit : Nat) (l : List (Nat × Nat)) (o : RaiseOpts) :
    SameBut [.freeCtr, .regs, .events] s (s.raise e site unit l o) := fun f hf => by
  cases f
  case freeCtr | regs | events => exact absurd (by decide) hf
  all_goals rfl

theorem sameBut_respond (s : State) (a : Agent) (tag : Nat) (st : Status) (len : Nat) (data : List Byte) :
    SameBut [.mesh] s (s.respond a tag st len data) := fun f hf => by
  cases f
  case mesh => exact absurd (List.mem_singleton_self _) hf
  all_goals rfl

/-- The registers that count refusals and events (R22, R30, R380). -/
def refusalRegs : List Reg := [.FW_STAT, .FW_LAST, .SRAM_STAT, .EVT_STAT]

/-- From `s` to `t` refusals have been counted and events raised, and nothing else has changed. -/
structure CountsOnly (s t : State) : Prop where
  reg  : ∀ r u i, r ∉ refusalRegs → t.reg r u i = s.reg r u i
  same : SameBut [.freeCtr, .regs, .events] s t

theorem CountsOnly.refl (s : State) : CountsOnly s s := ⟨fun _ _ _ _ => rfl, .refl _ s⟩

theorem CountsOnly.trans {s t u : State} (h : CountsOnly s t) (k : CountsOnly t u) : CountsOnly s u :=
  ⟨fun r v i hr => (k.reg r v i hr).trans (h.reg r v i hr), h.same.trans k.same⟩

theorem CountsOnly.setReg (s : State) {r : Reg} (u i : Nat) (w : Word) (h : r ∈ refusalRegs) : CountsOnly s (s.setReg r u i w) :=
  ⟨fun _ _ _ hr' => State.reg_setReg_key _ _ _ _ _ _ _ _ (regKey_reg (fun he => hr' (he ▸ h))),
    (sameBut_setReg s r u i w).mono (by decide)⟩

theorem CountsOnly.setFld (s : State) {f : Fld} (u i v : Nat) (h : f.reg ∈ refusalRegs) : CountsOnly s (s.setFld f u i v) :=
  .setReg s u i _ h

theorem CountsOnly.addFld (s : State) {f : Fld} (u i n : Nat) (h : f.reg ∈ refusalRegs) : CountsOnly s (s.addFld f u i n) :=
  .setFld s u i _ h

theorem CountsOnly.raise (s : State) (e : Ev) (site unit : Nat) (l : List (Nat × Nat)) (o : RaiseOpts) :
    CountsOnly s (s.raise e site unit l o) :=
  ⟨fun _ _ _ hr => State.reg_raise s e site unit l o _ _ (fun he => hr (he ▸ by decide)), sameBut_raise s e site unit l o⟩

theorem CountsOnly.fwRefuse (s : State) (r : Nat) (e : Bool) (a : Agent) (da : Nat) : CountsOnly s (s.fwRefuse r e a da) := by
  unfold State.fwRefuse
  split
  · exact ((((CountsOnly.addFld s _ _ _ (by decide)).trans (.setFld _ _ _ _ (by decide))).trans
      (.setFld _ _ _ _ (by decide))).trans (.setFld _ _ _ _ (by decide))).trans (.setReg _ _ _ _ (by decide))
  · exact .refl s

theorem CountsOnly.refuse (s : State) (a : Agent) (da : Nat) (c : Check) : CountsOnly s (s.refuse a da c) := by
  cases c with
  | pass => exact .refl s
  | order1 => exact .raise s _ _ _ _ _
  | order2 r e => exact (CountsOnly.fwRefuse s r e a da).trans (.raise _ _ _ _ _ _)
  | order3 st => exact .refl s
  | order4 c => exact .addFld s _ _ _ (by decide)

/-! ## A refused request -/

/-- From `s` to `t` a request has been refused: it is answered with a status and no data, and refusals and events are counted. -/
def RefusedWith (a : Agent) (tag : Nat) (st : Status) (len : Nat) (s t : State) : Prop :=
  t.mesh.responses = s.mesh.responses ++ [⟨a, tag, st, len, []⟩] ∧
  (∀ r u i, i < 2 ^ 16 → r ∉ [Reg.FW_STAT, .FW_LAST, .SRAM_STAT, .EVT_STAT] → t.reg r u i = s.reg r u i) ∧
  SameBut [.freeCtr, .regs, .mesh, .events] s t

/-- The refusal and its answer (R26). -/
def State.refuseAnswer (s : State) (a : Agent) (tag da len : Nat) (c : Check) : State :=
  (s.refuse a da c).respond a tag c.status len []

theorem State.refuseAnswer_refused (s : State) (a : Agent) (tag da len : Nat) (c : Check) :
    RefusedWith a tag c.status len s (s.refuseAnswer a tag da len c) := by
  have hc := CountsOnly.refuse s a da c
  have hm : (s.refuse a da c).mesh = s.mesh := hc.same .mesh (by decide)
  refine ⟨?_, fun r u i _ hr => hc.reg r u i hr, (hc.same.mono (by decide)).trans ((sameBut_respond _ _ _ _ _ _).mono (by decide))⟩
  simp [State.refuseAnswer, State.respond, hm]

theorem State.serve_read_refused {s : State} {a : Agent} {da len : Nat} (tag : Nat) (h : s.checkReq .read a da len ≠ .pass) :
    s.serve (.read a tag da len) = s.refuseAnswer a tag da len (s.checkReq .read a da len) := by
  rw [State.serve]
  split
  · contradiction
  · rfl

theorem State.serve_write_refused {s : State} {a : Agent} {da : Nat} {data : List Byte} (tag : Nat)
    (h : s.checkReq .write a da data.length ≠ .pass) :
    s.serve (.write a tag da data) = s.refuseAnswer a tag da data.length (s.checkReq .write a da data.length) := by
  rw [State.serve]
  split
  · contradiction
  · rfl

theorem State.serve_atomic_refused {s : State} {a : Agent} {da size : Nat} (tag : Nat) (op : AmoOp) (x : Word)
    (h : s.checkReq .atomic a da size ≠ .pass) :
    s.serve (.atomic a tag da op size x) = s.refuseAnswer a tag da size (s.checkReq .atomic a da size) := by
  rw [State.serve]
  split
  · contradiction
  · rfl

/-- A command that refuses its request completes so. -/
theorem completes_refused {i : Instr} {s : State} {a : Agent} {tag da len : Nat} {c : Check}
    (h : exec i s = .next (s.refuseAnswer a tag da len c)) : Completes i s (RefusedWith a tag c.status len s) :=
  ⟨_, h, s.refuseAnswer_refused a tag da len c⟩

/-- Settles O3: the checks by the first that fails, and a refusal by what it counts. -/
theorem requestChecks : Obligations.RequestChecks := by
  unfold Obligations.RequestChecks
  refine ⟨fun s k a da len => ⟨fun hu => ?unmapped, fun hs => ?misshapen, fun hs => ⟨fun _ _ => State.checkReq_denied_status hs,
    fun hd hu => ?unreached, fun hd hu => ⟨fun _ _ => State.checkReq_dram_status hs hd hu,
      fun _ _ => State.checkReq_sram_status hs hd hu, fun _ _ => State.checkReq_coreCsr_status hs hd hu,
      fun _ _ => State.checkReq_milCsr_status hs hd hu, fun _ _ => State.checkReq_alwaysOn hs hd hu⟩⟩⟩,
    fun s a tag da => ⟨fun len h => ?read, fun data h => ?write, fun op size x h => ?atomic⟩⟩
  case unmapped => rw [State.checkReq_misshapen a (State.shapeOk_unmapped hu)]; rfl
  case misshapen => rw [State.checkReq_misshapen a hs]; rfl
  case unreached => rw [State.checkReq_unreached hs hd hu]; rfl
  case read => exact completes_refused (congrArg Host.Outcome.next (State.serve_read_refused tag h))
  case write => exact completes_refused (congrArg Host.Outcome.next (State.serve_write_refused tag h))
  case atomic => exact completes_refused (congrArg Host.Outcome.next (State.serve_atomic_refused tag op x h))

end Sys2Proof.Machine
end
